-- ==== Sys2Proof/Word.lean ====
section
/-! DEFINITION. The word types of the PY-WK1 model: bytes, 32-bit registers (R4), binary32 codes, and
the sparse map type that memories and register files are kept in. Everything that is computed with them
lives in the files under Machine/. -/

namespace Sys2Proof

/-- One byte; every multi-byte value is little-endian (R4). -/
abbrev Byte := BitVec 8

/-- One 32-bit register (R4). -/
abbrev Word := BitVec 32

/-- IEEE 754 binary32, by its code. -/
abbrev F32 := BitVec 32

/-- Sparse data by key, in one canonical form: keys strictly rising, and no entry equal to what an
unlisted key reads as (Machine/Memory.lean). -/
abbrev Sparse (α : Type) := List (Nat × α)

end Sys2Proof
end

