-- ==== Sys2Proof/Syntax.lean ====
section
/-! DEFINITION. The commands of the block: one constructor per row of the operations-and-events
table, with the operands each row needs. What only the outside world decides (a converter's analog
error, a sensor's reading, a received frame's fields, a measured offset) is an operand. -/

namespace Sys2Proof

/-- The context of a SCHED frame (Table 10.4) and of a vector position. -/
structure Ctx where
  seqId    : Nat
  seqGen   : Nat
  adapter  : Nat
  tenant   : Nat
  cls      : Nat        -- 0 G, 1 P
  prio     : Nat
  tokenIdx : Nat
  token    : Nat        -- input token ID (Table 13.4); known at a first stage only
  modelGen : Nat
  deriving DecidableEq, Repr

/-- What the receiving port finds of a frame beside its fields (R178, R196, R209): it carries an IEEE 802.1Q tag, holds an
uncorrectable codeword, or finds so many bytes still waiting in the station's unscheduled ingress buffer. -/
structure RxIn where
  tagged  : Bool := false
  bad     : Bool := false
  backlog : Nat := 0
  deriving DecidableEq, Repr

/-- A received SCHED frame (R198, R200): header, flags, context and payload flits as bytes. -/
structure SchedFrame where
  dst      : Nat
  src      : Nat
  isNull   : Bool
  isFail   : Bool
  ctx      : Ctx
  vec      : Nat
  destBuf  : Nat
  beat     : Nat        -- BEAT_LO: beat of the departure on the sender's grid
  data     : List Byte
  ttl      : Nat := 4
  fpv      : Nat := 0   -- revision in force on the link (R188)
  rx       : RxIn := {}
  deriving DecidableEq, Repr

/-- A REQ frame's header (Table 10.5) with the common header's addresses. -/
structure ReqHdr where
  src       : Nat
  dst       : Nat
  ttl       : Nat
  op        : Nat
  tag       : Nat
  dgen      : Nat
  issueBeat : Nat
  len       : Nat
  addr      : Nat        -- 64-bit fabric address
  opnd1     : Nat
  opnd2     : Nat
  stopBeat  : Nat
  fpv       : Nat := 0
  rx        : RxIn := {}
  deriving DecidableEq, Repr

/-- A RESP frame's header (Table 10.7). -/
structure RespHdr where
  src       : Nat
  dst       : Nat
  op        : Nat
  status    : Nat
  tag       : Nat
  dgen      : Nat
  applyBeat : Nat
  len       : Nat
  old       : Nat
  ttl       : Nat := 4
  fpv       : Nat := 0
  rx        : RxIn := {}
  deriving DecidableEq, Repr

/-- An unscheduled frame in transit (R208): what the die needs of it, and its bytes after the common header. -/
structure TransitHdr where
  typ  : Nat            -- 0x02 CTRL, 0x03 REQ, 0x04 RESP (Table 10.2); 0x01 SCHED
  dst  : Nat
  src  : Nat
  ttl  : Nat
  tag  : Nat
  addr : Nat
  body : List Byte
  fpv  : Nat := 0
  rx   : RxIn := {}
  deriving DecidableEq, Repr

/-- The fields of a HELLO payload (Table 9.5). -/
structure Hello where
  kind     : Nat
  peerOk   : Bool
  quar     : Bool
  isSwitch : Bool
  resvBits : Bool       -- some reserved bit is set, or the payload is not 72 bytes long
  fpvMin   : Nat
  fpvMax   : Nat
  dieId    : Nat
  port     : Nat
  goodLanes : Nat
  romRev   : Nat
  patch    : Nat
  mapEpoch : Nat
  expDie   : Nat
  expPort  : Nat
  tstate   : Nat
  mapDigest : List Byte
  modelGen : Nat
  deriving DecidableEq, Repr

/-- A beat marker or acknowledgement (Table 7.10), with the beat it arrives in on this grid. -/
structure Marker where
  beat   : Nat
  tstate : Nat
  frames : Nat
  skew   : Int
  arrival : Int := 0     -- of a received marker, as the port measures it: arrival less (boundary b + mean link delay), in 0.25 ns
  deriving DecidableEq, Repr

/-- A PTP event or follow-up message (R133 to R136): its identity fields, the Voxvi TLV of a Sync (Table 7.4), the time it
carries, and, of a received one, the offset the port measures (in units of 2^-16 ns, R136, R138). -/
structure PtpMsg where
  domain   : Nat
  sdo      : Nat
  clockId  : Nat        -- the sender's clockIdentity (R134)
  portNo   : Nat := 1
  twoStep  : Bool
  epoch    : Nat
  holdLeft : Nat
  tstate   : Nat
  seqNo    : Nat
  offset   : Int        -- Sync: measured offset; peer-delay responses: measured delay
  other    : Bool := false   -- the message is of a kind that Table 7.3 does not list
  tlv      : Option (Nat × Nat × Nat × Nat) := some (3, 14, 0x0B5A1F, 1)   -- tlvType, lengthField, organizationId and subtype of its ORGANIZATION_EXTENSION
  seconds  : Nat := 0   -- secondsField, nanosecondsField and the fraction in correctionField (R127)
  nanos    : Nat := 0
  correct  : Nat := 0
  deriving DecidableEq, Repr

/-- An announcement (Table 7.3). -/
structure AnnMsg where
  clockClass : Nat
  seqNo      : Nat
  domain     : Nat
  clockId    : Nat
  portNo     : Nat
  ptpTimescale : Bool := false
  utcOffset  : Nat := 0
  deriving DecidableEq, Repr

/-- What a port measures of one lane in a round (R176, Table 9.7). -/
structure LaneRead where
  link   : Nat
  lane   : Nat
  bad    : Bool          -- the pre-FEC bit error ratio exceeds 1 × 10^−4
  uncorr : Nat := 0      -- uncorrectable codewords mainly on it
  berExp : Nat := 0xFF
  eq     : Nat := 0      -- eye margin, in units of 0.1 mV
  deriving DecidableEq, Repr

/-- An uncorrectable error found in a memory of a field (R380): 0 SRAM, 1 accumulator, 2 Nettle store, 3 station buffer,
4 table; the offset, and the vector whose step reads it. Of a table, the section's type and instance. 5: a byte of the field's
record block (R122) has changed by the bits of `vec`. 6: the HBM granule at address `off` (R381). -/
structure MemErr where
  mem   : Nat
  field : Nat
  off   : Nat
  vec   : Nat := 0
  typ   : Nat := 0
  inst  : Nat := 0
  deriving DecidableEq, Repr

/-- What one housekeeping round reads from outside the digital core (R176, R365, R367, R369, R376), and what the memories'
checks have found since the last one (R380). -/
structure RoundIn where
  temps   : List (Option Int)        -- 48 sensors, units of 0.25 °C; none: the reading fails
  railV   : List (Option Nat)        -- READ_VOUT in mV of rails 0 to 7; none: no answer
  railP   : List (Option Nat)        -- READ_POUT in W
  vmodeOk : List Bool                -- VOUT_MODE is ULINEAR16
  status  : List (Option Nat)        -- STATUS_WORD of each rail, when PMB_ALERT_N asked for it
  busCode : Nat                      -- 12-bit BUS_SENSE code
  slack   : List (Nat × Int)         -- least slack in ps of each powered domain
  lanes   : List LaneRead
  fecCorr : List (Nat × Nat) := []   -- link, codewords corrected
  sramCorr : Nat := 0                -- errors corrected in memories of ECC_SRAM.CORR
  flitCorr : Nat := 0                -- errors corrected in router flit buffers and mesh links
  hbmCorr : Nat × Nat := (0, 0)      -- granules corrected in stacks 0 and 1
  memErrs : List MemErr := []
  retries : Nat                      -- PMBus transactions retried
  deriving DecidableEq, Repr

/-- One tile's physical outcome in a programming wave or refresh (R120, R121, R234). -/
structure ProgOutcome where
  tile    : Nat
  failed  : List Nat                 -- logical columns that fail, ascending
  deriving DecidableEq, Repr

/-- A router entry that comes due: its index, and the pseudo-channel whose fault delays its reserved HBM access past the
beat (R265). -/
structure EntryRun where
  idx  : Nat
  late : Option Nat
  deriving DecidableEq, Repr

/-- An attention or gather window that comes due: its index, and the positions whose reserved HBM accesses are delayed past
the beat, each with the pseudo-channel (R265). -/
structure WinRun where
  w    : Nat
  late : List (Nat × Nat)
  deriving DecidableEq, Repr

/-- A programming wave that ends by its timeout: the tiles that are not complete, and the columns that failed in the others
(R234). -/
structure WaveTimeout where
  unfinished : List Nat
  outs       : List ProgOutcome
  deriving DecidableEq, Repr

/-- What a maintenance slot's measurement returns (R111, R114, R115, R119). -/
inductive MWork where
  | idle
  | trim (conv : Nat) (gain : Int) (off : Int) (sums : List Int)   -- R113
  | refreshPart                                                    -- one slot of a refresh
  | refreshEnd (cells : Nat) (failed : List Nat)                   -- the refresh completes
  | refRow (sumsPos sumsNeg : List Int)                            -- the 128-slot measurement ends
  | refRowPart
  | check (codes : List Int)                                       -- one plane of a check or REF_RUN
  deriving DecidableEq, Repr

/-- Test-port operations of R419. -/
inductive TestOp where
  | boundaryScan
  | blowFuse (bit : Nat)
  | readKwk
  | selfTest
  deriving DecidableEq, Repr

/-- The commands. Mailbox commands name the mailbox whose pending command the control core takes. -/
inductive Instr where
  -- general commands
  | echo (m : Nat) | getInfo (m : Nat) | healthRead (m : Nat)
  -- boot, identity and configuration commands
  | setDieId (m : Nat) | setRole (m : Nat) | timeRoot (m : Nat) | cfgCommit (m : Nat)
  | configure (m : Nat) | mapInstall (m : Nat) | mapPublish (m : Nat) | keySlotWrite (m : Nat)
  | keySlotClear (m : Nat) | patchInstall (m : Nat) | attest (m : Nat) | identityRead (m : Nat)
  | endorseInstall (m : Nat)
  -- time, fabric and memory commands
  | rejoin (m : Nat) | distRead (m : Nat) | remoteOp (m : Nat) | protectSet (m : Nat)
  | protectClear (m : Nat) | kvRecvOpen (m : Nat) | kvRecvClose (m : Nat)
  -- weights, schedules and model swap commands
  | shardFetch (m : Nat) | shardActivate (m : Nat) | shardProgram (m : Nat) | shardRepair (m : Nat)
  | schedInstall (m : Nat) | serveStart (m : Nat) | drain (m : Nat) | swapStage (m : Nat)
  | unitRewrite (m : Nat) | commitPrepare (m : Nat) | swapAbort (m : Nat) | adapterLoad (m : Nat)
  | adapterEvict (m : Nat) | refRun (m : Nat)
  -- sequence and budget commands
  | seqSubmit (m : Nat) | seqCancel (m : Nat) | seqPause (m : Nat) | seqResume (m : Nat)
  | seqRead (m : Nat) | seqNotify (m : Nat) | budgetSet (m : Nat)
  -- power, thermal, fault and service commands
  | fieldPower (m : Nat) | powerCap (m : Nat) | thermalClear (m : Nat) | domainReset (m : Nat)
  | faultLogRead (m : Nat) | eventLogRead (m : Nat) | serviceClear (m : Nat)
  -- mailbox and register accesses; src: none for the host over U4, the die ID for MBX7
  | mbxGo (m : Nat) (src : Option Nat)
  | mbxCmdWrite (m off : Nat) (data : List Byte) (src : Option Nat)
  | jobAck (m jobNo : Nat) (src : Option Nat)
  | intMaskWrite (v : Word)
  | configWrite (off : Nat) (v : Word)
  | enableWrite (off : Nat) (v : Word)
  | disableWrite (off : Nat) (v : Word)
  | readClear (off : Nat)
  | ftNsLoRead
  | registerWrite (off : Nat) (v : Word)
  | u4Rd (tag len addr : Nat)
  | u4Wr (tag addr : Nat) (data : List Byte)
  | intWindowEnd (bit : Nat)
  -- resets and boot
  | resetNAssert
  | resetNRelease (qpos : Nat)
  | supplyLoss
  | romBootDone
  | wholeDieReset
  -- housekeeping, power and thermal events
  | housekeepingRound (i : RoundIn)
  | sensorFastRead (sensor : Nat) (reading : Option Int)
  | bandChange
  | brownout (code low : Nat)
  | brownoutClear (code : Nat)
  | busOver (code : Nat)
  | timingMonitorLow (domain : Nat) (slack : Int)
  | pmbAlert
  | aliveSecond
  | headerCheckpoint
  -- the grid and serving
  | beatBoundary
  | serveBegin
  | drainComplete
  -- tiles; err: analog error of each logical column, in units of 2^-16 LSB (R89)
  | tileDrive (tile slot : Nat) (err : List Int)
  | sSlotDrive (tile slot : Nat) (err : List Int)
  | rerunCommit (tile slot : Nat) (refDone : Bool)
  | mSlot (tile slot : Nat) (work : MWork)
  | rangeWindowClose (tile : Nat)
  | rangeChange (tile : Nat)
  -- field actions
  | fieldScan (field slot vec : Nat)
  | fieldExponent (field slot vec : Nat)
  | fieldAlign (field slot vec : Nat)
  | fieldOpen (field slot vec : Nat)
  | fieldClose (field slot vec : Nat)
  | fieldSelect (field slot vec : Nat)
  | tqWindowClose (field nidx : Nat)
  | tqChange (field nidx : Nat)
  -- router, departures, scheduled frames, attention
  | routerEntry (field : Nat) (idx : EntryRun)
  | departure (link idx : Nat)
  | schedFrame (link slot : Nat) (f : SchedFrame)
  | attWindow (w : WinRun)
  | attGather (w : WinRun)
  -- beat exchange
  | beatMarker (link : Nat) (mk : Marker)
  | beatAck (link : Nat) (mk : Marker)
  | beatAckTimeout (link : Nat) (why : Nat)
  -- PTP and time states
  | syncSend
  | pdelayReqSend (port : Nat)
  | announceSend
  | syncReceived (port : Nat) (msg : PtpMsg)
  | followUpReceived (port : Nat) (msg : PtpMsg)
  | pdelayReqReceived (port : Nat) (msg : PtpMsg)
  | pdelayRespReceived (port : Nat) (msg : PtpMsg)
  | pdelayRespFuReceived (port : Nat) (msg : PtpMsg)
  | announceReceived (port : Nat) (msg : PtpMsg)
  | syncSourceTimeout (port : Nat)
  | acquireTimeout
  | holdLeftExpire
  | extGmLost
  -- links
  | helloSend (link : Nat)
  | hello (link : Nat) (payload : List Byte)
  | helloTimeout (link : Nat)
  | epochWaitTimeout (link : Nat)
  | pcsAligned (link good delay : Nat)
  | phyTrainTimeout (link : Nat)
  | downRetry (link : Nat)
  | laneFail (link lane : Nat)
  | fastRetrainDone (link : Nat) (ok : Bool) (good delay : Nat)
  | ucieRepairFail (link : Nat)
  | linkAdmit (link : Nat)
  -- unscheduled fabric traffic
  | reqLoad (link : Nat) (r : ReqHdr)
  | reqStore (link : Nat) (r : ReqHdr) (data : List Byte)
  | reqFaa64 (link : Nat) (r : ReqHdr)
  | reqCas64 (link : Nat) (r : ReqHdr)
  | reqCopy (link : Nat) (r : ReqHdr)
  | copyComplete (src tag : Nat)
  | reqKvx (link : Nat) (r : ReqHdr)
  | kvxPartWrite (link : Nat) (r : ReqHdr) (data : List Byte)
  | respFrame (link : Nat) (r : RespHdr) (data : List Byte)
  | reqTimeout (tag : Nat)
  | transitFrame (link : Nat) (f : TransitHdr)
  -- manager messages and maps
  | managerAlive (src epoch time : Nat)
  | managerAliveSend
  | standbyTakeover
  | mapNotice (src epoch len addr : Nat) (digest : List Byte)
  | mapNoticeResend
  | mapObey
  | takeoverMapReady
  | mapPublishSigned
  | budgetReq (src tenant reqNo units : Nat)
  | budgetGrant (src tenant reqNo units : Nat)
  | shedReport (src s cause round : Nat)
  | healthReport (src : Nat) (payload : List Byte)
  -- sequences
  | vectorMapWrite (field stepNo : Nat)
  | seqCommit
  | deadlineExpire (idx : Nat)
  | dirBind (idx : Nat)
  | dirLength (idx : Nat)
  | dirPark (idx : Nat)
  | dirRelease (idx : Nat)
  -- swap, programming, fetch
  | swapCommit
  | progWaveEnd (outs : List ProgOutcome)
  | progWaveTimeout (unfinished : WaveTimeout)
  | tileRetirement (tile : Nat)
  | roceReadResponse (src off : Nat) (data : List Byte)
  | roceAck (src psn : Nat)
  | roceNak (src psn : Nat)
  | roceTimeout (src : Nat)
  | shardRedigest
  -- HBM
  | patrolScrub (side addr result : Nat)     -- 0 no error, 1 correctable, 2 uncorrectable
  | placementWindowClose (side : Nat) (counts : List Nat) (hot : List (Nat × Nat))
  | migrationCopyDone (side oldFrame : Nat)
  | oldFrameReturn (side oldFrame : Nat)
  -- calibration and drift
  | trimPeriodExpire (tile conv : Nat)
  | trimTakeoverStart (tile conv : Nat)
  | trimAttempt (tile conv : Nat) (gain off : Int) (sums : List Int)
  | driftAgeTick (tile : Nat)
  | refreshPending (tile : Nat)
  | refreshOverdue (tile : Nat)
  | sampledCheckStart
  | checkAbandon (tile : Nat)
  | nettleRefDone (tile : Nat)
  | tileRecordCheckpoint (tile : Nat)
  -- integrity, domains, fatal errors
  | speedwellPassEnd
  | domainPowerReady (d : Nat)
  | domainResetRelease (d : Nat)
  | coreFatal (mem addr : Nat)
  | routerLost (field why : Nat)
  | powerOnResetRelease (qpos : Nat)
  | testPortAccess (op : TestOp)
  | hbmStackTrained (side : Nat)
  deriving DecidableEq, Repr

end Sys2Proof
end

