-- ==== Sys2Proof/Decode.lean ====
section
/-! DEFINITION. The block has no encoding: no row of the operations table gives bits, so no word spells
a command. -/

namespace Sys2Proof

/-- The command a word spells by the table's bits: none, since no row gives bits. -/
def decodeTableWord (_nbits _w : Nat) : Option Instr := none

end Sys2Proof
end

