-- ==== Sys2Proof/Machine/Bytes.lean ====
section
/-! DEFINITION. Little-endian byte strings (R4), bit fields of naturals, signed readings, and CRC-32C
(R355). -/

namespace Sys2Proof.Machine

/-- The value of a little-endian byte string. -/
def leNat : List Byte → Nat
  | [] => 0
  | b :: bs => b.toNat + 256 * leNat bs

/-- `n` bytes of `v`, least significant first. -/
def leBytes : Nat → Nat → List Byte
  | 0, _ => []
  | n + 1, v => BitVec.ofNat 8 v :: leBytes n (v / 256)

/-- Bytes [off, off + n) of a byte string as one little-endian value; bytes beyond the end read 0. -/
def fieldAt (bs : List Byte) (off n : Nat) : Nat := leNat ((bs.drop off).take n)

/-- Bits [lo + n - 1 : lo] of `v`. -/
def bits (v lo n : Nat) : Nat := v / 2 ^ lo % 2 ^ n

/-- `n` bytes from `off`, padded with zeros beyond the end. -/
def slice (bs : List Byte) (off n : Nat) : List Byte :=
  let t := (bs.drop off).take n
  t ++ List.replicate (n - t.length) 0

/-- Replace the bytes of `bs` from `off` on by `xs` (within the length of `bs`). -/
def patchAt (bs : List Byte) (off : Nat) (xs : List Byte) : List Byte :=
  (bs.take off ++ xs ++ bs.drop (off + xs.length)).take bs.length

/-- Set element `i` of a list (unchanged outside the list). -/
def setAt {α : Type} : List α → Nat → α → List α
  | [], _, _ => []
  | _ :: l, 0, v => v :: l
  | x :: l, i + 1, v => x :: setAt l i v

/-- Change element `i` of a list by `g` (unchanged outside the list). -/
def updAt {α : Type} : List α → Nat → (α → α) → List α
  | [], _, _ => []
  | x :: l, 0, g => g x :: l
  | x :: l, i + 1, g => x :: updAt l i g

/-- Element `i`, or `d` outside the list. -/
def getAt {α : Type} (d : α) : List α → Nat → α
  | [], _ => d
  | x :: _, 0 => x
  | _ :: l, i + 1 => getAt d l i

/-- The two's-complement reading of the low `n` bits of `v`. -/
def toSigned (n v : Nat) : Int :=
  let w := v % 2 ^ n
  if w < 2 ^ (n - 1) then (w : Int) else (w : Int) - (2 ^ n : Nat)

/-- The low `n` bits of an integer, two's complement. -/
def ofSigned (n : Nat) (v : Int) : Nat := (v % (2 ^ n : Nat)).toNat

/-- Bitwise mask with one bit set. -/
def bit (n : Nat) : Nat := 2 ^ n

/-- Bit `n` of `v`. -/
def hasBit (v n : Nat) : Bool := v / 2 ^ n % 2 == 1

/-- `v` with bit `n` set. -/
def setBit (v n : Nat) : Nat := if hasBit v n then v else v + 2 ^ n

/-- `v` with bit `n` clear. -/
def clrBit (v n : Nat) : Nat := if hasBit v n then v - 2 ^ n else v

/-- Number of set bits below position `n`. -/
def popCount (v : Nat) : Nat → Nat
  | 0 => 0
  | n + 1 => (if hasBit v n then 1 else 0) + popCount v n

/-- 1 for true. -/
def b2n (b : Bool) : Nat := if b then 1 else 0

/-- Saturating count at `m`. -/
def satAdd (m a b : Nat) : Nat := min m (a + b)

/-- One bit of CRC-32C in its reflected form, polynomial 0x82F6_3B78 (R355). -/
def crcBit (c : BitVec 32) : BitVec 32 :=
  if c.toNat % 2 = 1 then (c >>> 1) ^^^ 0x82F63B78#32 else c >>> 1

/-- One byte of CRC-32C. -/
def crcByte (c : BitVec 32) (b : Byte) : BitVec 32 :=
  let c0 := c ^^^ b.setWidth 32
  crcBit (crcBit (crcBit (crcBit (crcBit (crcBit (crcBit (crcBit c0)))))))

/-- The running CRC over bytes. -/
def crcRun : BitVec 32 → List Byte → BitVec 32
  | c, [] => c
  | c, b :: bs => crcRun (crcByte c b) bs

/-- CRC-32C: start 0xFFFF_FFFF, final XOR 0xFFFF_FFFF (R355). -/
def crc32c (bs : List Byte) : BitVec 32 := crcRun 0xFFFFFFFF#32 bs ^^^ 0xFFFFFFFF#32

end Sys2Proof.Machine
end

