-- ==== Sys2Proof/Machine/Num.lean ====
section
/-! DEFINITION. Exact numbers: binary32 and bfloat16 values and their single rounding (R77, R78, R90),
vector element formats (R67, R81), and the correctly rounded output functions of Table 4.6 (R79). -/

namespace Sys2Proof.Machine

/-! ### Rounding -/

/-- n / d rounded to the nearest integer, ties to even. -/
def rneDiv (n d : Nat) : Nat :=
  let q := n / d
  let r := n % d
  if d < 2 * r ∨ (2 * r = d ∧ q % 2 = 1) then q + 1 else q

/-- v / d rounded to the nearest integer, ties to even. -/
def rneInt (v : Int) (d : Nat) : Int :=
  if v < 0 then - (rneDiv v.natAbs d : Int) else (rneDiv v.natAbs d : Int)

/-- The code of m × 2^e (m > 0) in a format with `mb` fraction bits and least normal exponent `emin`,
rounded to nearest, ties to even; the exponent field is not bounded. -/
def magCode (mb : Nat) (emin : Int) (m : Nat) (e : Int) : Nat :=
  let x := max ((Nat.log2 m : Int) + e) emin - (mb : Int)
  let q := if x ≤ e then m * 2 ^ (e - x).toNat else rneDiv m (2 ^ (x - e).toNat)
  (x + (mb : Int) - emin).toNat * 2 ^ mb + q

/-- A value before rounding: NaN, an infinity, or sign × m × 2^e. -/
inductive Fl where
  | nan
  | inf (neg : Bool)
  | fin (neg : Bool) (m : Nat) (e : Int)
  deriving DecidableEq, Repr

/-- The quiet NaN of R77. -/
def nan32 : Nat := 0x7FC00000

/-- A code with `mb` fraction and `eb` exponent bits, read as an IEEE value. -/
def flDec (eb mb w : Nat) : Fl :=
  let neg := hasBit w (eb + mb)
  let e := bits w mb eb
  let f := bits w 0 mb
  let emin : Int := 2 - (2 ^ (eb - 1) : Nat)
  if e = 2 ^ eb - 1 then if f = 0 then .inf neg else .nan
  else if e = 0 then .fin neg f (emin - mb)
  else .fin neg (f + 2 ^ mb) (emin - mb + ((e - 1 : Nat) : Int))

/-- Round to a code with `mb` fraction bits and 8 exponent bits (binary32 or bfloat16). -/
def flEnc (mb : Nat) (x : Fl) : Nat :=
  match x with
  | .nan => 0x1FF * 2 ^ (mb - 1)
  | .inf neg => (if neg then 2 ^ (mb + 8) else 0) + 255 * 2 ^ mb
  | .fin neg m e =>
    (if neg then 2 ^ (mb + 8) else 0) + (if m = 0 then 0 else min (255 * 2 ^ mb) (magCode mb (-126) m e))

/-- binary32 code to value. -/
def dec32 (w : Nat) : Fl := flDec 8 23 w

/-- Round to binary32, to nearest with ties to even (rnd32). -/
def rnd32 (x : Fl) : Nat := flEnc 23 x

/-- bfloat16 code to value. -/
def dec16 (w : Nat) : Fl := flDec 8 7 w

/-- Round to bfloat16; every NaN is 0x7FC0 (R80). -/
def rnd16 (x : Fl) : Nat := flEnc 7 x

/-- Negation. -/
def Fl.neg : Fl → Fl
  | .nan => .nan
  | .inf n => .inf (!n)
  | .fin n m e => .fin (!n) m e

/-- Signed mantissa. -/
def sgn (neg : Bool) (m : Nat) : Int := if neg then -(m : Int) else (m : Int)

/-- Exact sum; a zero sum is +0 unless both terms are −0 (R78). -/
def Fl.add : Fl → Fl → Fl
  | .nan, _ => .nan
  | .inf _, .nan => .nan
  | .fin _ _ _, .nan => .nan
  | .inf a, .inf b => if a = b then .inf a else .nan
  | .inf a, .fin _ _ _ => .inf a
  | .fin _ _ _, .inf b => .inf b
  | .fin na ma ea, .fin nb mb eb =>
    let e := min ea eb
    let v := sgn na ma * 2 ^ (ea - e).toNat + sgn nb mb * 2 ^ (eb - e).toNat
    if v = 0 then .fin (na && nb) 0 e else .fin (decide (v < 0)) v.natAbs e

/-- Exact product; infinity times zero is NaN (R77). -/
def Fl.mul : Fl → Fl → Fl
  | .nan, _ => .nan
  | .inf _, .nan => .nan
  | .fin _ _ _, .nan => .nan
  | .inf a, .inf b => .inf (a != b)
  | .inf a, .fin nb mb _ => if mb = 0 then .nan else .inf (a != nb)
  | .fin na ma _, .inf b => if ma = 0 then .nan else .inf (na != b)
  | .fin na ma ea, .fin nb mb eb => .fin (na != nb) (ma * mb) (ea + eb)

/-- Quotient, exact enough that one rounding to binary32 is the rounding of the exact quotient: 64 further
quotient bits and a sticky bit. -/
def Fl.div : Fl → Fl → Fl
  | .nan, _ => .nan
  | .inf _, .nan => .nan
  | .fin _ _ _, .nan => .nan
  | .inf _, .inf _ => .nan
  | .inf a, .fin nb _ _ => .inf (a != nb)
  | .fin na _ _, .inf b => .fin (na != b) 0 0
  | .fin na ma ea, .fin nb mb eb =>
    if mb = 0 then if ma = 0 then .nan else .inf (na != nb)
    else
      let k := 64 + Nat.log2 mb
      let n := ma * 2 ^ k
      .fin (na != nb) (2 * (n / mb) + (if n % mb = 0 then 0 else 1)) (ea - eb - (k : Int) - 1)

/-- Strictly less; NaN is below nothing. −0 equals +0. -/
def Fl.lt : Fl → Fl → Bool
  | .nan, _ => false
  | .inf _, .nan => false
  | .fin _ _ _, .nan => false
  | .inf a, .inf b => a && !b
  | .inf a, .fin _ _ _ => a
  | .fin _ _ _, .inf b => !b
  | .fin na ma ea, .fin nb mb eb =>
    let e := min ea eb
    decide (sgn na ma * 2 ^ (ea - e).toNat < sgn nb mb * 2 ^ (eb - e).toNat)

/-- binary32 addition, multiplication, fused multiply-add and division on codes. -/
def add32 (a b : Nat) : Nat := rnd32 ((dec32 a).add (dec32 b))
def mul32 (a b : Nat) : Nat := rnd32 ((dec32 a).mul (dec32 b))
def fma32 (acc x y : Nat) : Nat := rnd32 ((dec32 acc).add ((dec16 x).mul (dec16 y)))
def div32 (a b : Nat) : Nat := rnd32 ((dec32 a).div (dec32 b))

/-- A binary32 code is NaN or infinite. -/
def special32 (w : Nat) : Bool := decide (bits w 23 8 = 255)

/-- A binary32 code is NaN. -/
def isNan32 (w : Nat) : Bool := special32 w && bits w 0 23 != 0

/-- The larger of two binary32 codes. -/
def max32 (a b : Nat) : Nat := if (dec32 a).lt (dec32 b) then b else a

/-- Clamp a binary32 value to ±lim; the second component is true where it clamped (R101). -/
def clamp32 (lim v : Nat) : Nat × Bool :=
  if (dec32 lim).lt (dec32 v) then (lim, true)
  else if (dec32 v).lt (dec32 lim).neg then (rnd32 (dec32 lim).neg, true) else (v, false)

/-! ### Vector elements (R67) -/

/-- Element values are integers in units of 2^-519, a common divisor of every element value and of every
threshold τ. -/
def fxShift : Int := 519

/-- m × 2^e in units of 2^-519. -/
def toFx (neg : Bool) (m : Nat) (e : Int) : Int := sgn neg m * 2 ^ (e + fxShift).toNat

/-- E(v): floor(log2 |v|) of a non-zero element value (R69). -/
def expOf (v : Int) : Int := (Nat.log2 v.natAbs : Int) - fxShift

/-- Width of an element code in bits (Table 4.4). -/
def elemBits (fmt : Nat) : Nat :=
  if fmt ≤ 2 then 8 else if fmt ≤ 4 then 6 else if fmt = 5 then 4 else if fmt = 6 then 16 else 32

/-- The format has a shared scale. -/
def isMx (fmt : Nat) : Bool := decide (fmt ≤ 5)

/-- Exponent bits, fraction bits and emax of an MX floating format. -/
def mxEb (fmt : Nat) : Nat := if fmt = 1 then 4 else if fmt = 2 then 5 else if fmt = 3 then 2 else if fmt = 4 then 3 else 2
def mxMb (fmt : Nat) : Nat := if fmt = 1 then 3 else if fmt = 2 then 2 else if fmt = 3 then 3 else if fmt = 4 then 2 else 1
def mxEmax (fmt : Nat) : Int := if fmt = 0 then 0 else if fmt = 1 then 8 else if fmt = 2 then 15 else if fmt = 3 then 2 else if fmt = 4 then 4 else 2

/-- Code of the largest finite magnitude of an MX floating format (Table 4.4). -/
def mxTop (fmt : Nat) : Nat := if fmt = 1 then 0x7E else if fmt = 2 then 0x7B else if fmt = 5 then 0x7 else 0x1F

/-- Least normal exponent of an MX floating format. -/
def mxEmin (fmt : Nat) : Int := 2 - (2 ^ (mxEb fmt - 1) : Nat)

/-- Value of an MX element code before its scale; none for NaN or infinity. -/
def mxElem (fmt c : Nat) : Option (Bool × Nat × Int) :=
  if fmt = 0 then some (decide (128 ≤ c), (toSigned 8 c).natAbs, -6)
  else
    let eb := mxEb fmt
    let mb := mxMb fmt
    let neg := hasBit c (eb + mb)
    let e := bits c mb eb
    let f := bits c 0 mb
    if fmt = 1 ∧ e = 15 ∧ f = 7 then none
    else if fmt = 2 ∧ e = 31 then none
    else if e = 0 then some (neg, f, mxEmin fmt - mb)
    else some (neg, f + 2 ^ mb, mxEmin fmt - mb + ((e - 1 : Nat) : Int))

/-- Bytes of the element area and of the scale area of n elements. -/
def elemBytes (fmt n : Nat) : Nat := (n * elemBits fmt + 7) / 8
def scaleBytes (fmt n : Nat) : Nat := if isMx fmt then (n + 31) / 32 else 0

/-- Length of a vector of n elements: padded to a multiple of 128 bytes (R431). -/
def vecBytes (fmt n : Nat) : Nat := (elemBytes fmt n + scaleBytes fmt n + 127) / 128 * 128

/-- Element code i of a vector's bytes. -/
def elemCode (fmt : Nat) (bs : List Byte) (i : Nat) : Nat :=
  let w := elemBits fmt
  bits (fieldAt bs (i * w / 8) (w / 8 + 1)) (i * w % 8) w

/-- Value of element i of a vector of n elements in units of 2^-519; none where the element or its block
scale poisons the vector (R68). -/
def elemVal (fmt : Nat) (bs : List Byte) (n i : Nat) : Option Int :=
  let c := elemCode fmt bs i
  if isMx fmt then
    let x := fieldAt bs (elemBytes fmt n + i / 32) 1
    if x = 0xFF then none
    else match mxElem fmt c with
    | some (neg, m, e) => some (toFx neg m (e + (x : Int) - 127))
    | none => none
  else match (if fmt = 6 then dec16 c else dec32 c) with
  | .fin neg m e => some (toFx neg m e)
  | .inf _ => none
  | .nan => none

/-- Value of an element as a binary value. -/
def elemFl (fmt : Nat) (bs : List Byte) (n i : Nat) : Fl :=
  match elemVal fmt bs n i with
  | some v => .fin (decide (v < 0)) v.natAbs (-fxShift)
  | none => .nan

/-! ### Output formats (R80 to R82) -/

/-- Largest |y| of a block, as a value. -/
def maxMag (ys : List Nat) : Fl := ys.foldl (fun m y => match dec32 y with
  | .fin _ n e => if m.lt (.fin false n e) then .fin false n e else m
  | _ => m) (.fin false 0 0)

/-- Shared scale X of a block (R81). -/
def mxScale (fmt : Nat) (ys : List Nat) : Nat :=
  if ys.any special32 then 0xFF
  else match maxMag ys with
  | .fin _ m e => if m = 0 then 0 else (min 254 (max 0 ((Nat.log2 m : Int) + e - mxEmax fmt + 127))).toNat
  | _ => 0xFF

/-- One output element under scale X: its code, and whether it saturated (R81). -/
def mxOut (fmt x y : Nat) : Nat × Bool :=
  match dec32 y with
  | .fin neg m e =>
    let e' := e - ((x : Int) - 127)
    if m = 0 then (if neg && fmt != 0 then 2 ^ (elemBits fmt - 1) else 0, false)
    else if fmt = 0 then
      let q := if 0 ≤ e' + 6 then m * 2 ^ (e' + 6).toNat else rneDiv m (2 ^ (-(e' + 6)).toNat)
      (ofSigned 8 (sgn neg (min 127 q)), decide (127 < q))
    else
      let q := magCode (mxMb fmt) (mxEmin fmt) m e'
      ((if neg then 2 ^ (elemBits fmt - 1) else 0) + min (mxTop fmt) q, decide (mxTop fmt < q))
  | _ => (0, false)

/-- Blocks of 32 elements. -/
def blocks32 (fuel : Nat) (ys : List Nat) : List (List Nat) :=
  match fuel, ys with
  | 0, _ => []
  | _, [] => []
  | n + 1, y :: l => (y :: l).take 32 :: blocks32 n ((y :: l).drop 32)

/-- Pack element codes of w bits as a little-endian bit string (R431). -/
def packBits (w : Nat) (cs : List Nat) : Nat := cs.foldr (fun c n => c % 2 ^ w + 2 ^ w * n) 0

/-- Pad to a multiple of 128 bytes. -/
def pad128 (bs : List Byte) : List Byte := slice bs 0 ((bs.length + 127) / 128 * 128)

/-- Output elements as bytes, and the number that saturated (R80 to R82, R431). `poison`: every element is
NaN. The padding elements of a short last MX block are not written: the scale bytes follow the last element (DESIGN
CHOICE, log entry 69). -/
def encodeOut (fmt : Nat) (poison : Bool) (ys0 : List Nat) : List Byte × Nat :=
  let ys := if poison then ys0.map (fun _ => nan32) else ys0
  if isMx fmt then
    let bl := blocks32 ys.length ys
    let xs := bl.map (mxScale fmt)
    let cs := (bl.zip xs).flatMap (fun b =>
      let zero := b.1.all (fun y => y % 2 ^ 31 == 0)
      (b.1 ++ List.replicate (32 - b.1.length) 0).map (fun y => if b.2 = 0xFF ∨ zero = true then (0, false) else mxOut fmt b.2 y))
    let used := cs.take ys.length
    (pad128 (leBytes (elemBytes fmt ys.length) (packBits (elemBits fmt) (used.map (fun c => c.1)))
      ++ xs.map (BitVec.ofNat 8)), (used.filter (fun c => c.2)).length)
  else if fmt = 6 then (pad128 (ys.flatMap (fun y => leBytes 2 (rnd16 (dec32 y)))), 0)
  else (pad128 (ys.flatMap (leBytes 4)), 0)

/-! ### Output functions (Table 4.6)

The functions are evaluated in fixed point with 900 fraction bits. For a binary32 input none of the exact
values but 0 lies on a rounding boundary, and the error, below 2^-700, is far below the distance to one. -/

/-- Fraction bits of the fixed point. -/
def fpBits : Nat := 900

/-- Product of two fixed-point numbers. -/
def fxMul (a b : Int) : Int := a * b / (2 ^ fpBits : Nat)

/-- A fixed-point quotient. -/
def fxDiv (a b : Int) : Int := a * (2 ^ fpBits : Nat) / b

/-- Σ t_k with t_(k+1) = t_k × r / (k + 1): the exponential series. -/
def expSum (r : Int) : Nat → Nat → Int → Int → Int
  | 0, _, _, s => s
  | n + 1, k, t, s => let t' := fxMul t r / ((k + 1 : Nat) : Int); expSum r n (k + 1) t' (s + t')

/-- Σ over odd k of x^k / k, with x² given and alternating sign if `alt`: atanh or atan. -/
def oddSum (x2 : Int) (alt : Bool) : Nat → Nat → Int → Int → Int
  | 0, _, _, s => s
  | n + 1, k, p, s =>
    oddSum x2 alt n (k + 2) (if alt then -(fxMul p x2) else fxMul p x2) (s + p / ((k : Nat) : Int))

/-- 1 / n in fixed point. -/
def fxInv (n : Nat) : Int := ((2 ^ fpBits / n : Nat) : Int)

/-- ln 2 = 2 atanh(1/3). -/
def fxLn2 : Int := 2 * oddSum (fxMul (fxInv 3) (fxInv 3)) false 300 1 (fxInv 3) 0

/-- π by Machin's formula. -/
def fxPi : Int :=
  16 * oddSum (fxMul (fxInv 5) (fxInv 5)) true 200 1 (fxInv 5) 0
    - 4 * oddSum (fxMul (fxInv 239) (fxInv 239)) true 60 1 (fxInv 239) 0

/-- Square root of a non-negative fixed-point number. -/
def fxSqrt (x : Int) : Int := ((Nat.sqrt (x.toNat * 2 ^ fpBits) : Nat) : Int)

/-- e^x in fixed point: x = k ln 2 + r. -/
def fxExp (x : Int) : Int :=
  let k := x / fxLn2
  let r := x - k * fxLn2
  let m := expSum r 260 0 (2 ^ fpBits : Nat) (2 ^ fpBits : Nat)
  if 0 ≤ k then m * 2 ^ k.toNat else m / (2 ^ (-k).toNat : Nat)

/-- Σ (-1)^n x^(2n+1) / (n! (2n+1)), the erf series. -/
def erfSum (x2 : Int) : Nat → Nat → Int → Int → Int
  | 0, _, _, s => s
  | f + 1, n, t, s =>
    erfSum x2 f (n + 1) (-(fxMul t x2) / ((n + 1 : Nat) : Int)) (s + t / ((2 * n + 1 : Nat) : Int))

/-- erf(x). -/
def fxErf (x : Int) : Int := fxDiv (2 * erfSum (fxMul x x) 1200 0 x 0) (fxSqrt (fxMul fxPi (2 ^ fpBits : Nat)))

/-- 1 / (1 + e^(-x)). -/
def fxSigmoid (x : Int) : Int := fxDiv (2 ^ fpBits : Nat) ((2 ^ fpBits : Nat) + fxExp (-x))

/-- A finite value in fixed point; binary32 values are exact. -/
def toFixed (neg : Bool) (m : Nat) (e : Int) : Int := sgn neg m * 2 ^ (e + (fpBits : Int)).toNat

/-- Round (sign) × m × 2^e × p, with p a non-negative fixed-point factor. -/
def rndScaled (neg : Bool) (m : Nat) (e : Int) (p : Int) : Nat := rnd32 (.fin neg (m * p.toNat) (e - (fpBits : Int)))

/-- The gate factor of GELU and SiLU: p with F(y) = y × p, for |y| below the bound. -/
def gateFx (func : Nat) (x : Int) : Int :=
  if func = 2 then
    fxSigmoid (2 * fxMul (fxSqrt (fxDiv (2 * (2 ^ fpBits : Nat)) fxPi))
      (x + fxMul (fxMul x (fxMul x x)) (((44715 * 2 ^ fpBits / 1000000 : Nat) : Nat) : Int)))
  else if func = 3 then
    ((2 ^ fpBits : Nat) + fxErf (fxDiv x (fxSqrt (2 * (2 ^ fpBits : Nat))))) / 2
  else fxSigmoid x

/-- F for codes 0x0 to 0x6 on a binary32 code (Table 4.6, R79). A zero input of an odd function or of a
gate keeps its sign. -/
def applyFunc (func y : Nat) : Nat :=
  if isNan32 y then nan32
  else if func = 0 then y
  else if func = 1 then (if hasBit y 31 then 0 else y)
  else match dec32 y with
  | .nan => nan32
  | .inf neg =>
    if func = 5 then (if neg then 0 else 0x3F800000)
    else if func = 6 then (if neg then 0xBF800000 else 0x3F800000)
    else if neg then 0x80000000 else y
  | .fin neg m e =>
    let big (k : Int) : Bool := decide (k ≤ (Nat.log2 m : Int) + e)
    if m = 0 then (if func = 5 then 0x3F000000 else y)
    else if func = 5 then
      if big 7 then (if neg then 0 else 0x3F800000)
      else rndScaled false 1 0 (fxSigmoid (toFixed neg m e))
    else if func = 6 then
      if big 5 then (if neg then 0xBF800000 else 0x3F800000)
      else
        let a := fxExp (2 * toFixed false m e)
        rndScaled neg 1 0 (fxDiv (a - (2 ^ fpBits : Nat)) (a + (2 ^ fpBits : Nat)))
    else if big (if func = 4 then 7 else 4) then (if neg then 0x80000000 else y)
    else rndScaled neg m e (gateFx func (toFixed neg m e))

/-- SwiGLU over lane pairs: rnd32(SiLU(lower) × higher) (Table 4.6). -/
def swiglu : List Nat → List Nat
  | a :: b :: l => mul32 (applyFunc 4 a) b :: swiglu l
  | _ => []

/-- The unit's function on its lane values. -/
def applyUnit (func : Nat) (ys : List Nat) : List Nat :=
  if func = 7 then swiglu ys else ys.map (applyFunc func)

end Sys2Proof.Machine
end

