-- ==== Sys2Proof/Config.lean ====
section
/-! DEFINITION. What the spec leaves open and what it takes from other standards: uninterpreted
constants. Nothing in Lean evaluates them, so a statement holds whatever they are. -/

namespace Sys2Proof.Config

/-- ROM_REV of the mask ROM (R297, "From ROM"). -/
opaque romRev : Word

/-- SHA-256 of a byte string (FIPS 180-4; R408). -/
opaque sha256 : List Byte → BitVec 256

/-- SLH-DSA-SHA2-192s verification: public key, message, signature (FIPS 205; R408). -/
opaque verify192 : List Byte → List Byte → List Byte → Bool

/-- SLH-DSA-SHA2-192s deterministic signature under the map key of a device seed (R415). -/
opaque sign192 : Nat → List Byte → Nat

/-- SLH-DSA-SHA2-128f deterministic signature under the identity key of a device seed (R415). -/
opaque sign128 : Nat → List Byte → Nat

/-- Identity public key of a device seed (Table 19.13). -/
opaque idPub : Nat → BitVec 256

/-- Map public key of a device seed (Table 19.13). -/
opaque mapPub : Nat → BitVec 384

/-- Key-wrapping key of a device seed (Table 19.13). -/
opaque kwk : Nat → BitVec 256

/-- AES-256 key unwrap of NIST SP 800-38F under the key-wrapping key of a device seed: the 80-byte
plaintext as a number, or none where the integrity check fails (R418). -/
opaque unwrap : Nat → List Byte → Option (BitVec 640)

/-- UDP source port of the frames of a queue pair: the die's flow hash of its number, which the spec does not give (Table 11.5). -/
opaque flowHash : Nat → BitVec 16

/-- Cycles from the end of a frame on a port's wire to its last byte in the destination's station buffer, which no image holds
(R146). -/
opaque wireDelay : Nat → Nat

/-- Consuming slot, in the sender's step, of the frame that a departure entry sends: the destination's image gives it (R146). -/
opaque farSlot : Nat → Nat

/-- A free value: what the spec leaves open at the n-th draw. -/
opaque freeNat : Nat → Nat

/-- The four areas of a Nettle store (known rows, staging, adapter, work) that a section 0x0009 gives, as
offset and length; the spec gives the section no layout beyond its descriptors (Table 8.2, R91). -/
opaque storeAreas : List Byte → List (Nat × Nat)

/-- The NETTLE_WEIGHTS blocks that a field serves for a unit index (R103, R157); the spec states no table
that assigns them. -/
opaque nettleBlocks : Nat → Nat → List Nat

/-- UNIT_ID of a field's unit index that no tile of the field drives (R83, R105). -/
opaque laneUnit : Nat → Nat → Nat

/-- Lanes of a unit that spans the quartet on the dies of lower QPOS (R101): what other images hold. -/
opaque colBase : Nat → Nat → Nat

/-- Reciprocal square root of the field vector unit, within 1 ulp, on binary32 codes (R86, by the Spatus software
reference). -/
opaque rsqrt : Nat → BitVec 32

/-- Flits that the fetch of one unknown row takes (R93); the spec gives no number. -/
opaque rowFlits : Nat

/-- SipHash-2-4 under a 128-bit key (R205, R263, R277). -/
opaque sip24 : Nat → List Byte → BitVec 64

/-- −ln(−ln(u)) for u = (k + 0.5) / 2^24, by the functions of the Spatus software reference (R277), as a
binary32 code. -/
opaque gumbel : Nat → BitVec 32

/-- AES-256-XTS of one 1 KiB granule under a key pair and a tweak (R260, IEEE 1619). -/
opaque xtsEnc : Nat → Nat → Nat → List Byte → Nat

/-- The inverse operation (R260). -/
opaque xtsDec : Nat → Nat → Nat → List Byte → Nat

/-- e^x of the attention engines, by the Spatus software reference (R250), on binary32 codes. -/
opaque attExp : Nat → BitVec 32

end Sys2Proof.Config
end

