-- ==== Sys2Proof/Machine/Memory.lean ====
section
/-! DEFINITION. Sparse maps in canonical form: read, write, erase, and the predicate that says the form
holds. Byte memories, register files and every other large table of State use these operations. -/

namespace Sys2Proof.Machine

variable {α : Type}

/-- What key `k` reads as: its entry, or the default of an unlisted key. -/
def sget (d : Nat → α) : Sparse α → Nat → α
  | [], k => d k
  | (a, v) :: m, k => if a = k then v else sget d m k

/-- Remove key `k`. -/
def sdel : Sparse α → Nat → Sparse α
  | [], _ => []
  | (a, v) :: m, k => if a = k then m else if k < a then (a, v) :: m else (a, v) :: sdel m k

/-- Enter `v` at key `k`, keeping the keys rising. -/
def sput : Sparse α → Nat → α → Sparse α
  | [], k, w => [(k, w)]
  | (a, v) :: m, k, w =>
    if a = k then (k, w) :: m else if k < a then (k, w) :: (a, v) :: m else (a, v) :: sput m k w

/-- Write: a value equal to the default removes the entry, so equal contents are equal lists. -/
def sset [DecidableEq α] (d : Nat → α) (m : Sparse α) (k : Nat) (v : α) : Sparse α :=
  if v = d k then sdel m k else sput m k v

/-- Every key of `m` is at least `n`, keys rise strictly, no entry is a default. -/
def swfFrom [DecidableEq α] (d : Nat → α) : Nat → Sparse α → Bool
  | _, [] => true
  | n, (a, v) :: m => decide (n ≤ a) && !decide (v = d a) && swfFrom d (a + 1) m

/-- The canonical form holds. -/
def swf [DecidableEq α] (d : Nat → α) (m : Sparse α) : Bool := swfFrom d 0 m

/-- Drop every key in [lo, hi). -/
def sclear (lo hi : Nat) (m : Sparse α) : Sparse α := m.filter (fun e => !(decide (lo ≤ e.1) && decide (e.1 < hi)))

/-- The default of a memory whose unlisted bytes read 0 (log entry 1). -/
def zeroByte (_ : Nat) : Byte := 0

/-- A byte memory's canonical form. -/
def memWf (m : Sparse Byte) : Bool := swf zeroByte m

/-- Read one byte. -/
def rdByte (m : Sparse Byte) (a : Nat) : Byte := sget zeroByte m a

/-- Write one byte. -/
def wrByte (m : Sparse Byte) (a : Nat) (v : Byte) : Sparse Byte := sset zeroByte m a v

/-- Read `n` bytes from `a` upwards. -/
def rdBytes (m : Sparse Byte) : Nat → Nat → List Byte
  | _, 0 => []
  | a, n + 1 => rdByte m a :: rdBytes m (a + 1) n

/-- Write bytes from `a` upwards. -/
def wrBytes (m : Sparse Byte) : Nat → List Byte → Sparse Byte
  | _, [] => m
  | a, b :: bs => wrBytes (wrByte m a b) (a + 1) bs

end Sys2Proof.Machine
end

