-- ==== Sys2Proof/Machine/RegMap.lean ====
section
/-! DEFINITION. The register map: every register of the CSR blocks of Table 16.1, its fields, their
access codes (Table 0.5, with `cfg` for the configuration fields and `en` for the enable bits of Table
16.3) and its reset value, transcribed from the register tables of the spec. -/

namespace Sys2Proof.Machine

/-- Access codes of Table 0.5 (R6); `cfg` and `en` are the RW fields that Table 16.3 names as
configuration fields and enable bits; `rcMin` is an RC field that holds a lowest value (R6). -/
inductive Acc where
  | ro | rw | wo | w1c | rc | rcMin | rws | cfg | en
  deriving DecidableEq, Repr

/-- One field of a register: bits [hi:lo] and its access code. -/
structure FieldSpec where
  hi  : Nat
  lo  : Nat
  acc : Acc
  deriving DecidableEq, Repr

/-- A register, or an array of `count` registers `stride` bytes apart, at block offset `off`. -/
structure RegSpec where
  off    : Nat
  count  : Nat
  stride : Nat
  reset  : Nat
  fields : List FieldSpec
  deriving DecidableEq, Repr

/-- Registers of the die block (Tables 0.3, 16.6). -/
def dieRegs : List RegSpec := [
  ⟨0x0, 1, 4, 0xB50A100, [⟨31, 20, .ro⟩, ⟨19, 8, .ro⟩, ⟨7, 4, .ro⟩, ⟨3, 0, .ro⟩]⟩,
  ⟨0x4, 1, 4, 0x3FF0000, [⟨25, 16, .ro⟩, ⟨8, 8, .rws⟩, ⟨7, 7, .rws⟩, ⟨6, 6, .ro⟩, ⟨5, 5, .rws⟩, ⟨4, 4, .rws⟩, ⟨3, 3, .ro⟩, ⟨2, 2, .ro⟩, ⟨1, 1, .ro⟩, ⟨0, 0, .ro⟩]⟩,
  ⟨0x8, 1, 4, 0x0, [⟨31, 0, .ro⟩]⟩,
  ⟨0xC, 1, 4, 0x0, [⟨31, 0, .ro⟩]⟩,
  ⟨0x10, 1, 4, 0x0, [⟨31, 0, .ro⟩]⟩,
  ⟨0x14, 1, 4, 0x0, [⟨25, 0, .ro⟩]⟩,
  ⟨0x18, 1, 4, 0x0, [⟨25, 0, .ro⟩]⟩,
  ⟨0x1C, 1, 4, 0x0, [⟨31, 0, .ro⟩]⟩,
  ⟨0x20, 1, 4, 0x0, [⟨31, 31, .ro⟩, ⟨30, 29, .ro⟩, ⟨13, 0, .ro⟩]⟩,
  ⟨0x24, 1, 4, 0x0, [⟨31, 16, .rc⟩, ⟨15, 0, .rc⟩]⟩,
  ⟨0x28, 1, 4, 0x0, [⟨31, 0, .rc⟩]⟩,
  ⟨0x30, 1, 4, 0x0, [⟨31, 0, .en⟩]⟩,
  ⟨0x34, 1, 4, 0x0, [⟨31, 0, .en⟩]⟩,
  ⟨0x38, 1, 4, 0x0, [⟨3, 3, .en⟩, ⟨2, 2, .en⟩, ⟨1, 1, .en⟩, ⟨0, 0, .en⟩]⟩,
  ⟨0x1000, 128, 4, 0x0, [⟨31, 0, .ro⟩]⟩,
  ⟨0x1200, 128, 4, 0x0, [⟨31, 0, .ro⟩]⟩]

/-- Registers of the control core block (Table 14.1). -/
def coreRegs : List RegSpec := [
  ⟨0x0, 1, 4, 0x0, [⟨31, 16, .ro⟩, ⟨15, 0, .ro⟩]⟩,
  ⟨0x4, 1, 4, 0x0, [⟨31, 0, .ro⟩]⟩,
  ⟨0x8, 1, 4, 0x1, [⟨15, 0, .ro⟩]⟩,
  ⟨0xC, 1, 4, 0x0, [⟨31, 0, .ro⟩]⟩,
  ⟨0x10, 1, 4, 0x1, [⟨23, 16, .ro⟩, ⟨5, 5, .ro⟩, ⟨4, 4, .ro⟩, ⟨3, 0, .ro⟩]⟩,
  ⟨0x14, 1, 4, 0x0, [⟨13, 13, .w1c⟩, ⟨12, 12, .w1c⟩, ⟨11, 11, .w1c⟩, ⟨10, 10, .w1c⟩, ⟨9, 9, .w1c⟩, ⟨8, 8, .w1c⟩, ⟨6, 0, .w1c⟩]⟩,
  ⟨0x18, 1, 4, 0x3F7F, [⟨13, 8, .rw⟩, ⟨6, 0, .rw⟩]⟩]

/-- Registers of the Dandelion block (Table 7.11). -/
def ddlRegs : List RegSpec := [
  ⟨0x0, 1, 4, 0x0, [⟨11, 11, .cfg⟩, ⟨9, 8, .cfg⟩, ⟨6, 0, .cfg⟩]⟩,
  ⟨0x4, 1, 4, 0x0, [⟨19, 19, .ro⟩, ⟨18, 18, .ro⟩, ⟨17, 17, .ro⟩, ⟨16, 16, .ro⟩, ⟨15, 8, .ro⟩, ⟨6, 4, .ro⟩, ⟨2, 0, .ro⟩]⟩,
  ⟨0x8, 1, 4, 0x0, [⟨31, 0, .ro⟩]⟩,
  ⟨0xC, 1, 4, 0x0, [⟨31, 0, .ro⟩]⟩,
  ⟨0x10, 1, 4, 0x0, [⟨15, 0, .ro⟩]⟩,
  ⟨0x14, 1, 4, 0x0, [⟨31, 6, .ro⟩, ⟨5, 0, .ro⟩]⟩,
  ⟨0x18, 1, 4, 0x0, [⟨31, 16, .ro⟩, ⟨15, 8, .ro⟩]⟩,
  ⟨0x1C, 1, 4, 0x0, [⟨31, 16, .rc⟩, ⟨15, 0, .rc⟩]⟩,
  ⟨0x20, 1, 4, 0x7FFF, [⟨31, 24, .rc⟩, ⟨23, 16, .rc⟩, ⟨14, 0, .ro⟩]⟩,
  ⟨0x24, 1, 4, 0x0, [⟨31, 16, .rc⟩, ⟨15, 0, .rc⟩]⟩,
  ⟨0x40, 8, 4, 0x0, [⟨15, 0, .cfg⟩]⟩,
  ⟨0x60, 12, 4, 0x0, [⟨31, 31, .ro⟩, ⟨30, 30, .cfg⟩, ⟨23, 16, .rc⟩, ⟨15, 8, .rc⟩, ⟨7, 0, .rc⟩]⟩]

/-- Registers of the schedule block (Table 8.12). -/
def schedRegs : List RegSpec := [
  ⟨0x0, 1, 4, 0x0, [⟨1, 1, .ro⟩, ⟨0, 0, .ro⟩]⟩,
  ⟨0x4, 1, 4, 0x0, [⟨31, 0, .ro⟩]⟩,
  ⟨0x8, 1, 4, 0x0, [⟨20, 0, .ro⟩]⟩,
  ⟨0xC, 1, 4, 0x0, [⟨31, 16, .rc⟩, ⟨15, 0, .rc⟩]⟩,
  ⟨0x40, 12, 4, 0x0, [⟨31, 24, .rc⟩, ⟨23, 16, .rc⟩, ⟨15, 8, .rc⟩]⟩]

/-- Registers of the fabric block (Table 10.12). -/
def fabRegs : List RegSpec := [
  ⟨0x0, 1, 4, 0x200, [⟨16, 16, .en⟩, ⟨15, 0, .cfg⟩]⟩,
  ⟨0x4, 1, 4, 0x0, [⟨31, 16, .rc⟩, ⟨15, 0, .rc⟩]⟩,
  ⟨0x8, 1, 4, 0x0, [⟨31, 16, .rc⟩, ⟨15, 0, .rc⟩]⟩,
  ⟨0xC, 1, 4, 0x0, [⟨31, 16, .rc⟩, ⟨15, 0, .rc⟩]⟩,
  ⟨0x10, 1, 4, 0x0, [⟨31, 16, .rc⟩, ⟨15, 0, .rc⟩]⟩,
  ⟨0x14, 1, 4, 0x0, [⟨31, 0, .rc⟩]⟩,
  ⟨0x18, 1, 4, 0x0, [⟨10, 0, .ro⟩]⟩,
  ⟨0x1C, 1, 4, 0x0, [⟨15, 0, .ro⟩]⟩,
  ⟨0x80, 16, 8, 0x0, [⟨31, 26, .ro⟩, ⟨25, 0, .ro⟩]⟩,
  ⟨0x84, 16, 8, 0x0, [⟨31, 26, .ro⟩, ⟨25, 0, .ro⟩]⟩]

/-- Registers of the shard block (Table 11.10). -/
def shardRegs : List RegSpec := [
  ⟨0x0, 1, 4, 0x0, [⟨9, 9, .ro⟩, ⟨8, 8, .ro⟩, ⟨7, 7, .ro⟩, ⟨6, 4, .ro⟩, ⟨2, 2, .ro⟩, ⟨1, 1, .ro⟩, ⟨0, 0, .ro⟩]⟩,
  ⟨0x4, 1, 4, 0x0, [⟨31, 0, .ro⟩]⟩,
  ⟨0x8, 1, 4, 0x0, [⟨31, 0, .ro⟩]⟩,
  ⟨0xC, 1, 4, 0x0, [⟨31, 0, .ro⟩]⟩,
  ⟨0x10, 1, 4, 0x0, [⟨20, 0, .ro⟩]⟩,
  ⟨0x14, 1, 4, 0x0, [⟨31, 24, .rc⟩, ⟨23, 16, .rc⟩, ⟨15, 8, .rc⟩]⟩,
  ⟨0x18, 1, 4, 0x0, [⟨31, 16, .rc⟩, ⟨15, 0, .rc⟩]⟩,
  ⟨0x1C, 1, 4, 0x0, [⟨31, 0, .ro⟩]⟩,
  ⟨0x20, 1, 4, 0x0, [⟨31, 16, .ro⟩, ⟨15, 8, .ro⟩, ⟨7, 0, .rc⟩]⟩,
  ⟨0x24, 1, 4, 0x0, [⟨31, 31, .ro⟩, ⟨15, 15, .ro⟩, ⟨12, 0, .ro⟩]⟩]

/-- Registers of the sequence block (Table 13.11). -/
def seqRegs : List RegSpec := [
  ⟨0x0, 1, 4, 0xD0020, [⟨19, 16, .cfg⟩, ⟨5, 4, .cfg⟩, ⟨0, 0, .en⟩]⟩,
  ⟨0x4, 1, 4, 0x0, [⟨31, 0, .cfg⟩]⟩,
  ⟨0x8, 1, 4, 0x0, [⟨29, 0, .cfg⟩]⟩,
  ⟨0xC, 1, 4, 0x0, [⟨29, 0, .cfg⟩]⟩,
  ⟨0x10, 1, 4, 0x0, [⟨15, 0, .cfg⟩]⟩,
  ⟨0x14, 1, 4, 0x0, [⟨20, 0, .cfg⟩]⟩,
  ⟨0x18, 1, 4, 0x0, [⟨31, 0, .cfg⟩]⟩,
  ⟨0x1C, 1, 4, 0x0, [⟨31, 0, .ro⟩]⟩,
  ⟨0x20, 1, 4, 0x0, [⟨31, 16, .ro⟩, ⟨15, 0, .ro⟩]⟩,
  ⟨0x24, 1, 4, 0x0, [⟨31, 16, .rc⟩, ⟨15, 0, .rc⟩]⟩,
  ⟨0x28, 1, 4, 0x0, [⟨31, 16, .rc⟩, ⟨15, 0, .rc⟩]⟩,
  ⟨0x2C, 1, 4, 0x0, [⟨31, 16, .rc⟩, ⟨15, 0, .rc⟩]⟩,
  ⟨0x30, 1, 4, 0x0, [⟨31, 0, .rc⟩]⟩,
  ⟨0x34, 1, 4, 0x0, [⟨15, 0, .rc⟩]⟩]

/-- Registers of a side block (Table 12.12). -/
def sideRegs : List RegSpec := [
  ⟨0x0, 1, 4, 0xE, [⟨3, 3, .cfg⟩, ⟨2, 1, .cfg⟩, ⟨0, 0, .en⟩]⟩,
  ⟨0x4, 1, 4, 0x0, [⟨1, 1, .ro⟩, ⟨0, 0, .ro⟩]⟩,
  ⟨0x8, 1, 4, 0x0, [⟨28, 16, .ro⟩, ⟨12, 0, .ro⟩]⟩,
  ⟨0xC, 1, 4, 0x0, [⟨12, 0, .ro⟩]⟩,
  ⟨0x10, 1, 4, 0x0, [⟨31, 16, .ro⟩, ⟨5, 0, .ro⟩]⟩,
  ⟨0x14, 1, 4, 0x0, [⟨31, 0, .rc⟩]⟩,
  ⟨0x18, 1, 4, 0x0, [⟨31, 0, .rc⟩]⟩,
  ⟨0x1C, 1, 4, 0x0, [⟨31, 0, .rc⟩]⟩,
  ⟨0x20, 1, 4, 0x0, [⟨31, 16, .rc⟩, ⟨15, 0, .rc⟩]⟩,
  ⟨0x24, 1, 4, 0x0, [⟨31, 16, .rc⟩, ⟨15, 0, .rc⟩]⟩]

/-- Registers of the power block (Table 17.10). -/
def powerRegs : List RegSpec := [
  ⟨0x0, 1, 4, 0x21401, [⟨19, 16, .cfg⟩, ⟨15, 8, .cfg⟩, ⟨0, 0, .cfg⟩]⟩,
  ⟨0x4, 1, 4, 0x0, [⟨30, 24, .cfg⟩, ⟨22, 16, .cfg⟩, ⟨14, 8, .cfg⟩, ⟨6, 0, .cfg⟩]⟩,
  ⟨0x8, 1, 4, 0x0, [⟨30, 24, .cfg⟩, ⟨22, 16, .cfg⟩, ⟨14, 8, .cfg⟩, ⟨6, 0, .cfg⟩]⟩,
  ⟨0x10, 1, 4, 0x0, [⟨12, 12, .ro⟩, ⟨11, 11, .ro⟩, ⟨10, 10, .ro⟩, ⟨9, 9, .ro⟩, ⟨8, 8, .ro⟩, ⟨5, 0, .ro⟩]⟩,
  ⟨0x14, 1, 4, 0x30C, [⟨9, 0, .ro⟩]⟩,
  ⟨0x18, 1, 4, 0x0, [⟨31, 16, .ro⟩, ⟨15, 0, .ro⟩]⟩,
  ⟨0x1C, 1, 4, 0x0, [⟨5, 0, .ro⟩]⟩,
  ⟨0x20, 1, 4, 0x0, [⟨31, 0, .ro⟩]⟩,
  ⟨0x24, 1, 4, 0x0, [⟨31, 0, .ro⟩]⟩,
  ⟨0x28, 1, 4, 0xF000, [⟨15, 0, .ro⟩]⟩,
  ⟨0x30, 1, 4, 0x0, [⟨31, 16, .rc⟩, ⟨15, 0, .rc⟩]⟩,
  ⟨0x40, 8, 4, 0x0, [⟨31, 20, .ro⟩, ⟨19, 19, .ro⟩, ⟨18, 18, .ro⟩, ⟨9, 0, .ro⟩]⟩]

/-- Registers of the sensor block (Table 17.11). -/
def sensRegs : List RegSpec := [
  ⟨0x0, 1, 4, 0x0, [⟨15, 0, .cfg⟩]⟩,
  ⟨0x4, 1, 4, 0x0, [⟨31, 31, .ro⟩, ⟨26, 24, .ro⟩, ⟨21, 16, .ro⟩, ⟨15, 0, .ro⟩]⟩,
  ⟨0x8, 1, 4, 0x30, [⟨9, 9, .ro⟩, ⟨8, 8, .ro⟩, ⟨7, 7, .ro⟩, ⟨5, 0, .ro⟩]⟩,
  ⟨0xC, 1, 4, 0xFFFF0000, [⟨31, 16, .rcMin⟩, ⟨15, 0, .ro⟩]⟩,
  ⟨0x10, 1, 4, 0x0, [⟨31, 24, .rc⟩, ⟨23, 16, .rc⟩, ⟨15, 8, .rc⟩, ⟨7, 0, .rc⟩]⟩,
  ⟨0x100, 48, 4, 0x0, [⟨31, 31, .ro⟩, ⟨30, 30, .ro⟩, ⟨15, 0, .ro⟩]⟩]

/-- Registers of the fault block (Table 18.10). -/
def faultRegs : List RegSpec := [
  ⟨0x0, 1, 4, 0x1801, [⟨15, 8, .cfg⟩, ⟨0, 0, .cfg⟩]⟩,
  ⟨0x4, 1, 4, 0x0, [⟨31, 0, .cfg⟩]⟩,
  ⟨0x8, 1, 4, 0x0, [⟨13, 0, .cfg⟩]⟩,
  ⟨0xC, 1, 4, 0x0, [⟨5, 0, .ro⟩]⟩,
  ⟨0x10, 1, 4, 0x0, [⟨31, 0, .ro⟩]⟩,
  ⟨0x14, 1, 4, 0x0, [⟨31, 0, .rc⟩]⟩,
  ⟨0x18, 1, 4, 0x0, [⟨31, 16, .rc⟩, ⟨15, 0, .rc⟩]⟩,
  ⟨0x1C, 1, 4, 0x0, [⟨31, 16, .rc⟩, ⟨15, 0, .rc⟩]⟩,
  ⟨0x20, 1, 4, 0x0, [⟨31, 24, .rc⟩, ⟨23, 16, .rc⟩, ⟨15, 0, .rc⟩]⟩,
  ⟨0x24, 1, 4, 0x0, [⟨31, 0, .rc⟩]⟩,
  ⟨0x28, 1, 4, 0x0, [⟨31, 0, .ro⟩]⟩,
  ⟨0x2C, 1, 4, 0x0, [⟨15, 0, .ro⟩]⟩,
  ⟨0x30, 1, 4, 0x0, [⟨31, 0, .ro⟩]⟩,
  ⟨0x34, 1, 4, 0x0, [⟨2, 0, .ro⟩]⟩,
  ⟨0x200, 114, 4, 0x1, [⟨31, 31, .ro⟩, ⟨30, 28, .ro⟩, ⟨15, 0, .ro⟩]⟩]

/-- Registers of the security block (Table 19.15). -/
def secRegs : List RegSpec := [
  ⟨0x0, 1, 4, 0x0, [⟨21, 21, .ro⟩, ⟨20, 20, .ro⟩, ⟨19, 7, .ro⟩, ⟨6, 6, .ro⟩, ⟨5, 2, .ro⟩, ⟨1, 1, .ro⟩, ⟨0, 0, .ro⟩]⟩,
  ⟨0x4, 1, 4, 0x0, [⟨31, 24, .rc⟩, ⟨23, 16, .rc⟩, ⟨15, 0, .rc⟩]⟩,
  ⟨0x8, 1, 4, 0x0, [⟨2, 2, .ro⟩, ⟨1, 0, .ro⟩]⟩,
  ⟨0xC, 1, 4, 0x0, [⟨31, 0, .ro⟩]⟩]

/-- Registers of a link block (Table 9.7). -/
def linkRegs : List RegSpec := [
  ⟨0x0, 1, 4, 0x10F0, [⟨15, 12, .cfg⟩, ⟨9, 8, .cfg⟩, ⟨7, 4, .cfg⟩, ⟨1, 1, .cfg⟩, ⟨0, 0, .en⟩]⟩,
  ⟨0x4, 1, 4, 0x0, [⟨31, 28, .ro⟩, ⟨27, 27, .ro⟩, ⟨23, 20, .ro⟩, ⟨19, 16, .ro⟩, ⟨15, 12, .ro⟩, ⟨2, 0, .ro⟩]⟩,
  ⟨0x8, 1, 4, 0x0, [⟨31, 24, .ro⟩, ⟨17, 0, .ro⟩]⟩,
  ⟨0xC, 1, 4, 0x0, [⟨31, 0, .ro⟩]⟩,
  ⟨0x10, 1, 4, 0x0, [⟨31, 0, .ro⟩]⟩,
  ⟨0x14, 1, 4, 0x0, [⟨15, 0, .ro⟩]⟩,
  ⟨0x18, 1, 4, 0x0, [⟨31, 0, .rc⟩]⟩,
  ⟨0x1C, 1, 4, 0x0, [⟨31, 0, .rc⟩]⟩,
  ⟨0x20, 1, 4, 0x0, [⟨31, 24, .rc⟩, ⟨23, 16, .rc⟩, ⟨15, 8, .rc⟩, ⟨7, 0, .rc⟩]⟩,
  ⟨0x24, 1, 4, 0x0, [⟨31, 0, .rc⟩]⟩,
  ⟨0x30, 4, 4, 0x0, [⟨31, 31, .ro⟩, ⟨30, 30, .ro⟩, ⟨23, 16, .ro⟩, ⟨15, 0, .ro⟩]⟩]

/-- Registers of a field block (Tables 2.2, 3.8, 4.8, 5.4 to 5.6, 6.7, 6.8, 8.11, 11.11, R375). -/
def fieldRegs : List RegSpec := [
  ⟨0x100, 1, 4, 0x1, [⟨31, 16, .rc⟩, ⟨2, 2, .rws⟩, ⟨1, 1, .ro⟩, ⟨0, 0, .ro⟩]⟩,
  ⟨0x200, 1, 4, 0x2000A, [⟨19, 16, .cfg⟩, ⟨15, 0, .cfg⟩]⟩,
  ⟨0x210, 1, 4, 0x0, [⟨31, 0, .rc⟩]⟩,
  ⟨0x214, 1, 4, 0x0, [⟨31, 0, .rc⟩]⟩,
  ⟨0x218, 1, 4, 0x0, [⟨31, 0, .rc⟩]⟩,
  ⟨0x220, 1, 4, 0x0, [⟨31, 0, .rc⟩]⟩,
  ⟨0x224, 1, 4, 0x0, [⟨31, 0, .rc⟩]⟩,
  ⟨0x228, 1, 4, 0x0, [⟨31, 0, .rc⟩]⟩,
  ⟨0x22C, 1, 4, 0x0, [⟨31, 0, .rc⟩]⟩,
  ⟨0x230, 1, 4, 0x0, [⟨31, 0, .rc⟩]⟩,
  ⟨0x234, 1, 4, 0x0, [⟨31, 0, .rc⟩]⟩,
  ⟨0x238, 1, 4, 0x0, [⟨31, 0, .rc⟩]⟩,
  ⟨0x240, 1, 4, 0x145003C, [⟨27, 20, .cfg⟩, ⟨19, 16, .cfg⟩, ⟨15, 0, .cfg⟩]⟩,
  ⟨0x244, 1, 4, 0x0, [⟨31, 0, .rc⟩]⟩,
  ⟨0x248, 1, 4, 0x0, [⟨31, 0, .rc⟩]⟩,
  ⟨0x24C, 1, 4, 0x0, [⟨31, 0, .rc⟩]⟩,
  ⟨0x250, 1, 4, 0x0, [⟨31, 0, .rc⟩]⟩,
  ⟨0x254, 1, 4, 0x0, [⟨2, 2, .ro⟩, ⟨1, 0, .ro⟩]⟩,
  ⟨0x260, 1, 4, 0x0, [⟨12, 12, .ro⟩, ⟨11, 11, .ro⟩, ⟨10, 8, .ro⟩, ⟨5, 0, .ro⟩]⟩,
  ⟨0x264, 1, 4, 0x0, [⟨31, 0, .rc⟩]⟩,
  ⟨0x268, 1, 4, 0x0, [⟨31, 0, .rc⟩]⟩,
  ⟨0x26C, 1, 4, 0x0, [⟨31, 0, .rc⟩]⟩,
  ⟨0x270, 1, 4, 0x0, [⟨31, 0, .rc⟩]⟩,
  ⟨0x6000, 128, 4, 0x0, [⟨31, 0, .w1c⟩]⟩,
  ⟨0x6200, 64, 4, 0x0, [⟨28, 18, .ro⟩, ⟨16, 12, .ro⟩, ⟨11, 0, .ro⟩]⟩,
  ⟨0x6400, 128, 4, 0x0, [⟨31, 0, .ro⟩]⟩]

/-- Registers of a tile window (Tables 3.9 to 3.14, 6.9, 6.10). -/
def tileRegs : List RegSpec := [
  ⟨0x0, 1, 4, 0x402, [⟨12, 12, .cfg⟩, ⟨10, 8, .cfg⟩, ⟨6, 4, .cfg⟩, ⟨2, 0, .cfg⟩]⟩,
  ⟨0x4, 1, 4, 0x2, [⟨12, 12, .ro⟩, ⟨11, 11, .ro⟩, ⟨10, 10, .ro⟩, ⟨9, 8, .ro⟩, ⟨7, 4, .ro⟩, ⟨2, 0, .ro⟩]⟩,
  ⟨0x8, 1, 4, 0x0, [⟨31, 0, .rc⟩]⟩,
  ⟨0xC, 1, 4, 0x0, [⟨31, 0, .rc⟩]⟩,
  ⟨0x10, 1, 4, 0x0, [⟨31, 0, .rc⟩]⟩,
  ⟨0x14, 1, 4, 0x0, [⟨31, 0, .rc⟩]⟩,
  ⟨0x18, 1, 4, 0x0, [⟨31, 16, .rc⟩, ⟨15, 0, .rc⟩]⟩,
  ⟨0x1C, 1, 4, 0x0, [⟨31, 0, .rc⟩]⟩,
  ⟨0x20, 1, 4, 0x0, [⟨31, 16, .ro⟩, ⟨15, 0, .ro⟩]⟩,
  ⟨0x24, 4, 4, 0x0, [⟨31, 31, .ro⟩, ⟨30, 30, .ro⟩, ⟨24, 16, .ro⟩, ⟨15, 15, .ro⟩, ⟨14, 14, .ro⟩, ⟨8, 0, .ro⟩]⟩,
  ⟨0x34, 1, 4, 0x0, [⟨31, 31, .ro⟩, ⟨30, 30, .ro⟩, ⟨21, 16, .ro⟩, ⟨15, 15, .ro⟩, ⟨14, 14, .ro⟩, ⟨5, 0, .ro⟩]⟩,
  ⟨0x38, 1, 4, 0x0, [⟨31, 31, .ro⟩, ⟨26, 0, .ro⟩]⟩,
  ⟨0x3C, 1, 4, 0x0, [⟨31, 31, .ro⟩, ⟨30, 30, .ro⟩, ⟨29, 29, .ro⟩, ⟨28, 28, .ro⟩, ⟨21, 0, .ro⟩]⟩]

end Sys2Proof.Machine
end

