-- ==== Sys2Proof/Machine/RegNames.lean ====
section
/-! DEFINITION. Names of the register fields, from the same tables: a field is its register's CSR
offset (Table 16.1 base plus block offset), its lowest bit and its width. -/

namespace Sys2Proof.Machine

/-- A register field: CSR offset of the register, lowest bit, number of bits. -/
structure Fld where
  reg : Nat
  lo  : Nat
  n   : Nat
  deriving DecidableEq, Repr

/-- Base of link block `n` (Table 16.1). -/
def linkBase (n : Nat) : Nat := 0x100000 + 0x10000 * n

/-- Base of field block `f` (Table 16.1). -/
def fieldBase (f : Nat) : Nat := 0x400000 + 0x10000 * f

/-- Field index of tile `t` (R7). -/
def tileField (t : Nat) : Nat := (t / 128 / 8) * 8 + (t % 128) / 16

/-- Local index of tile `t` in its field (R7, R58). -/
def tileLocal (t : Nat) : Nat := (t / 128 % 8) * 16 + t % 16

/-- Window of tile `t` (R58). -/
def tileBase (t : Nat) : Nat := fieldBase (tileField t) + 0x4000 + 0x40 * tileLocal t

namespace Reg

def romRev_major : Fld := ⟨0x10000, 16, 16⟩
def romRev_minor : Fld := ⟨0x10000, 0, 16⟩
def patchLevel_level : Fld := ⟨0x10004, 0, 32⟩
def cmdset_version : Fld := ⟨0x10008, 0, 16⟩
def heartbeat_count : Fld := ⟨0x1000C, 0, 32⟩
def coreStatus_jobsActive : Fld := ⟨0x10010, 16, 8⟩
def coreStatus_patchReject : Fld := ⟨0x10010, 5, 1⟩
def coreStatus_throttle : Fld := ⟨0x10010, 4, 1⟩
def coreStatus_dieState : Fld := ⟨0x10010, 0, 4⟩
def intStatus_dieState : Fld := ⟨0x10014, 13, 1⟩
def intStatus_link : Fld := ⟨0x10014, 12, 1⟩
def intStatus_configIntegrity : Fld := ⟨0x10014, 11, 1⟩
def intStatus_thermal : Fld := ⟨0x10014, 10, 1⟩
def intStatus_fault : Fld := ⟨0x10014, 9, 1⟩
def intStatus_jobDone : Fld := ⟨0x10014, 8, 1⟩
def intStatus_mbxResp : Fld := ⟨0x10014, 0, 7⟩
def intMask_mask : Fld := ⟨0x10018, 0, 32⟩
def ddlCfg_gmSource : Fld := ⟨0x30000, 11, 1⟩
def ddlCfg_timeRole : Fld := ⟨0x30000, 8, 2⟩
def ddlCfg_domain : Fld := ⟨0x30000, 0, 7⟩
def ddlStatus_acqSlow : Fld := ⟨0x30004, 19, 1⟩
def ddlStatus_extLost : Fld := ⟨0x30004, 18, 1⟩
def ddlStatus_parentHold : Fld := ⟨0x30004, 17, 1⟩
def ddlStatus_recovLock : Fld := ⟨0x30004, 16, 1⟩
def ddlStatus_altValid : Fld := ⟨0x30004, 8, 8⟩
def ddlStatus_timePort : Fld := ⟨0x30004, 4, 3⟩
def ddlStatus_timeState : Fld := ⟨0x30004, 0, 3⟩
def ftNsLo_nsLo : Fld := ⟨0x30008, 0, 32⟩
def ftNsHi_nsHi : Fld := ⟨0x3000C, 0, 32⟩
def ftFrac_frac : Fld := ⟨0x30010, 0, 16⟩
def gridNow_beat : Fld := ⟨0x30014, 6, 26⟩
def gridNow_slot : Fld := ⟨0x30014, 0, 6⟩
def phase_lastOffset : Fld := ⟨0x30018, 16, 16⟩
def phase_phi : Fld := ⟨0x30018, 8, 8⟩
def slipCnt_removed : Fld := ⟨0x3001C, 16, 16⟩
def slipCnt_inserted : Fld := ⟨0x3001C, 0, 16⟩
def holdStat_lostCnt : Fld := ⟨0x30020, 24, 8⟩
def holdStat_holdCnt : Fld := ⟨0x30020, 16, 8⟩
def holdStat_holdLeft : Fld := ⟨0x30020, 0, 15⟩
def ptpDiscardCnt_switchCnt : Fld := ⟨0x30024, 16, 16⟩
def ptpDiscardCnt_discards : Fld := ⟨0x30024, 0, 16⟩
def portAsym_asym (n : Nat) : Fld := ⟨0x30040 + 4 * n, 0, 16⟩
def linkBeat_outOfStep (n : Nat) : Fld := ⟨0x30060 + 4 * n, 31, 1⟩
def linkBeat_exempt (n : Nat) : Fld := ⟨0x30060 + 4 * n, 30, 1⟩
def linkBeat_unsentCnt (n : Nat) : Fld := ⟨0x30060 + 4 * n, 16, 8⟩
def linkBeat_frameMismatch (n : Nat) : Fld := ⟨0x30060 + 4 * n, 8, 8⟩
def linkBeat_ackLate (n : Nat) : Fld := ⟨0x30060 + 4 * n, 0, 8⟩
def dieIdent_vendor : Fld := ⟨0x0, 20, 12⟩
def dieIdent_part : Fld := ⟨0x0, 8, 12⟩
def dieIdent_stepLetter : Fld := ⟨0x0, 4, 4⟩
def dieIdent_stepDigit : Fld := ⟨0x0, 0, 4⟩
def spwStatus_integBlock : Fld := ⟨0x4, 16, 10⟩
def spwStatus_busErr : Fld := ⟨0x4, 8, 1⟩
def spwStatus_integSeen : Fld := ⟨0x4, 7, 1⟩
def spwStatus_agreeFail : Fld := ⟨0x4, 6, 1⟩
def spwStatus_enRefused : Fld := ⟨0x4, 5, 1⟩
def spwStatus_wrBlocked : Fld := ⟨0x4, 4, 1⟩
def spwStatus_refValid : Fld := ⟨0x4, 3, 1⟩
def spwStatus_clean : Fld := ⟨0x4, 2, 1⟩
def spwStatus_match : Fld := ⟨0x4, 1, 1⟩
def spwStatus_passDone : Fld := ⟨0x4, 0, 1⟩
def cfgCrcRef_ref : Fld := ⟨0x8, 0, 32⟩
def cfgCrcLast_last : Fld := ⟨0xC, 0, 32⟩
def spwPassCnt_passes : Fld := ⟨0x10, 0, 32⟩
def cfgWweAddr_offset : Fld := ⟨0x14, 0, 26⟩
def cfgEnrAddr_offset : Fld := ⟨0x18, 0, 26⟩
def busErrLo_addrLo : Fld := ⟨0x1C, 0, 32⟩
def busErrHi_write : Fld := ⟨0x20, 31, 1⟩
def busErrHi_source : Fld := ⟨0x20, 29, 2⟩
def busErrHi_addrHi : Fld := ⟨0x20, 0, 14⟩
def cfgEventCnt_wrBlocked : Fld := ⟨0x24, 16, 16⟩
def cfgEventCnt_enRefused : Fld := ⟨0x24, 0, 16⟩
def busErrCnt_busErrors : Fld := ⟨0x28, 0, 32⟩
def fieldEnLo_en : Fld := ⟨0x30, 0, 32⟩
def fieldEnHi_en : Fld := ⟨0x34, 0, 32⟩
def blockEnMisc_fault : Fld := ⟨0x38, 3, 1⟩
def blockEnMisc_sensor : Fld := ⟨0x38, 2, 1⟩
def blockEnMisc_power : Fld := ⟨0x38, 1, 1⟩
def blockEnMisc_ddl : Fld := ⟨0x38, 0, 1⟩
def cfgBlkRef_ref (n : Nat) : Fld := ⟨0x1000 + 4 * n, 0, 32⟩
def cfgBlkLast_last (n : Nat) : Fld := ⟨0x1200 + 4 * n, 0, 32⟩
def fabCfg_en : Fld := ⟨0x50000, 16, 1⟩
def fabCfg_reqTimeout : Fld := ⟨0x50000, 0, 16⟩
def fabRxCnt_rxDrop : Fld := ⟨0x50004, 16, 16⟩
def fabRxCnt_rxBad : Fld := ⟨0x50004, 0, 16⟩
def fabRouteCnt_misroute : Fld := ⟨0x50008, 16, 16⟩
def fabRouteCnt_ttlExpire : Fld := ⟨0x50008, 0, 16⟩
def fabReqCnt_lateApply : Fld := ⟨0x5000C, 16, 16⟩
def fabReqCnt_timeout : Fld := ⟨0x5000C, 0, 16⟩
def fabDenyCnt_crossHalf : Fld := ⟨0x50010, 16, 16⟩
def fabDenyCnt_denied : Fld := ⟨0x50010, 0, 16⟩
def transitCnt_transit : Fld := ⟨0x50014, 0, 32⟩
def fabOutstanding_outstanding : Fld := ⟨0x50018, 0, 11⟩
def protValid_valid : Fld := ⟨0x5001C, 0, 16⟩
def protBase_baseHi (n : Nat) : Fld := ⟨0x50080 + 8 * n, 26, 6⟩
def protBase_base (n : Nat) : Fld := ⟨0x50080 + 8 * n, 0, 26⟩
def protLimit_limitHi (n : Nat) : Fld := ⟨0x50084 + 8 * n, 26, 6⟩
def protLimit_limit (n : Nat) : Fld := ⟨0x50084 + 8 * n, 0, 26⟩
def faultCfg_scrubHours : Fld := ⟨0xC0000, 8, 8⟩
def faultCfg_scrubEn : Fld := ⟨0xC0000, 0, 1⟩
def rackHealthLo_baseLo : Fld := ⟨0xC0004, 0, 32⟩
def rackHealthHi_baseHi : Fld := ⟨0xC0008, 0, 14⟩
def faultLogStat_valid : Fld := ⟨0xC000C, 0, 6⟩
def faultTotal_total : Fld := ⟨0xC0010, 0, 32⟩
def faultLost_lost : Fld := ⟨0xC0014, 0, 32⟩
def eccHbm0_uncorr : Fld := ⟨0xC0018, 16, 16⟩
def eccHbm0_corr : Fld := ⟨0xC0018, 0, 16⟩
def eccHbm1_uncorr : Fld := ⟨0xC001C, 16, 16⟩
def eccHbm1_corr : Fld := ⟨0xC001C, 0, 16⟩
def eccSram_routerCorr : Fld := ⟨0xC0020, 24, 8⟩
def eccSram_uncorr : Fld := ⟨0xC0020, 16, 8⟩
def eccSram_corr : Fld := ⟨0xC0020, 0, 16⟩
def staleDrop_drops : Fld := ⟨0xC0024, 0, 32⟩
def scrubStat_lastPass : Fld := ⟨0xC0028, 0, 32⟩
def dieGen_gen : Fld := ⟨0xC002C, 0, 16⟩
def alive_aliveS : Fld := ⟨0xC0030, 0, 32⟩
def resetCause_cause : Fld := ⟨0xC0034, 0, 3⟩
def domainStat_retired (n : Nat) : Fld := ⟨0xC0200 + 4 * n, 31, 1⟩
def domainStat_resetsInWindow (n : Nat) : Fld := ⟨0xC0200 + 4 * n, 28, 3⟩
def domainStat_dgen (n : Nat) : Fld := ⟨0xC0200 + 4 * n, 0, 16⟩
def routerStat_discardCnt (f : Nat) : Fld := ⟨fieldBase f + 0x100, 16, 16⟩
def routerStat_altUsed (f : Nat) : Fld := ⟨fieldBase f + 0x100, 2, 1⟩
def routerStat_localGated (f : Nat) : Fld := ⟨fieldBase f + 0x100, 1, 1⟩
def routerStat_routerOk (f : Nat) : Fld := ⟨fieldBase f + 0x100, 0, 1⟩
def rangeLoopCfg_fineWindows (f : Nat) : Fld := ⟨fieldBase f + 0x200, 16, 4⟩
def rangeLoopCfg_satTarget (f : Nat) : Fld := ⟨fieldBase f + 0x200, 0, 16⟩
def alignClampCnt (f : Nat) : Fld := ⟨fieldBase f + 0x210, 0, 32⟩
def nanInCnt (f : Nat) : Fld := ⟨fieldBase f + 0x214, 0, 32⟩
def outSatCnt (f : Nat) : Fld := ⟨fieldBase f + 0x218, 0, 32⟩
def outlierCnt (f : Nat) : Fld := ⟨fieldBase f + 0x220, 0, 32⟩
def ovfBlockCnt (f : Nat) : Fld := ⟨fieldBase f + 0x224, 0, 32⟩
def ovfElemCnt (f : Nat) : Fld := ⟨fieldBase f + 0x228, 0, 32⟩
def rerunCnt (f : Nat) : Fld := ⟨fieldBase f + 0x22C, 0, 32⟩
def rerunDenied (f : Nat) : Fld := ⟨fieldBase f + 0x230, 0, 32⟩
def rerunFallback (f : Nat) : Fld := ⟨fieldBase f + 0x234, 0, 32⟩
def adaptClampCnt (f : Nat) : Fld := ⟨fieldBase f + 0x238, 0, 32⟩
def calCfg_driftTol (f : Nat) : Fld := ⟨fieldBase f + 0x240, 20, 8⟩
def calCfg_trimDelta (f : Nat) : Fld := ⟨fieldBase f + 0x240, 16, 4⟩
def calCfg_trimPeriod (f : Nat) : Fld := ⟨fieldBase f + 0x240, 0, 16⟩
def trimFailCnt (f : Nat) : Fld := ⟨fieldBase f + 0x244, 0, 32⟩
def checkFailCnt (f : Nat) : Fld := ⟨fieldBase f + 0x248, 0, 32⟩
def checkAbandonCnt (f : Nat) : Fld := ⟨fieldBase f + 0x24C, 0, 32⟩
def overdueCnt (f : Nat) : Fld := ⟨fieldBase f + 0x250, 0, 32⟩
def calStatus_trimBusy (f : Nat) : Fld := ⟨fieldBase f + 0x254, 2, 1⟩
def calStatus_bandCur (f : Nat) : Fld := ⟨fieldBase f + 0x254, 0, 2⟩
def fieldSched_gated (f : Nat) : Fld := ⟨fieldBase f + 0x260, 12, 1⟩
def fieldSched_entry (f : Nat) : Fld := ⟨fieldBase f + 0x260, 11, 1⟩
def fieldSched_mbShift (f : Nat) : Fld := ⟨fieldBase f + 0x260, 8, 3⟩
def fieldSched_stepBeatsM1 (f : Nat) : Fld := ⟨fieldBase f + 0x260, 0, 6⟩
def lateCnt (f : Nat) : Fld := ⟨fieldBase f + 0x264, 0, 32⟩
def stepFailCnt (f : Nat) : Fld := ⟨fieldBase f + 0x268, 0, 32⟩
def genNullCnt_genNull (f : Nat) : Fld := ⟨fieldBase f + 0x26C, 0, 32⟩
def shedNullCnt (f : Nat) : Fld := ⟨fieldBase f + 0x270, 0, 32⟩
def nettleOvfMap_ovf (f : Nat) (n : Nat) : Fld := ⟨fieldBase f + 0x6000 + 4 * n, 0, 32⟩
def nettleUnitStat_ovfW (f : Nat) (n : Nat) : Fld := ⟨fieldBase f + 0x6200 + 4 * n, 18, 11⟩
def nettleUnitStat_useW (f : Nat) (n : Nat) : Fld := ⟨fieldBase f + 0x6200 + 4 * n, 12, 5⟩
def nettleUnitStat_tqCur (f : Nat) (n : Nat) : Fld := ⟨fieldBase f + 0x6200 + 4 * n, 0, 12⟩
def tileProg_progGen (f : Nat) (n : Nat) : Fld := ⟨fieldBase f + 0x6400 + 4 * n, 0, 32⟩
def linkCfg_fpvMin (link : Nat) : Fld := ⟨linkBase link + 0x0, 12, 4⟩
def linkCfg_minLanesM1 (link : Nat) : Fld := ⟨linkBase link + 0x0, 8, 2⟩
def linkCfg_laneMask (link : Nat) : Fld := ⟨linkBase link + 0x0, 4, 4⟩
def linkCfg_mode (link : Nat) : Fld := ⟨linkBase link + 0x0, 1, 1⟩
def linkCfg_en (link : Nat) : Fld := ⟨linkBase link + 0x0, 0, 1⟩
def linkStatus_quarCause (link : Nat) : Fld := ⟨linkBase link + 0x4, 28, 4⟩
def linkStatus_degradeFail (link : Nat) : Fld := ⟨linkBase link + 0x4, 27, 1⟩
def linkStatus_fpv (link : Nat) : Fld := ⟨linkBase link + 0x4, 20, 4⟩
def linkStatus_failedLanes (link : Nat) : Fld := ⟨linkBase link + 0x4, 16, 4⟩
def linkStatus_lanesUsed (link : Nat) : Fld := ⟨linkBase link + 0x4, 12, 4⟩
def linkStatus_state (link : Nat) : Fld := ⟨linkBase link + 0x4, 0, 3⟩
def nbrId_nbrPort (link : Nat) : Fld := ⟨linkBase link + 0x8, 24, 8⟩
def nbrId_nbrDie (link : Nat) : Fld := ⟨linkBase link + 0x8, 0, 18⟩
def nbrRom_romRev (link : Nat) : Fld := ⟨linkBase link + 0xC, 0, 32⟩
def nbrPatch_patchLevel (link : Nat) : Fld := ⟨linkBase link + 0x10, 0, 32⟩
def rxDelay_delay (link : Nat) : Fld := ⟨linkBase link + 0x14, 0, 16⟩
def fecCorr_corr (link : Nat) : Fld := ⟨linkBase link + 0x18, 0, 32⟩
def fecUncorr_uncorr (link : Nat) : Fld := ⟨linkBase link + 0x1C, 0, 32⟩
def trainCnt_trainFail (link : Nat) : Fld := ⟨linkBase link + 0x20, 24, 8⟩
def trainCnt_retrainCnt (link : Nat) : Fld := ⟨linkBase link + 0x20, 16, 8⟩
def trainCnt_quarCnt (link : Nat) : Fld := ⟨linkBase link + 0x20, 8, 8⟩
def trainCnt_helloBad (link : Nat) : Fld := ⟨linkBase link + 0x20, 0, 8⟩
def degradeDrop_drops (link : Nat) : Fld := ⟨linkBase link + 0x24, 0, 32⟩
def laneStat_locked (link : Nat) (n : Nat) : Fld := ⟨linkBase link + 0x30 + 4 * n, 31, 1⟩
def laneStat_failed (link : Nat) (n : Nat) : Fld := ⟨linkBase link + 0x30 + 4 * n, 30, 1⟩
def laneStat_berExp (link : Nat) (n : Nat) : Fld := ⟨linkBase link + 0x30 + 4 * n, 16, 8⟩
def laneStat_eqMargin (link : Nat) (n : Nat) : Fld := ⟨linkBase link + 0x30 + 4 * n, 0, 16⟩
def powerCfg_stepUp : Fld := ⟨0xA0000, 16, 4⟩
def powerCfg_capHyst : Fld := ⟨0xA0000, 8, 8⟩
def powerCfg_avsEn : Fld := ⟨0xA0000, 0, 1⟩
def pmbAddr0_addr3 : Fld := ⟨0xA0004, 24, 7⟩
def pmbAddr0_addr2 : Fld := ⟨0xA0004, 16, 7⟩
def pmbAddr0_addr1 : Fld := ⟨0xA0004, 8, 7⟩
def pmbAddr0_addr0 : Fld := ⟨0xA0004, 0, 7⟩
def pmbAddr1_addr3 : Fld := ⟨0xA0008, 24, 7⟩
def pmbAddr1_addr2 : Fld := ⟨0xA0008, 16, 7⟩
def pmbAddr1_addr1 : Fld := ⟨0xA0008, 8, 7⟩
def pmbAddr1_addr0 : Fld := ⟨0xA0008, 0, 7⟩
def powerStatus_pmbLost : Fld := ⟨0xA0010, 12, 1⟩
def powerStatus_avsLimit : Fld := ⟨0xA0010, 11, 1⟩
def powerStatus_brownout : Fld := ⟨0xA0010, 10, 1⟩
def powerStatus_thermal : Fld := ⟨0xA0010, 9, 1⟩
def powerStatus_cap : Fld := ⟨0xA0010, 8, 1⟩
def powerStatus_s : Fld := ⟨0xA0010, 0, 6⟩
def powerCapCur_cap : Fld := ⟨0xA0014, 0, 10⟩
def powerRound_mean10 : Fld := ⟨0xA0018, 16, 16⟩
def powerRound_last : Fld := ⟨0xA0018, 0, 16⟩
def shedApplied_sP : Fld := ⟨0xA001C, 0, 6⟩
def pdOnLo_on : Fld := ⟨0xA0020, 0, 32⟩
def pdOnHi_on : Fld := ⟨0xA0024, 0, 32⟩
def pdOnMisc_on : Fld := ⟨0xA0028, 0, 16⟩
def powerCnt_avsFast : Fld := ⟨0xA0030, 16, 16⟩
def powerCnt_pmbRetry : Fld := ⟨0xA0030, 0, 16⟩
def railStat_vout (n : Nat) : Fld := ⟨0xA0040 + 4 * n, 20, 12⟩
def railStat_lost (n : Nat) : Fld := ⟨0xA0040 + 4 * n, 19, 1⟩
def railStat_fault (n : Nat) : Fld := ⟨0xA0040 + 4 * n, 18, 1⟩
def railStat_pout (n : Nat) : Fld := ⟨0xA0040 + 4 * n, 0, 10⟩
def schedStatus_firing : Fld := ⟨0x40000, 1, 1⟩
def schedStatus_installed : Fld := ⟨0x40000, 0, 1⟩
def startBeatLo_startLo : Fld := ⟨0x40004, 0, 32⟩
def startBeatHi_startHi : Fld := ⟨0x40008, 0, 21⟩
def vecFillCnt_lent : Fld := ⟨0x4000C, 16, 16⟩
def vecFillCnt_null : Fld := ⟨0x4000C, 0, 16⟩
def linkSched_lateCnt (n : Nat) : Fld := ⟨0x40040 + 4 * n, 24, 8⟩
def linkSched_bufBusy (n : Nat) : Fld := ⟨0x40040 + 4 * n, 16, 8⟩
def linkSched_ctxMismatch (n : Nat) : Fld := ⟨0x40040 + 4 * n, 8, 8⟩
def secStatus_takeoverReady : Fld := ⟨0xD0000, 21, 1⟩
def secStatus_roleConflict : Fld := ⟨0xD0000, 20, 1⟩
def secStatus_keySlotsUsed : Fld := ⟨0xD0000, 7, 13⟩
def secStatus_fuseFail : Fld := ⟨0xD0000, 6, 1⟩
def secStatus_opSlotValid : Fld := ⟨0xD0000, 2, 4⟩
def secStatus_dbgKill : Fld := ⟨0xD0000, 1, 1⟩
def secStatus_roleMgrAllowed : Fld := ⟨0xD0000, 0, 1⟩
def secCnt_sigFail : Fld := ⟨0xD0004, 24, 8⟩
def secCnt_keyInvalid : Fld := ⟨0xD0004, 16, 8⟩
def secCnt_attestCnt : Fld := ⟨0xD0004, 0, 16⟩
def secRole_manager : Fld := ⟨0xD0008, 2, 1⟩
def secRole_role : Fld := ⟨0xD0008, 0, 2⟩
def secMapEpoch_epoch : Fld := ⟨0xD000C, 0, 32⟩
def sensCfg_busGain : Fld := ⟨0xB0000, 0, 16⟩
def tempNow_fast : Fld := ⟨0xB0004, 31, 1⟩
def tempNow_levels : Fld := ⟨0xB0004, 24, 3⟩
def tempNow_sensor : Fld := ⟨0xB0004, 16, 6⟩
def tempNow_temp : Fld := ⟨0xB0004, 0, 16⟩
def thermStatus_busOver : Fld := ⟨0xB0008, 9, 1⟩
def thermStatus_brownout : Fld := ⟨0xB0008, 8, 1⟩
def thermStatus_latch : Fld := ⟨0xB0008, 7, 1⟩
def thermStatus_sensValid : Fld := ⟨0xB0008, 0, 6⟩
def busNow_busMin : Fld := ⟨0xB000C, 16, 16⟩
def busNow_bus : Fld := ⟨0xB000C, 0, 16⟩
def thermCnt_warnCnt : Fld := ⟨0xB0010, 24, 8⟩
def thermCnt_throttleCnt : Fld := ⟨0xB0010, 16, 8⟩
def thermCnt_brownoutCnt : Fld := ⟨0xB0010, 8, 8⟩
def thermCnt_sensFailCnt : Fld := ⟨0xB0010, 0, 8⟩
def sens_valid (n : Nat) : Fld := ⟨0xB0100 + 4 * n, 31, 1⟩
def sens_fast (n : Nat) : Fld := ⟨0xB0100 + 4 * n, 30, 1⟩
def sens_temp (n : Nat) : Fld := ⟨0xB0100 + 4 * n, 0, 16⟩
def seqCfg_grantLog2 : Fld := ⟨0x70000, 16, 4⟩
def seqCfg_budgetClass : Fld := ⟨0x70000, 4, 2⟩
def seqCfg_en : Fld := ⟨0x70000, 0, 1⟩
def seqGoal_goal3 : Fld := ⟨0x70004, 0, 32⟩
def dirBase_base : Fld := ⟨0x70008, 0, 30⟩
def parkBase_base : Fld := ⟨0x7000C, 0, 30⟩
def parkFrames_frames : Fld := ⟨0x70010, 0, 16⟩
def resultOff_off : Fld := ⟨0x70014, 0, 21⟩
def kvTokens_tokens : Fld := ⟨0x70018, 0, 32⟩
def kvFree_tokens : Fld := ⟨0x7001C, 0, 32⟩
def seqCount_paused : Fld := ⟨0x70020, 16, 16⟩
def seqCount_active : Fld := ⟨0x70020, 0, 16⟩
def admitCnt_refused : Fld := ⟨0x70024, 16, 16⟩
def admitCnt_admitted : Fld := ⟨0x70024, 0, 16⟩
def pauseCnt_resumed : Fld := ⟨0x70028, 16, 16⟩
def pauseCnt_paused : Fld := ⟨0x70028, 0, 16⟩
def returnCnt_nullRet : Fld := ⟨0x7002C, 16, 16⟩
def returnCnt_failRet : Fld := ⟨0x7002C, 0, 16⟩
def lateDeliver_tokens : Fld := ⟨0x70030, 0, 32⟩
def storeRetry_retries : Fld := ⟨0x70034, 0, 16⟩
def shardStatus_objBad : Fld := ⟨0x60000, 9, 1⟩
def shardStatus_progBusy : Fld := ⟨0x60000, 8, 1⟩
def shardStatus_fetchBusy : Fld := ⟨0x60000, 7, 1⟩
def shardStatus_swapState : Fld := ⟨0x60000, 4, 3⟩
def shardStatus_stageValid : Fld := ⟨0x60000, 2, 1⟩
def shardStatus_activeValid : Fld := ⟨0x60000, 1, 1⟩
def shardStatus_activeSlot : Fld := ⟨0x60000, 0, 1⟩
def modelGenCur_gen : Fld := ⟨0x60004, 0, 32⟩
def modelGenNext_gen : Fld := ⟨0x60008, 0, 32⟩
def swapUnit_unitId : Fld := ⟨0x6000C, 0, 32⟩
def fetchPages_pages : Fld := ⟨0x60010, 0, 21⟩
def shardErrCnt_arrivalFail : Fld := ⟨0x60014, 24, 8⟩
def shardErrCnt_refetch : Fld := ⟨0x60014, 16, 8⟩
def shardErrCnt_redigestFail : Fld := ⟨0x60014, 8, 8⟩
def roceCnt_retransmit : Fld := ⟨0x60018, 16, 16⟩
def roceCnt_qpError : Fld := ⟨0x60018, 0, 16⟩
def redigestStat_lastPass : Fld := ⟨0x6001C, 0, 32⟩
def progStat_tilesLeft : Fld := ⟨0x60020, 16, 16⟩
def progStat_wave : Fld := ⟨0x60020, 8, 8⟩
def progStat_retired : Fld := ⟨0x60020, 0, 8⟩
def badObj_valid : Fld := ⟨0x60024, 31, 1⟩
def badObj_section : Fld := ⟨0x60024, 15, 1⟩
def badObj_index : Fld := ⟨0x60024, 0, 13⟩
def hbmCfg_migEn (side : Nat) : Fld := ⟨0x80000 + 0x10000 * side, 3, 1⟩
def hbmCfg_rate (side : Nat) : Fld := ⟨0x80000 + 0x10000 * side, 1, 2⟩
def hbmCfg_en (side : Nat) : Fld := ⟨0x80000 + 0x10000 * side, 0, 1⟩
def hbmStatus_migBusy (side : Nat) : Fld := ⟨0x80004 + 0x10000 * side, 1, 1⟩
def hbmStatus_ready (side : Nat) : Fld := ⟨0x80004 + 0x10000 * side, 0, 1⟩
def resGs_resS (side : Nat) : Fld := ⟨0x80008 + 0x10000 * side, 16, 13⟩
def resGs_resG (side : Nat) : Fld := ⟨0x80008 + 0x10000 * side, 0, 13⟩
def resPCur_resP (side : Nat) : Fld := ⟨0x8000C + 0x10000 * side, 0, 13⟩
def loadMax_ratio (side : Nat) : Fld := ⟨0x80010 + 0x10000 * side, 16, 16⟩
def loadMax_pc (side : Nat) : Fld := ⟨0x80010 + 0x10000 * side, 0, 6⟩
def migCnt_migrated (side : Nat) : Fld := ⟨0x80014 + 0x10000 * side, 0, 32⟩
def overloadCnt_overload (side : Nat) : Fld := ⟨0x80018 + 0x10000 * side, 0, 32⟩
def attLateCnt_late (side : Nat) : Fld := ⟨0x8001C + 0x10000 * side, 0, 32⟩
def attFail_absentPage (side : Nat) : Fld := ⟨0x80020 + 0x10000 * side, 16, 16⟩
def attFail_keyFault (side : Nat) : Fld := ⟨0x80020 + 0x10000 * side, 0, 16⟩
def attFail2_tokenRange (side : Nat) : Fld := ⟨0x80024 + 0x10000 * side, 16, 16⟩
def attFail2_pageGen (side : Nat) : Fld := ⟨0x80024 + 0x10000 * side, 0, 16⟩
def tileCfg_rangeFixed (t : Nat) : Fld := ⟨tileBase t + 0x0, 12, 1⟩
def tileCfg_rangeMax (t : Nat) : Fld := ⟨tileBase t + 0x0, 8, 3⟩
def tileCfg_rangeMin (t : Nat) : Fld := ⟨tileBase t + 0x0, 4, 3⟩
def tileCfg_rangeInit (t : Nat) : Fld := ⟨tileBase t + 0x0, 0, 3⟩
def tileStatus_retired (t : Nat) : Fld := ⟨tileBase t + 0x4, 12, 1⟩
def tileStatus_cfgBad (t : Nat) : Fld := ⟨tileBase t + 0x4, 11, 1⟩
def tileStatus_takeover (t : Nat) : Fld := ⟨tileBase t + 0x4, 10, 1⟩
def tileStatus_convSpares (t : Nat) : Fld := ⟨tileBase t + 0x4, 8, 2⟩
def tileStatus_colRemaps (t : Nat) : Fld := ⟨tileBase t + 0x4, 4, 4⟩
def tileStatus_rangeCur (t : Nat) : Fld := ⟨tileBase t + 0x4, 0, 3⟩
def convCnt (t : Nat) : Fld := ⟨tileBase t + 0x8, 0, 32⟩
def satCnt (t : Nat) : Fld := ⟨tileBase t + 0xC, 0, 32⟩
def zeroCnt (t : Nat) : Fld := ⟨tileBase t + 0x10, 0, 32⟩
def clampCnt (t : Nat) : Fld := ⟨tileBase t + 0x14, 0, 32⟩
def splitCnt_reactive (t : Nat) : Fld := ⟨tileBase t + 0x18, 16, 16⟩
def splitCnt_preEmptive (t : Nat) : Fld := ⟨tileBase t + 0x18, 0, 16⟩
def skipCnt (t : Nat) : Fld := ⟨tileBase t + 0x1C, 0, 32⟩
def rangeWin_nearW (t : Nat) : Fld := ⟨tileBase t + 0x20, 16, 16⟩
def rangeWin_satW (t : Nat) : Fld := ⟨tileBase t + 0x20, 0, 16⟩
def colRemap_validHi (t : Nat) (n : Nat) : Fld := ⟨tileBase t + 0x24 + 4 * n, 31, 1⟩
def colRemap_deadHi (t : Nat) (n : Nat) : Fld := ⟨tileBase t + 0x24 + 4 * n, 30, 1⟩
def colRemap_columnHi (t : Nat) (n : Nat) : Fld := ⟨tileBase t + 0x24 + 4 * n, 16, 9⟩
def colRemap_validLo (t : Nat) (n : Nat) : Fld := ⟨tileBase t + 0x24 + 4 * n, 15, 1⟩
def colRemap_deadLo (t : Nat) (n : Nat) : Fld := ⟨tileBase t + 0x24 + 4 * n, 14, 1⟩
def colRemap_columnLo (t : Nat) (n : Nat) : Fld := ⟨tileBase t + 0x24 + 4 * n, 0, 9⟩
def convMap_perm65 (t : Nat) : Fld := ⟨tileBase t + 0x34, 31, 1⟩
def convMap_active65 (t : Nat) : Fld := ⟨tileBase t + 0x34, 30, 1⟩
def convMap_conv65 (t : Nat) : Fld := ⟨tileBase t + 0x34, 16, 6⟩
def convMap_perm64 (t : Nat) : Fld := ⟨tileBase t + 0x34, 15, 1⟩
def convMap_active64 (t : Nat) : Fld := ⟨tileBase t + 0x34, 14, 1⟩
def convMap_conv64 (t : Nat) : Fld := ⟨tileBase t + 0x34, 0, 6⟩
def wearStat_wearWarn (t : Nat) : Fld := ⟨tileBase t + 0x38, 31, 1⟩
def wearStat_wear (t : Nat) : Fld := ⟨tileBase t + 0x38, 0, 27⟩
def driftStat_early (t : Nat) : Fld := ⟨tileBase t + 0x3C, 31, 1⟩
def driftStat_pending (t : Nat) : Fld := ⟨tileBase t + 0x3C, 30, 1⟩
def driftStat_overdue (t : Nat) : Fld := ⟨tileBase t + 0x3C, 29, 1⟩
def driftStat_refreshing (t : Nat) : Fld := ⟨tileBase t + 0x3C, 28, 1⟩
def driftStat_driftAge (t : Nat) : Fld := ⟨tileBase t + 0x3C, 0, 22⟩

end Reg

end Sys2Proof.Machine
end

