-- ==== Sys2Proof/Machine/State.lean ====
section
/-! DEFINITION. The state of the block, as plain data, and the state after reset. Registers lie in `csr`
(a sparse map from CSR offset to word; what an unlisted register reads as is its reset value,
Machine/RegMap.lean); machine modes, tables, queues, logs and memories have fields of their own. -/

namespace Sys2Proof.Machine

/-- The twelve die states of Table 0.9 (R8), in the order of their CORE_STATUS codes. -/
inductive DieState where
  | off | romBoot | identified | configured | joined | loaded | serving | draining
  | holdover | outOfStep | outOfService | thermalShutdown
  deriving DecidableEq, Repr

/-- Time states of Table 7.5 (R139). -/
inductive TimeState where
  | free | acquiring | locked | root | holdover | lost
  deriving DecidableEq, Repr

/-- Link states of Table 9.3 (R182), in the order of their codes. -/
inductive LinkState where
  | disabled | phyTrain | identify | quarantine | probation | inService | retrain | down
  deriving DecidableEq, Repr

/-- Mailbox states of Table 14.4. -/
inductive MbxState where
  | empty | running | responded
  deriving DecidableEq, Repr

/-- Job states of Table 14.8. -/
inductive JobState where
  | free | running | done
  deriving DecidableEq, Repr

/-- One job slot (R307): its record (Table 14.8), its generation, and the arguments of its command,
which its later completion reads. -/
structure Job where
  state    : JobState := .free
  gen      : Nat := 0
  jobNo    : Nat := 0
  opcode   : Nat := 0
  status   : Nat := 0
  progress : Nat := 0
  tag      : Nat := 0
  doneTime : Nat := 0
  detail   : List Byte := List.replicate 8 0
  args     : List Byte := []
  deriving DecidableEq, Repr

/-- One mailbox (Tables 14.3, 14.4): the page's contents, the submitter recorded at GO (none: the
host), its job slots, and the ended sequences not yet reported (R338). -/
structure Mailbox where
  state     : MbxState := .empty
  cmd       : List Byte := List.replicate 256 0
  resp      : List Byte := List.replicate 256 0
  submitter : Option Nat := none
  hostWrite : Bool := false
  overrun   : Bool := false
  commands  : Nat := 0
  overruns  : Nat := 0
  jobs      : List Job := List.replicate 8 {}
  ended     : Nat := 0
  deriving DecidableEq, Repr

/-- Common header of a CTRL frame that the die sends to a die (Table 10.2). -/
structure CtrlHdr where
  dst : Nat
  src : Nat
  ttl : Nat := 4
  fpv : Nat := 0
  deriving DecidableEq, Repr

/-- Headers of a RoCEv2 READ request (Table 11.5): addresses, UDP ports, ECN field, queue pairs and remote key. -/
structure RoceHdr where
  family   : Nat
  srcMac   : List Byte
  dstMac   : List Byte
  srcIp    : List Byte
  dstIp    : List Byte
  udpSrc   : Nat
  udpDst   : Nat := 4791
  ecn      : Nat := 0          -- Not-ECT
  localQp  : Nat
  targetQp : Nat
  rkey     : Nat
  deriving DecidableEq, Repr

/-- What the die sends: U4 answers and interrupt messages (Table 14.10), CTRL frames by KIND and
payload, fabric requests and responses, scheduled and transit frames, HELLOs, beat markers, PTP
messages, RoCE reads, levels of output pins, and values of registers to their reader. -/
inductive Msg where
  | u4 (kind status tag len addr : Nat) (data : List Byte)
  | int (b status heartbeat : Nat)
  | ctrl (link : Nat) (h : CtrlHdr) (payload : List Byte)
  | req (link : Nat) (h : ReqHdr) (data : List Byte)
  | resp (link : Nat) (h : RespHdr) (data : List Byte)
  | sched (link : Nat) (f : SchedFrame)
  | transit (link : Nat) (f : TransitHdr)
  | hello (link : Nat) (payload : List Byte)
  | marker (link : Nat) (ack : Bool) (m : Marker)
  | ptp (port kind : Nat) (m : PtpMsg)
  | announce (port : Nat) (m : AnnMsg)
  | roceRead (link : Nat) (h : RoceHdr) (psn addr len : Nat)
  | pmbus (rail cmd value : Nat)
  | pin (name : Nat) (asserted : Bool)
  | testData (data : List Byte)
  | regRead (off : Nat) (v : Word)
  deriving DecidableEq, Repr

/-- One fault record (Table 18.2). -/
structure FaultRec where
  cls       : Nat
  cause     : Nat
  seq       : Nat
  ns        : Nat
  lastNs    : Nat
  domain    : Nat
  dgen      : Nat
  tenant    : Option Nat
  seqId     : Nat
  seqGen    : Nat
  locus     : Nat
  locusKind : Nat
  slot      : Nat
  count     : Nat
  beat      : Nat
  syndrome  : List Byte
  deriving DecidableEq, Repr

/-- One event-log record (Table 17.8); `valid` is false for a record that a supply loss tore, whose CRC
fails (R376, R378). -/
structure EvRec where
  kind     : Nat
  seq      : Nat
  ns       : Nat
  dieId    : Nat
  dieState : Nat
  band     : Nat
  temp     : Nat
  sensor   : Nat
  levels   : Nat
  s        : Nat
  bus      : Nat
  power    : Nat
  detail   : List Byte
  valid    : Bool
  deriving DecidableEq, Repr

/-- One copy of the event-log header (R377, Table 18.8). -/
structure EvHdr where
  valid   : Bool := false
  hdrSeq  : Nat := 0
  latch   : Bool := false
  dieGen  : Nat := 0
  aliveS  : Nat := 0
  at0     : Nat := 0
  at1     : Nat := 0
  oos     : Bool := false
  at0v    : Bool := false
  at1v    : Bool := false
  retired : Nat := 0
  deriving DecidableEq, Repr

/-- The resistive-memory event log: both header copies and the record slots by slot number. -/
structure EvLog where
  hdrA  : EvHdr := {}
  hdrB  : EvHdr := {}
  slots : Sparse (Option EvRec) := []
  nextSeq : Nat := 0
  deriving DecidableEq, Repr

/-- The fuse array (Table 19.1): the fields as numbers of their widths; `checkBad`: the array's own
check code fails (R402). -/
structure Fuses where
  deviceSeed : Nat := 0
  rootHash   : Nat := 0
  opHash     : List Nat := [0, 0, 0, 0]
  roleMgr    : Bool := false
  dbgKill    : Bool := false
  mfg        : Nat := 0
  checkBad   : Bool := false
  deriving DecidableEq, Repr

/-- One tenant key slot (R418): never readable. -/
structure KeySlot where
  tenant : Nat
  keyId  : Nat
  key1   : Nat
  key2   : Nat
  deriving DecidableEq, Repr

/-- One die entry of a topology map (Table 19.9). -/
structure MapDie where
  dieId  : Nat
  time   : Nat
  parent : Nat
  links  : List Nat
  alt    : Nat
  deriving DecidableEq, Repr

/-- A topology map (R409), with the buffer or fabric address and length it lies at. -/
structure TopoMap where
  epoch   : Nat
  rack    : Nat
  primary : Nat
  standby : Nat
  root    : Nat
  signer  : Nat
  dies    : List MapDie
  endorse : List Byte
  digest  : List Byte
  addr    : Nat
  len     : Nat
  deriving DecidableEq, Repr

/-- Boot, identity and security state (chapter 19). -/
structure Sec where
  dieId       : Option Nat := none
  fuses       : Fuses := {}
  patchStore  : List Byte := []          -- the bundle in the patch store; empty: none
  patchDigest : List Byte := []          -- digest of the bundle installed at the last boot
  keySlots    : Sparse (Option KeySlot) := []
  keyPend     : List (Nat × Option KeySlot) := []
  pathKey     : Nat := 0
  hbmKey      : List Nat := [0, 0]
  endorsement : Option (List Byte) := none
  takeoverBuf : Nat := 0
  takeover    : Option TopoMap := none   -- the takeover map being prepared
  map         : Option TopoMap := none   -- the map obeyed
  mapPend     : Option (TopoMap × Option (Nat × Nat)) := none   -- verified map, with the job that installs it
  mapSign     : List (TopoMap × Option (Nat × Nat)) := []   -- maps being signed, oldest first (R412)
  mapRead     : Option (Nat × Nat × Nat × Nat × List Byte) := none  -- notice being read: src, epoch, len, addr, digest
  mapBytes    : List Byte := []          -- what has been read of it
  startNs     : Nat := 0
  deriving DecidableEq, Repr

/-- One reporting die at an entry die (R374): its last S and the round of its arrival. -/
structure ShedRep where
  die   : Nat
  s     : Nat
  round : Nat
  deriving DecidableEq, Repr

/-- Power, voltage and thermal state (chapter 17). -/
structure Power where
  pdOn      : Nat := 0xF0000000000000000000   -- bit d: domain d powered (Table 17.10: 76 to 79 on)
  pdReq     : List Nat := []                  -- domains waiting to begin powering on, ascending
  pdBegun   : List Nat := []                  -- domains whose switch is closing
  gateReq   : List Nat := []                  -- domains to gate at the next beat boundary
  s         : Nat := 0                        -- own shed level in force
  sNext     : Option Nat := none              -- level taking effect at the next beat boundary
  powers    : List Nat := []                  -- P of the last rounds, newest first, at most 10
  lowRun    : Nat := 0                        -- consecutive rounds of R373's lowering rule
  boHold    : Nat := 0                        -- rounds for which a cleared brown-out still forces S
  avsLimit  : Bool := false                   -- R366 holds
  avsOkRun  : Nat := 0                        -- consecutive rounds with every domain at 15 ps or more
  vReq      : Sparse Nat := []                -- requested voltage, mV; key rail * 128 + domain, default 750
  drop      : Sparse Nat := []                -- DROP, mV; the same key
  dropPend  : List Nat := []                  -- keys whose DROP falls at the next beat boundary
  railV     : List Nat := [750, 750, 900, 1500, 750, 800, 750, 750]  -- commanded voltage of the rails, mV (Table 20.1)
  railFail  : List Nat := List.replicate 8 0  -- consecutive rounds in which a rail failed; 100: its VOUT_MODE is wrong
  railOut   : List Nat := List.replicate 8 0  -- consecutive rounds in which a rail reads outside its range (R429)
  railStats : Bool := false                   -- STATUS_WORD of every rail is read in the next round
  railOff   : List Nat := [3, 4, 5]           -- rails commanded OPERATION off (R422)
  railsUp   : Bool := false                   -- rails 3 to 5 are switched on in the next round (R422)
  reports   : List ShedRep := []
  capNext   : Option Nat := none
  hotSens   : List Nat := []                  -- sensors read every 16 us
  lastSeq   : Option Nat := none              -- SEQ_ID of the last non-null position served (R374)
  thermTrip : Bool := false                   -- THERM_TRIP_N asserted
  band      : Nat := 0                        -- temperature band in force (R116)
  bandNext  : Option Nat := none
  deriving DecidableEq, Repr

/-- A running DOMAIN_RESET (R388): the domain, its job, whether it has taken effect, the enables to
set again, whether it is retired by this reset, and whether it waits for a Speedwell pass. -/
structure DomReset where
  domain  : Nat
  mbx     : Nat
  slot    : Nat
  inReset : Bool
  retire  : Bool
  enables : List Nat
  wait    : Nat          -- 0 not out of reset; 1 wait for a pass to begin; 2 that pass runs
  deriving DecidableEq, Repr

/-- Speedwell (R355 to R358): the cycle its running pass began in, what registers it has already read
held before a later write of this pass, and whether a configuration write landed in it. -/
structure Spw where
  start   : Nat := 0
  seen    : Sparse (Option Word) := []
  written : Bool := false
  writes  : Nat := 0           -- configuration writes counted, the model's own, so that a CFG_COMMIT job knows of one (R320)
  waits   : Sparse Nat := []   -- fields whose registers the core wrote: 1 a pass is to begin, 2 it runs (R354)
  integ   : List Nat := []     -- blocks whose enable CONFIG_INTEGRITY cleared (R359)
  deriving DecidableEq, Repr

/-- Why the time state changes at the next beat boundary (Table 7.5). -/
inductive TimeMove where
  | lock                       -- ACQUIRING to LOCKED with a step of the estimate
  | relock                     -- HOLDOVER to LOCKED
  | holdOwn                    -- LOCKED to HOLDOVER, 24,414 beats
  | holdParent (left : Nat)    -- LOCKED to HOLDOVER under PARENT_HOLD
  | lose                       -- HOLDOVER to LOST on an inconsistent offset
  | switchPort (port : Nat)    -- LOCKED stays LOCKED on an alternate port
  deriving DecidableEq, Repr

/-- What CLK_CORE and the transmit clocks are derived from (R137). -/
inductive PllSrc where
  | recovered (port : Nat)     -- the receive clock of the time port
  | reference                  -- the root's own oscillator
  | held                       -- the mean control value of the last 1,024 beats
  deriving DecidableEq, Repr

/-- Dandelion (chapter 7). `est` is the estimate of fabric time less the grid's own time, in units of
2^-16 ns / 5 (so that one cycle, 0.4 ns, is 131,072). -/
structure Time where
  state   : TimeState := .free
  est     : Int := 0
  slew    : Int := 0                    -- offset still to be slewed away
  slip    : Int := 0                    -- cycles that this beat has beyond 5,120 (R141): 1, 0 or -1
  move    : Option TimeMove := none
  offs    : List Int := []              -- offsets on the time port, newest first, at most 16
  delays  : List (List Int) := List.replicate 8 []   -- last 16 peer delays of each port
  valid   : Nat := 0                    -- bit n: port n has a valid source
  consist : Nat := 0                    -- bit n: its last offset was consistent
  bad     : Nat := 0                    -- consecutive inconsistent offsets on the time port
  good    : Nat := 0                    -- consecutive consistent offsets with TSTATE 2 or 3 in HOLDOVER
  parent  : Nat := 0                    -- bit n: port n has a valid Sync from TIME_PARENT within 4 intervals
  pll     : PllSrc := .held
  syncs   : Nat := 0                    -- sequence numbers of sent Sync, Pdelay_Req and Announce
  pdelays : Nat := 0
  announces : Nat := 0
  twoStep : Sparse (Option PtpMsg) := []    -- two-step Syncs waiting for their Follow_Up, by port
  pdResp  : Sparse (Option PtpMsg) := []    -- Pdelay_Resp waiting for its follow-up, by port
  deriving DecidableEq, Repr

/-- A link's training and beat-exchange state (chapters 7 and 9). -/
structure Link where
  state    : LinkState := .disabled
  accepted : Bool := false              -- the partner's HELLO passed R186 (PEER_OK is sent)
  peer     : Option Hello := none       -- latest valid HELLO
  peerT    : Nat := 0                   -- latest TSTATE of the partner
  beatsOk  : Nat := 0                   -- consecutive beats of exchange without an event of R149
  outPend  : Option Nat := none         -- out of step from the next beat boundary: BEAT of what is missing
  sent     : Nat := 0                   -- scheduled frames sent in this beat
  sentPrev : Nat := 0                   -- in the beat before
  sentPrev2 : Nat := 0                  -- and in the one before that
  rcvd     : Nat := 0                   -- scheduled frames received since the last marker
  acks     : List Nat := []             -- beats whose marker is not yet acknowledged, oldest first
  exch     : Bool := false              -- a marker went out at the boundary that began this beat
  early    : Bool := false              -- the next beat's marker has arrived in this beat
  before   : Option (Nat × LinkState × Word) := none   -- row of Table 9.4 applied in this beat, state and TRAIN_CNT before it
  markIn   : Bool := false              -- a marker of this beat arrived in this beat
  missed   : Nat := 0                   -- consecutive markers missing
  offBeat  : Nat := 0                   -- consecutive markers outside their beat
  holdTo   : Nat := 0                   -- cycle (of the grid) until which a scheduled frame holds the link
  queue    : List Msg := []             -- unscheduled frames waiting to leave, oldest first (R207)
  freeAt   : Nat := 0                   -- cycle of this beat from which the next of them may begin
  good     : Nat := 0xF                 -- lanes good at this end
  berBad   : List Nat := [0, 0, 0, 0]   -- consecutive rounds above the error limit, per lane
  deriving DecidableEq, Repr

/-- One section of the installed schedule image (Table 8.2). -/
structure Sect where
  typ  : Nat
  inst : Nat
  data : List Byte
  deriving DecidableEq, Repr

/-- A vector position of a field in its current step (R165): its context, whether it is null, whether
its micro-batch has failed (R168). -/
structure Pos where
  ctx    : Ctx
  null   : Bool
  failed : Bool
  seen   : Bool := false    -- the field's first action has checked its generation (R237)
  got    : Option Nat := none   -- slot in which the last flit of an attention output for it arrived (R246)
  deriving DecidableEq, Repr

/-- A frame in a station buffer, less the flits already drained, and the number of the frame. -/
structure Buf where
  fr : SchedFrame
  no : Nat
  deriving DecidableEq, Repr

/-- A station buffer counted LATE in this step of its link for a vector (256: not known): by a frame that came too late
(`frame`), or by the drain that found the buffer empty; `no` numbers the missing frame. -/
structure BufMark where
  buf   : Nat
  vec   : Nat
  frame : Bool
  no    : Nat
  deriving DecidableEq, Repr

/-- The installed images and the positions of the running steps (chapter 8). INSTALLED, FIRING and
START_BEAT are registers. -/
structure Sched where
  secs      : List Sect := []
  att       : List Byte := []                -- installed attention image
  digest    : List Byte := []
  attDigest : List Byte := []
  vocab     : Nat := 0
  startAt   : Option Nat := none             -- START_BEAT accepted and not yet reached
  pos       : Sparse (Option Pos) := []      -- key field * 256 + vector
  bufs      : Sparse (Option Buf) := []      -- station buffers, key link * 64 + buffer
  bufMark   : List BufMark := []             -- buffers found LATE in this step
  frames    : Nat := 0                       -- number of the next frame, arrived or missing (the model's own)
  told      : List Nat := []                 -- frames whose loss or context mismatch has been recorded
  badTab    : List (Nat × Nat × Nat) := []   -- words of installed tables that are uncorrectable: section type, instance, word of 8 bytes
  deriving DecidableEq, Repr

/-- A tile record's contents (Table 6.5). -/
structure TileRec where
  retired   : Bool := false
  cause     : Nat := 0
  warn      : Bool := false
  wear      : Nat := 0
  saveTime  : Nat := 0
  age       : Nat := 0
  refreshes : Nat := 0
  remap     : List Nat := [0, 0, 0, 0, 0, 0, 0, 0]
  convMap   : Nat := 0
  trims     : List (Nat × Nat) := List.replicate 66 (128, 0)
  lastGain  : Nat := 0
  deriving DecidableEq, Repr

/-- A ledger entry (Table 11.6). -/
structure LedRec where
  gen  : Nat := 0
  wseq : Nat := 0
  dig  : Nat := 0
  deriving DecidableEq, Repr

/-- A reserved S slot of a tile (R51): its slot number in the step, and the part it drives (R50, R52);
`rerun`: it is one of the 16 slots of a re-run (R98), in which nothing is driven. -/
structure SRes where
  slot  : Nat
  rerun : Bool := false
  react : Bool := false
  vec   : Nat
  uidx  : Nat
  plane : Nat
  level : Nat := 0
  limit : Nat := 0
  rows  : List Nat := []
  deriving DecidableEq, Repr

/-- A converter under trim (R109 to R113): when and at which temperature its trims were last accepted,
whether a trim is due, consecutive failures, the spare chosen for it and the beat of the choice. -/
structure ConvSt where
  at0   : Nat := 0
  temp  : Nat := 0
  due   : Bool := false
  offs  : Bool := false          -- due by a reference-row offset (R114)
  fails : Nat := 0
  spare : Option (Nat × Nat) := none
  busy  : Bool := false          -- attempts run, or the trim waits for its result to take effect
  next  : Option (Nat × Nat × Nat) := none   -- accepted gain and offset, and the beat of acceptance
  once  : Bool := false          -- a trim has been accepted since the field was powered (R110)
  out   : Option Nat := none     -- beat of a third failed attempt: retired at the boundary that ends it (R112)
  deriving DecidableEq, Repr

/-- Class 3 work on a tile: a sampled check (R115), or a REF_RUN with its job (R336). -/
structure ChkSt where
  planes : List (List Nat) := []   -- active rows of each plane
  codes  : List (List Int) := []   -- codes of the planes driven so far
  nettle : Bool := false           -- Nettle's share is complete
  mSlots : Nat := 0                -- M slots since the planes were driven
  ranges : List Nat := []          -- RANGE_CUR in the slot of each of them (R48)
  clamped : Nat := 0               -- conversions that saturated
  tq     : Nat := 0                -- TQ used (R104)
  no     : Nat := 0                -- number of the request, ascending (R91)
  job    : Option (Nat × Nat) := none
  deriving DecidableEq, Repr

/-- One tile (chapters 3, 6 and 11): the record in force, the two stored copies of record and ledger
(none: an invalid copy), and what its sequencer and Yarrow hold. -/
structure Tile where
  live      : TileRec := {}
  copyA     : Option TileRec := some {}
  copyB     : Option TileRec := some {}
  lastB     : Bool := true
  ledA      : Option LedRec := some {}
  ledB      : Option LedRec := some {}
  ledLastB  : Bool := true
  ledger    : LedRec := {}
  remapEff  : List Nat := [0, 0, 0, 0, 0, 0, 0, 0]   -- remap entries in force (R54)
  retire    : Option (Nat × Nat × Nat) := none   -- cause of a retirement not yet in effect, beat and cycle of the cause
  rangeNext : Option (Nat × Nat) := none -- range decided, and the beat of the decision (R48)
  winConv   : Nat := 0
  winSat    : Nat := 0
  winNear   : Nat := 0
  closed    : List (Nat × Nat) := []     -- windows closed and not yet judged: SAT_W, NEAR_W
  fine      : Nat := 0
  res       : List SRes := []
  convs     : Sparse ConvSt := []
  refM      : Nat := 0                   -- M slots spent in the running refresh
  refRowM   : Nat := 0                   -- M slots spent in the running reference-row measurement
  refRowAt  : Nat := 0                   -- time of the last measurement
  sampled   : Bool := false              -- measured since its field's drift sample began (R125)
  check     : Option ChkSt := none
  refRuns   : List ChkSt := []
  lastTq    : Nat := 0                   -- TQ that the last completed check or reference run used (R104)
  deadSpares : Nat := 0                  -- spare converters retired while not standing in (no place in Table 6.5)
  drove     : Nat := 0                   -- band whose read settings the last drive used (R117)
  pulsed    : Nat := 0                   -- band whose waveform the last pulses used
  deriving DecidableEq, Repr

/-- A non-zero element of a scanned vector (R93): row block, row, value in units of 2^-519, and whether it
takes the analog path (0), is taken from a known row (1) or an unknown row (2), or is excess (3). -/
structure El where
  block : Nat
  row   : Nat
  v     : Int
  kind  : Nat
  deriving DecidableEq, Repr

/-- What a field holds about one vector position of the step (chapters 4 and 5). Slots are slot numbers of
the step. -/
structure Scan where
  uidx    : Nat
  tq      : Nat := 0
  poison  : Bool := false
  els     : List El := []
  word    : Nat := 0x400                     -- own exponent word (Table 4.5)
  words   : List (Nat × Nat × Nat) := []     -- words arrived: source, word, slot
  g       : Option (Nat × Nat) := none       -- returned word and the slot it was known in
  planes  : Option Nat := none               -- last slot of ALIGN
  nettled : Bool := false                    -- Nettle-only products added
  fetched : Nat := 0                         -- flits of unknown rows fetched
  parts   : List (Nat × List Nat) := []      -- adapter partials: row block, r binary32 values
  h       : Option (List Nat) := none        -- h in bfloat16
  ys      : List Nat := []                   -- values of F at CLOSE
  closed  : Bool := false
  outEnd  : Nat := 0                         -- last slot of CLOSE
  missing : List Nat := []                   -- transfer kinds that arrived invalid (Table 18.3, LATE)
  sel     : Option (Nat × Nat × Bool) := none     -- own select word: key, n, NaN
  sels    : List (Nat × Nat × Nat × Bool) := []   -- words arrived: source, key, n, NaN
  arr     : List (Nat × Nat) := []           -- further arrivals: transfer kind (Table 18.3), slot
  cnts    : List (Nat × Nat × Nat) := []     -- outlier counts until the vector is known not to be poisoned: block, taken, excess
  claimed : List Nat := []                   -- tiles whose re-run claim has been judged (R98)
  deriving DecidableEq, Repr

/-- A re-run shadow (R98, R99). -/
structure Shadow where
  field : Nat
  tile  : Nat
  vec   : Nat
  last  : Nat                      -- the last reserved S slot
  lanes : Sparse Int := []
  deriving DecidableEq, Repr

/-- Flits on one mesh link or station link, written by one router entry (R158, R159). -/
structure Batch where
  valid : Bool
  kind  : Nat
  vec   : Nat
  src   : Nat                      -- source field
  data  : List Byte
  pos   : Option Pos
  scan  : Option Scan              -- control words that the flits carry
  frame : Nat := 0                 -- number of the frame they come from
  deriving DecidableEq, Repr

/-- The threshold loop of one unit of a field (R95). -/
structure TqWin where
  blocks : Nat := 0
  taken  : Nat := 0
  ovf    : Nat := 0
  closed : List (Nat × Nat) := []
  next   : Option (Nat × Nat) := none     -- TQ decided, and the beat of the decision
  deriving DecidableEq, Repr

/-- A tenant adapter (R100, R335): its image and limits; `pend` until the next beat boundary. -/
structure Adapter where
  handle : Nat
  tenant : Nat
  wmax   : Nat
  hmax   : Nat
  dmax   : Nat
  image  : List Byte
  resident : Bool := false
  evict  : Bool := false
  lost   : List Nat := []          -- fields whose share is lost: gated or reset since the load, or off at it (R102)
  deriving DecidableEq, Repr

/-- Crossbars, lanes, Nettle units and mesh (chapters 2 to 6). -/
structure Grid where
  tiles    : Sparse Tile := []
  cells    : Sparse Int := []          -- digit d of a cell pair: key (tile * 512 + row) * 520 + column
  lanes    : Sparse Int := []          -- accumulator lanes: key field * 65536 + lane
  nettle   : Sparse Byte := []         -- Nettle stores: key field * 2^20 + offset
  scans    : Sparse (Option Scan) := []    -- key field * 256 + vector
  shadows  : List Shadow := []
  tqWin    : Sparse TqWin := []        -- key field * 64 + NIDX
  adapters : List Adapter := []
  mesh     : List (Nat × Batch) := []  -- flits in flight: key router * 8 + input port, oldest first
  change   : Nat := 0                  -- CHANGE_COUNT (R34)
  flitErr  : Sparse Nat := []          -- time of the last flit error of a router (R383)
  checkNo  : Nat := 0                  -- number of the next class 3 request (R91; the model's own)
  deriving DecidableEq, Repr

/-- One storage source of a fetch (Table 15.7). -/
structure Src where
  port  : Nat
  raddr : Nat
  entry : List Byte
  psn   : Nat
  tries : Nat := 0
  live  : Bool := true
  flight : List Nat := []     -- objects of the reads outstanding, in the order of their PSNs
  deriving DecidableEq, Repr

/-- One object of a fetch: shard offset, length, kind (0 manifest head, 1 manifest rest, 2 tile image, 3
section, 4 signed part of the active manifest), index, the source it is read from, bytes landed, failed reads. -/
structure Obj where
  off   : Nat
  len   : Nat
  kind  : Nat
  idx   : Nat
  src   : Nat
  got   : Nat := 0
  fails : Nat := 0
  done  : Bool := false
  reads : List Nat := []      -- ends of the reads requested and not wholly landed
  deriving DecidableEq, Repr

/-- A fetch or repair in progress (R228 to R231). -/
structure Fetch where
  job    : Option (Nat × Nat)
  repair : Bool
  base   : Nat
  srcs   : List Src
  objs   : List Obj
  next   : Nat := 0           -- next source, round-robin
  deriving DecidableEq, Repr

/-- What a programming set is for (R233, R236, R239, R240). -/
inductive ProgFor where
  | shard | rewrite | abort | bringUp (f : Nat)
  deriving DecidableEq, Repr

/-- A programming set: its purpose and job, its waves still to run (the first is running), each tile with
the shard it is programmed from, and what the command reports. -/
structure Prog where
  why     : ProgFor
  job     : Option (Nat × Nat)
  begun   : Bool := false
  waves   : List (List (Nat × Nat)) := []     -- tile, base address of its shard
  wave    : Nat := 0
  retired : Nat := 0
  skipped : Nat := 0
  done    : Nat := 0
  deriving DecidableEq, Repr

/-- Weight shards and model swap (chapter 11). SHARD_STATUS, MODEL_GEN_CUR and MODEL_GEN_NEXT are
registers. -/
structure Shard where
  unitGen  : Sparse Nat := []
  bad      : List Nat := []              -- bad objects of the active slot: tile index, 8192 + section, or 16384 for the manifest
  fetch    : Option Fetch := none
  lastSrc  : List Src := []              -- sources of the last fetch
  reread   : Bool := false               -- bad objects wait for the running fetch to be read again (R231)
  progs    : List Prog := []
  rewritten : List Nat := []             -- units rewritten in this swap
  unitNext : Option (Nat × Nat) := none  -- unit whose generation becomes 0 at the next boundary, beat
  commitAt : Option (Nat × Option (Nat × Nat)) := none
  digest   : List Byte := []             -- shard digest of the active slot, and the length it covers
  signed   : Nat := 0
  imgAddr  : Nat := 0                    -- installed image: address
  imgLen   : Nat := 0
  attLen   : Nat := 0
  installNs : Nat := 0                   -- install of the active shard (R231)
  bringUp  : Sparse Nat := []            -- fields in bring-up under R240 (Machine/BringUp.lean)
  deriving DecidableEq, Repr

/-- A frame of KV pages that the placement loop moves (R266): old and new frame, beat of the switch (none
while the copy runs). -/
structure Migr where
  old    : Nat
  new    : Nat
  switch : Option Nat := none
  deriving DecidableEq, Repr

/-- The KV and attention state of one side (chapter 12): the frame pool (log entry 18), input flits by position,
frames in use, frames being moved. -/
structure Side where
  poolLo   : Nat := 0                     -- KV frame pool: frames [poolLo, poolHi), as address bits [37:16]
  poolHi   : Nat := 0
  attIn    : Sparse (List Byte) := []     -- key vector: bytes received for its window
  attSeen  : List Nat := []               -- vectors with some valid flit
  fetch    : Sparse Nat := []             -- key vector: bytes of its output already fetched
  used     : List Nat := []               -- frames allocated
  marked   : List Nat := []               -- frames marked for migration
  moves    : List Migr := []
  deriving DecidableEq, Repr

/-- Why a request of this die is outstanding: a REMOTE_OP job; a part of a COPY or KVX that this die serves for
a requester; the read of a noticed map; a store or poll of a sequence's directory entry; a parked or
returning frame (list address of its descriptor). -/
inductive ReqWhy where
  | remoteOp (m slot : Nat)
  | part (src tag off : Nat)
  | mapRead (off : Nat)
  | bind (idx gen die : Nat)
  | length (idx gen die : Nat)
  | release (idx gen die : Nat)
  | poll (idx gen die : Nat)
  | park (idx desc frame : Nat)
  | unpark (idx desc frame : Nat)
  deriving DecidableEq, Repr

/-- A request of this die (R211, R218), outstanding or waiting for a place; `issue`: beat of its issue. -/
structure OutReq where
  tag   : Nat := 0
  op    : Nat
  addr  : Nat            -- 64-bit fabric address
  len   : Nat
  opnd1 : Nat := 0
  opnd2 : Nat := 0
  stop  : Nat := 0
  data  : List Byte := []
  issue : Nat := 0
  why   : ReqWhy
  deriving DecidableEq, Repr

/-- A COPY or KVX that this die serves (R214, R221): the requester's header, parts not yet answered, and the
lowest offset of a part that was not applied. -/
structure CopyRun where
  link  : Nat
  hdr   : ReqHdr
  left  : Nat
  fail  : Option Nat := none
  deriving DecidableEq, Repr

/-- A range opened with KV_RECV_OPEN (R328): handle, side, first frame, frames, directory index, generation,
unit, key slot, source descriptors, and the parts applied to each frame. -/
structure KvRange where
  handle : Nat
  side   : Nat
  first  : Nat
  count  : Nat
  idx    : Nat
  gen    : Nat
  au     : Nat
  slot   : Nat
  nonces : List Nat
  parts  : List Nat := []          -- 16 × frame + part, applied
  closing : Bool := false
  deriving DecidableEq, Repr

/-- The fabric's own state (chapter 10). -/
structure Fab where
  reqs    : List OutReq := []      -- outstanding, at most 1,024
  waiting : List OutReq := []      -- waiting for a place
  nextTag : Nat := 0
  copies  : List CopyRun := []
  protNext : List (Nat × Option (Nat × Nat)) := []   -- protected ranges that change at the next boundary
  recv    : List KvRange := []
  ctrlOut : List (Nat × List Byte) := []   -- manager messages on their way to the links: die, payload
  deriving DecidableEq, Repr

/-- What the entry die knows of one directory of a sequence (R282): `phase` 0 the bind store is not yet answered,
1 its length store, 2 STATUS is polled for the bind, 3 bound, 4 nothing was bound; `rel` 0 no release, 1 issued,
2 answered. -/
structure DirSt where
  die   : Nat
  base  : Nat                  -- local address of the directory on that die
  phase : Nat := 0
  home  : Bool := false
  unans : Nat := 0             -- length stores not yet answered OK
  rel   : Nat := 0
  deriving DecidableEq, Repr

/-- A sequence-table entry (Table 13.1), with what the control core keeps beside it: mailbox and job of its
submission, directories, the beat from which its next map may begin, the state before HELD, and parking. -/
structure SeqE where
  gen       : Nat := 0
  st        : Nat := 0
  cause     : Nat := 0
  tenant    : Nat := 0
  prio      : Nat := 0
  contLate  : Bool := false
  rerun     : Bool := false
  spec      : Nat := 0
  pHost     : Bool := false
  pBudget   : Bool := false
  pGoal     : Bool := false
  pCap      : Bool := false
  freePrompt : Bool := false
  adapter   : Nat := 0
  failRun   : Nat := 0
  behind    : Nat := 0            -- consecutive map closes at which it was behind (R284)
  len       : Nat := 0
  promptLen : Nat := 0
  maxNew    : Nat := 0
  newCount  : Nat := 0
  deadline  : Nat := 0
  tokbuf    : Nat := 0
  modelGen  : Nat := 0
  stop      : Nat := 0
  lastCommit : Nat := 0
  order     : Nat := 0
  mbx       : Nat := 0
  job       : Option (Nat × Nat) := none
  dirs      : List DirSt := []
  ready     : Nat := 0
  before    : Nat := 0
  park      : Bool := false
  parkAt    : Nat := 0            -- beat of its parking under R274
  goalAt    : Nat := 0            -- beat of its last P_GOAL pause
  need      : Nat := 0            -- tokens that its admission reserves (R274)
  reserve   : Nat := 0            -- tokens reserved from KV_TOKENS
  expire    : Bool := false       -- ends at the next boundary for a failed length store
  deriving DecidableEq, Repr

/-- A position that a map gave a sequence (R275, R278): step, position, entry, generation, input token and its
index; `lent` or P positions carry class P. -/
structure Place where
  step  : Nat
  vec   : Nat
  idx   : Nat
  gen   : Nat
  token : Nat
  tokIdx : Nat
  deriving DecidableEq, Repr

/-- A tenant's slot on an entry die (R289, R290). -/
structure Budget where
  tenant : Nat
  beta   : Int := 0
  reqNo  : Nat := 0
  lastReq : Option Nat := none     -- fabric time of the latest request
  waits  : Bool := false           -- the latest request is not answered
  empty  : Bool := false
  deriving DecidableEq, Repr

/-- A tenant as the manager keeps it (R289, R340): the level in units of 10^-9. -/
structure TenantRate where
  tenant : Nat
  rate   : Nat
  burst  : Nat
  level  : Nat
  at0    : Nat
  answered : List (Nat × Nat × Nat) := []   -- entry die, last REQ_NO answered, its grant
  deriving DecidableEq, Repr

/-- Another die of the pipeline that has attention units, as the entry die knows it: die ID, address of its
directory, least PAGES_PER_HEAD × TPP of its units, and the adapters resident on it, as handle and tenant.
The spec does not say how the entry die learns them (the model's own field, loaded from outside). -/
structure Peer where
  die      : Nat
  dirBase  : Nat
  limit    : Nat
  adapters : List (Nat × Nat) := []
  deriving DecidableEq, Repr

/-- Sequences, tenants and budgets (chapter 13). -/
structure Seqs where
  table   : Sparse SeqE := []
  order   : Nat := 0
  places  : List Place := []           -- positions of maps not yet committed
  maps    : List Nat := []             -- steps whose map is written, newest first
  landed  : List Nat := []             -- result records landed: return step mod 2 × 256 + position
  onTime  : Nat := 0                   -- consecutive closes without one behind and with a lent or null G position
  budgets : List Budget := []
  tenants : List TenantRate := []
  peers   : List Peer := []
  lag     : Nat := 1                   -- steps from a map to the return of its results (the model's own field)
  parkTo  : Nat := 0                   -- park area on ring neighbour A: local address there (the model's own field)
  parkCap : Nat := 0                   -- and its frames
  deriving DecidableEq, Repr

/-- The standby's state (R18): fabric time of the last manager-alive message. -/
structure Mgr where
  lastAlive : Nat := 0
  took     : Bool := false             -- the standby has taken over, and the boundary at which it obeys is awaited
  deriving DecidableEq, Repr

/-- The attention windows served in the running steps: unit, sequence ID, generation, window (R259), and
the page nonce counter (R259). -/
structure Att where
  served : List (Nat × Nat × Nat × Nat) := []
  nonce  : Nat := 0
  parked : List (Nat × Nat × Nat) := []   -- directory index, descriptor address, frame of the park area (R286)
  parking : List (Nat × Bool) := []       -- directory indexes whose park (true) or return copies run
  deriving DecidableEq, Repr

/-- The whole block. -/
structure State where
  pending  : List Instr := []        -- commands waiting, first in first out
  out      : List Msg := []          -- what the die has sent, oldest first (the model's own record)
  free     : Nat := 0                -- index of the next free value (the model's own counter)
  beat     : Nat := 0                -- beat of the local grid
  cyc      : Nat := 0                -- cycle in the beat, 0 to 5119
  clk      : Nat := 0                -- cycles of CLK_CORE counted by the model
  dieState : DieState := .romBoot
  left     : DieState := .joined     -- state HOLDOVER remembers (Table 19.4)
  coreUp   : Bool := true            -- the control core runs (R383)
  supply   : Bool := true            -- VDD_AON above the power-on-reset level
  firstBoot : Bool := true           -- this ROM_BOOT is the first entry after supply was applied
  aged     : Bool := false           -- the drift of a power cycle has been charged (R123)
  qpos     : Nat := 0                -- QPOS[1:0] as sampled
  dieReset : Option Nat := none      -- RESET_CAUSE of a reset of the whole die that will begin (R342, R343, R345)
  csr      : Sparse Word := []
  gated    : Sparse Word := []       -- gated store (R350)
  shadow   : Sparse Word := []       -- configuration shadow (R360)
  spw      : Spw := {}
  mbx      : List Mailbox := List.replicate 8 {}
  rr       : Nat := 6                -- last of MBX1 to MBX6 served
  intWin   : List (Nat × Bool) := [] -- open interrupt windows: bit, cause seen in the window
  faults   : List FaultRec := []     -- fault log, oldest first
  ev       : EvLog := {}
  aliveS   : Nat := 0
  aliveRounds : Nat := 0
  resetsAt : Sparse (List Nat) := [] -- ALIVE_S of counted domain resets, newest first
  domResets : List DomReset := []
  healthEv : Nat := 0                -- EVENTS of the health report due (Table 18.7)
  healthDom : Nat := 0
  sec      : Sec := {}
  time     : Time := {}
  links    : List Link := List.replicate 13 {}
  sched    : Sched := {}
  pow      : Power := {}
  grid     : Grid := {}
  shard    : Shard := {}
  sides    : List Side := [{ poolLo := 0x90040, poolHi := 0x120000 }, { poolLo := 0x1B0000, poolHi := 0x240000 }]
  att      : Att := {}
  fab      : Fab := {}
  seqs     : Seqs := {}
  mgr      : Mgr := {}
  mem      : Sparse Byte := []       -- HBM and SRAM by local address
  ue       : List Nat := []          -- 32-byte HBM granules known to be uncorrectable (R381)
  sue      : List Nat := []          -- 8-byte SRAM words known to be uncorrectable (R380)
  deriving DecidableEq, Repr

/-- Reasons to stop with a fault: none. Every fault of this hardware is an answer, a record or a change
of state (chapter 18), so no command ends in a model fault. -/
inductive Fault where
  deriving DecidableEq, Repr

/-- Reasons to refuse a command. -/
inductive Refusal where
  /-- Raised by the dispatcher alone, for a command that has no meaning yet; safe: the machine stops. -/
  | notModelled (mnemonic : String)
  deriving DecidableEq, Repr

/-- The machine right after reset: ROM_BOOT entered, every register at its reset value, memory with
nothing listed, no command waiting. Fields without a reset value in the spec are named in the log. -/
def State.reset : State := {}

end Sys2Proof.Machine
end

