-- ==== Sys2Proof/Machine/Ops.lean ====
section
/-! DEFINITION. Named operations over the state: register fields and counters, fabric time, interrupt
messages, the fault log, the event log and its header, job records, and free values. -/

namespace Sys2Proof.Machine

/-! ### Codes of the enumerations -/

/-- CORE_STATUS.DIE_STATE code (Table 0.9 in order). -/
def DieState.code : DieState → Nat
  | .off => 0 | .romBoot => 1 | .identified => 2 | .configured => 3 | .joined => 4 | .loaded => 5
  | .serving => 6 | .draining => 7 | .holdover => 8 | .outOfStep => 9 | .outOfService => 10
  | .thermalShutdown => 11

/-- DDL_STATUS.TIME_STATE code (Table 7.5). -/
def TimeState.code : TimeState → Nat
  | .free => 0 | .acquiring => 1 | .locked => 2 | .root => 3 | .holdover => 4 | .lost => 5

/-- LINK_STATUS.STATE code (Table 9.3). -/
def LinkState.code : LinkState → Nat
  | .disabled => 0 | .phyTrain => 1 | .identify => 2 | .quarantine => 3 | .probation => 4
  | .inService => 5 | .retrain => 6 | .down => 7

/-- MBX_STATUS.STATE code (Table 14.3). -/
def MbxState.code : MbxState → Nat
  | .empty => 0 | .running => 1 | .responded => 2

/-- Job record STATE code (Table 14.8). -/
def JobState.code : JobState → Nat
  | .free => 0 | .running => 1 | .done => 2

/-! ### The register map by CSR offset -/

/-- The register of a block's table that block offset `o` names. -/
def specIn : List RegSpec → Nat → Option RegSpec
  | [], _ => none
  | r :: l, o =>
    if r.off ≤ o ∧ (o - r.off) % r.stride = 0 ∧ (o - r.off) / r.stride < r.count then some r
    else specIn l o

/-- LINK_CFG of links 8 to 12, where LANE_MASK and MODE are reserved (R193, Table 16.3). -/
def ucieLinkCfg : RegSpec := ⟨0x0, 1, 4, 0x1000, [⟨15, 12, .cfg⟩, ⟨9, 8, .cfg⟩, ⟨0, 0, .en⟩]⟩

/-- Registers of link block `n` (R193). -/
def linkSpec (n o : Nat) : Option RegSpec :=
  if n < 8 then specIn linkRegs o
  else if o = 0 then some ucieLinkCfg
  else if o < 0x30 then specIn linkRegs o else none

/-- Domain codes of Table 15.12 other than 0x0FF. -/
def domainCode (c : Nat) : Bool :=
  decide (c < 0x40) || (decide (0x40 ≤ c) && decide (c ≤ 0x43)) || decide (c = 0x48) || decide (c = 0x49)
    || decide (c = 0x50) || decide (c = 0x51) || (decide (0x60 ≤ c) && decide (c ≤ 0x67))
    || decide (c = 0x70) || decide (c = 0x71)

/-- LINK_BEATn for n other than 7, where EXEMPT is not writable (Table 7.11). -/
def noExempt (r : RegSpec) : RegSpec :=
  { r with fields := r.fields.map (fun f => if f.acc = .cfg then { f with acc := .ro } else f) }

/-- The map memory of the schedule block, written only by the control core (R275, R295). -/
def mapMemSpec : RegSpec := ⟨0x4000, 0x1000, 4, 0, [⟨31, 0, .ro⟩]⟩

/-- Registers of a field block, tile windows included (R58). -/
def fieldSpec (o : Nat) : Option RegSpec :=
  if 0x4000 ≤ o ∧ o < 0x6000 then specIn tileRegs (o % 0x40) else specIn fieldRegs o

/-- The register at CSR offset `off`; none at a reserved offset (R346, R348). The mailbox block is
not a register file (Machine/MbxOps.lean). -/
def regSpec (off : Nat) : Option RegSpec :=
  let b := off / 0x10000
  let o := off % 0x10000
  if off % 4 ≠ 0 then none
  else if b = 0 then specIn dieRegs o
  else if b = 1 then specIn coreRegs o
  else if b = 3 then
    if 0x60 ≤ o ∧ o < 0x90 ∧ o ≠ 0x7C then (specIn ddlRegs o).map noExempt else specIn ddlRegs o
  else if b = 4 then if 0x4000 ≤ o ∧ o < 0x8000 then some mapMemSpec else specIn schedRegs o
  else if b = 5 then specIn fabRegs o
  else if b = 6 then specIn shardRegs o
  else if b = 7 then specIn seqRegs o
  else if b = 8 then specIn sideRegs o
  else if b = 9 then specIn sideRegs o
  else if b = 10 then specIn powerRegs o
  else if b = 11 then specIn sensRegs o
  else if b = 12 then
    if 0x200 ≤ o then if domainCode ((o - 0x200) / 4) then specIn faultRegs o else none
    else specIn faultRegs o
  else if b = 13 then specIn secRegs o
  else if 16 ≤ b ∧ b ≤ 28 then linkSpec (b - 16) o
  else if 64 ≤ b ∧ b < 128 then fieldSpec o
  else none

/-- Reset value of the register at a CSR offset; 0 at an offset without one. -/
def regReset (off : Nat) : Word :=
  match regSpec off with
  | some r => BitVec.ofNat 32 r.reset
  | none => 0

/-- Bits of a field in place. -/
def FieldSpec.mask (f : FieldSpec) : Nat := (2 ^ (f.hi + 1 - f.lo) - 1) * 2 ^ f.lo

/-- The bits of a register whose fields have one of the access codes `accs`. -/
def RegSpec.maskOf (r : RegSpec) (accs : List Acc) : Nat :=
  r.fields.foldl (fun m f => if f.acc ∈ accs then m + f.mask else m) 0

/-! ### Register fields -/

/-- Bits [lo + n - 1 : lo] of a word. -/
def fget (w : Word) (lo n : Nat) : Nat := bits w.toNat lo n

/-- A word with those bits replaced by the low `n` bits of `v`. -/
def fset (w : Word) (lo n v : Nat) : Word :=
  BitVec.ofNat 32 (w.toNat - bits w.toNat lo n * 2 ^ lo + v % 2 ^ n * 2 ^ lo)

/-- The stored word of a register. -/
def State.word (s : State) (off : Nat) : Word := sget regReset s.csr off

/-- Store a whole word, whatever the access codes: the hardware's own write. -/
def State.setWord (s : State) (off : Nat) (w : Word) : State := { s with csr := sset regReset s.csr off w }

/-- The value of a register field. -/
def State.fld (s : State) (x : Fld) : Nat := fget (s.word x.reg) x.lo x.n

/-- Set a register field by hardware. -/
def State.setFld (s : State) (x : Fld) (v : Nat) : State :=
  { s with csr := sset regReset s.csr x.reg (fset (s.word x.reg) x.lo x.n v) }

/-- Count `k` events in a counter that stops at its all-ones value. -/
def State.count (s : State) (x : Fld) (k : Nat) : State :=
  s.setFld x (satAdd (2 ^ x.n - 1) (s.fld x) k)

/-- A counter that wraps. -/
def State.countWrap (s : State) (x : Fld) : State := s.setFld x (s.fld x + 1)

/-- Reset every register in [lo, hi) to its reset value. -/
def resetRegs (s : State) (lo hi : Nat) : State :=
  { s with csr := (s.csr.filter (fun e => !(decide (lo ≤ e.1) && decide (e.1 < hi)))) }

/-! ### Time -/

/-- Local fabric time in units of 2^-16 ns / 5: the grid's time plus the estimate's offset, and from cycle 16 on what the
beat's slip adds (R129, R141). -/
def State.ft (s : State) : Nat :=
  (((s.beat * 5120 + s.cyc) * 131072 : Nat) + s.time.est + (if 16 ≤ s.cyc then s.time.slip * 131072 else 0) : Int).toNat

/-- The 64-bit nanosecond count of local fabric time. -/
def State.ns (s : State) : Nat := s.ft / 327680 % 2 ^ 64

/-- The 16-bit fraction of local fabric time. -/
def State.frac (s : State) : Nat := s.ft % 327680 / 5

/-- Slot of the running beat. -/
def State.slot (s : State) : Nat := s.cyc / 80

/-- Cycles of CLK_CORE from the present cycle to cycle `n` of this beat: cycle 15 of a slip beat is passed twice or not
at all (R141). -/
def State.cycles (s : State) (n : Nat) : Nat :=
  (((n - s.cyc : Nat) : Int) + (if s.cyc < 16 ∧ 16 ≤ n then s.time.slip else 0)).toNat

/-- Move the clock forward to cycle `n` of this beat, if it is not past it. -/
def State.toCycle (s : State) (n : Nat) : State := { s with clk := s.clk + s.cycles n, cyc := max s.cyc n }

/-- Move the clock forward to the first cycle of slot `k` of this beat, if it is not past it. -/
def State.atSlot (s : State) (k : Nat) : State := s.toCycle (min k 63 * 80)

/-- Draw the next free value. -/
def State.drawn (s : State) : Nat := Config.freeNat s.free

/-- Advance the free-value counter. -/
def State.draw (s : State) : State := { s with free := s.free + 1 }

/-- Append one sent message. -/
def State.emit (s : State) (m : Msg) : State := { s with out := s.out ++ [m] }

/-- Hand a manager message for a die to the fabric, which finds its path (R203). -/
def State.sendCtrl (s : State) (dst : Nat) (payload : List Byte) : State :=
  { s with fab := { s.fab with ctrlOut := s.fab.ctrlOut ++ [(dst, payload)] } }

/-! ### Interrupts (R298, R308) -/

/-- Whether a window is open for bit `b`. -/
def winOpen (l : List (Nat × Bool)) (b : Nat) : Bool := l.any (fun e => e.1 == b)

/-- Note a cause inside the window of bit `b`. -/
def winMark (l : List (Nat × Bool)) (b : Nat) : List (Nat × Bool) :=
  l.map (fun e => if e.1 == b then (e.1, true) else e)

/-- The field of INT_STATUS bit `b`. -/
def intBit (b : Nat) : Fld := ⟨0x10014, b, 1⟩

/-- The interrupt message of bit `b`: INT_STATUS and HEARTBEAT (Table 14.10). -/
def intMsg (s : State) (b : Nat) : Msg :=
  .int b (s.word 0x10014).toNat (s.word 0x1000C).toNat

/-- A cause of a message for bit `b` (R308): send one and open a window, or note it in the open one. -/
def intCause (s : State) (b : Nat) : State :=
  { s with
    out := if winOpen s.intWin b then s.out else s.out ++ [intMsg s b]
    intWin := if winOpen s.intWin b then winMark s.intWin b else s.intWin ++ [(b, false)] }

/-- Hardware sets INT_STATUS bit `b`; a message follows if INT_MASK enables the bit. -/
def raiseInt (s : State) (b : Nat) : State :=
  let s1 := s.setFld (intBit b) 1
  if hasBit (s.word 0x10018).toNat b then intCause s1 b else s1

/-! ### Identity -/

/-- DIE_ID as GET_INFO gives it: bits [17:0], with bit 31 once assigned (Table 15.3). -/
def State.dieIdWord (s : State) : Nat :=
  match s.sec.dieId with
  | some d => d + 2 ^ 31
  | none => 0

/-- The die ID, 0 while none is assigned. -/
def State.myId (s : State) : Nat := s.sec.dieId.getD 0

/-! ### Event log (R377, R378, R398) -/

/-- The header copy in use: the valid one with the higher HDR_SEQ (R398); a fresh header where neither
copy is valid. -/
def EvLog.hdr (e : EvLog) : EvHdr :=
  if e.hdrA.valid then if e.hdrB.valid then if e.hdrA.hdrSeq < e.hdrB.hdrSeq then e.hdrB else e.hdrA
    else e.hdrA
  else if e.hdrB.valid then e.hdrB else {}

/-- Write the header: the copy not in use, HDR_SEQ one higher (R398). -/
def EvLog.writeHdr (e : EvLog) (h : EvHdr) : EvLog :=
  let h' := { h with valid := true, hdrSeq := e.hdr.hdrSeq + 1 }
  if e.hdrA.valid && !(e.hdrB.valid && decide (e.hdrA.hdrSeq < e.hdrB.hdrSeq)) then { e with hdrB := h' }
  else { e with hdrA := h' }

/-- No record in a slot. -/
def noRec (_ : Nat) : Option EvRec := none

/-- The records whose FORMAT and CRC are valid, by rising SEQ (R378). -/
def EvLog.records (e : EvLog) : List EvRec :=
  ((e.slots.filterMap (fun x => x.2)).filter (fun r => r.valid)).mergeSort (fun a b => a.seq ≤ b.seq)

/-- Next SEQ: the highest valid one plus 1, or 0 (R378). -/
def EvLog.scanSeq (e : EvLog) : Nat :=
  (e.slots.filterMap (fun x => x.2)).foldl (fun m r => if r.valid then max m (r.seq + 1) else m) 0

/-- Write an event-log record of KIND `kind` with 24 bytes of DETAIL (Table 17.8). -/
def writeEvent (s : State) (kind : Nat) (detail : List Byte) : State :=
  let r : EvRec :=
    { kind := kind, seq := s.ev.nextSeq, ns := s.ns, dieId := s.dieIdWord, dieState := s.dieState.code
      band := s.pow.band, temp := s.fld Reg.tempNow_temp
      sensor := s.fld Reg.tempNow_sensor, levels := s.fld Reg.tempNow_levels, s := s.pow.s
      bus := s.fld Reg.busNow_bus, power := s.fld Reg.powerRound_last
      detail := slice detail 0 24, valid := true }
  { s with ev := { s.ev with slots := sset noRec s.ev.slots (s.ev.nextSeq % 1024) (some r), nextSeq := s.ev.nextSeq + 1 } }

/-- Write the event-log header from a changed copy of the header in use, with ALIVE_S (R391). -/
def writeHeader (s : State) (g : EvHdr → EvHdr) : State :=
  { s with ev := s.ev.writeHdr { g s.ev.hdr with aliveS := s.aliveS } }

/-- The 64 bytes of a record as EVENT_LOG_READ returns it (Table 17.8). -/
def EvRec.bytes (r : EvRec) : List Byte :=
  let b := leBytes 1 1 ++ leBytes 1 r.kind ++ leBytes 2 0 ++ leBytes 4 r.seq ++ leBytes 8 r.ns
    ++ leBytes 4 r.dieId ++ leBytes 1 r.dieState ++ leBytes 1 r.band ++ leBytes 2 r.temp
    ++ leBytes 1 r.sensor ++ leBytes 1 r.levels ++ leBytes 1 r.s ++ leBytes 1 0 ++ leBytes 2 r.bus
    ++ leBytes 2 r.power ++ r.detail ++ leBytes 4 0
  b ++ leBytes 4 (crc32c b).toNat

/-! ### Fault log (R384 to R386) -/

/-- Domain generation by code: DOMAIN_STAT, or DIE_GEN for the whole die and the router islands, which
lie with the always-on control domain (DEDUCED, log entry 10). -/
def State.dgenOf (s : State) (c : Nat) : Nat :=
  if domainCode c then s.fld (Reg.domainStat_dgen c) else s.ev.hdr.dieGen

/-- The context a fault record names. -/
structure FaultCtx where
  tenant : Option Nat := none
  seqId  : Nat := 0
  seqGen : Nat := 0
  deriving DecidableEq, Repr

/-- The context of a position. -/
def ctxOf (c : Ctx) : FaultCtx := { tenant := some c.tenant, seqId := c.seqId, seqGen := c.seqGen }

/-- Whether a fault merges into the newest record (R385). -/
def merges (s : State) (r : FaultRec) (cause domain kind locus : Nat) : Bool :=
  r.cause == cause && r.domain == domain && r.locusKind == kind && r.locus == locus
    && decide (s.ns ≤ r.ns + 1000000000)

/-- Record a fault: merged under R385, or written as a new record, the oldest overwritten when the log
holds 32, with INT_STATUS.FAULT set (R384). -/
def recordFault (s : State) (cls cause domain kind locus : Nat) (ctx : FaultCtx) (syn : List Byte) : State :=
  match s.faults.getLast? with
  | some r =>
    if merges s r cause domain kind locus then
      { s with faults := s.faults.dropLast ++ [{ r with count := min 0xFFFF (r.count + 1), lastNs := s.ns }] }
    else new
  | none => new
where
  /-- Write a new record. -/
  new : State :=
    let r : FaultRec :=
      { cls := cls, cause := cause, seq := s.fld Reg.faultTotal_total, ns := s.ns, lastNs := s.ns
        domain := domain, dgen := s.dgenOf domain, tenant := ctx.tenant, seqId := ctx.seqId
        seqGen := ctx.seqGen, locus := locus, locusKind := kind, slot := s.slot, count := 1
        beat := s.beat % 2 ^ 32, syndrome := slice syn 0 16 }
    let full := decide (32 ≤ s.faults.length)
    let s1 := { s with faults := (if full then s.faults.drop 1 else s.faults) ++ [r] }
    let s2 := s1.count Reg.faultTotal_total 1
    let s3 := if full then s2.count Reg.faultLost_lost 1 else s2
    raiseInt s3 9

/-- The 64 bytes of a fault record (Table 18.2). -/
def FaultRec.bytes (r : FaultRec) : List Byte :=
  leBytes 1 1 ++ leBytes 1 r.cls ++ leBytes 2 r.cause ++ leBytes 4 r.seq ++ leBytes 8 r.ns
    ++ leBytes 8 r.lastNs ++ leBytes 2 r.domain ++ leBytes 2 r.dgen
    ++ leBytes 4 (match r.tenant with | some t => t + 2 ^ 31 | none => 0)
    ++ leBytes 4 r.seqId ++ leBytes 2 r.seqGen ++ leBytes 2 r.locus ++ leBytes 1 r.locusKind
    ++ leBytes 1 r.slot ++ leBytes 2 r.count ++ leBytes 4 r.beat ++ r.syndrome

/-! ### Die state (R404, R405) -/

/-- The die is in JOINED, LOADED, SERVING or DRAINING (Table 19.4, JOINED+). -/
def joinedPlus (d : DieState) : Bool :=
  match d with
  | .joined => true | .loaded => true | .serving => true | .draining => true
  | .off => false | .romBoot => false | .identified => false | .configured => false
  | .holdover => false | .outOfStep => false | .outOfService => false | .thermalShutdown => false

/-- Change the die state: INT_STATUS.DIE_STATE is set and a health report becomes due (R405). -/
def enterState (s : State) (d : DieState) : State :=
  raiseInt { s with dieState := d, healthEv := setBit s.healthEv 3 } 13

/-- A domain of Table 17.1 is powered. -/
def State.powered (s : State) (d : Nat) : Bool := hasBit s.pow.pdOn d

/-! ### Jobs (R307) -/

/-- The default mailbox, read outside the list of eight. -/
def noMbx : Mailbox := {}

/-- Mailbox `m`. -/
def State.mb (s : State) (m : Nat) : Mailbox := getAt noMbx s.mbx m

/-- Change mailbox `m`. -/
def State.updMb (s : State) (m : Nat) (g : Mailbox → Mailbox) : State := { s with mbx := updAt s.mbx m g }

/-- A job slot read outside the eight. -/
def noJob : Job := {}

/-- Job `slot` of mailbox `m`. -/
def State.job (s : State) (m slot : Nat) : Job := getAt noJob (s.mb m).jobs slot

/-- Change job `slot` of mailbox `m`. -/
def State.updJob (s : State) (m slot : Nat) (g : Job → Job) : State :=
  s.updMb m (fun b => { b with jobs := updAt b.jobs slot g })

/-- The 32 bytes of a job record (Table 14.8). -/
def Job.bytes (j : Job) : List Byte :=
  match j.state with
  | .free => List.replicate 32 0
  | _ => leBytes 2 j.jobNo ++ leBytes 2 j.opcode ++ leBytes 1 j.state.code ++ leBytes 1 j.status
    ++ leBytes 2 j.progress ++ leBytes 4 j.tag ++ leBytes 4 0 ++ leBytes 8 j.doneTime ++ slice j.detail 0 8

/-- The manager obeyed: PRIMARY of the obeyed map (R19, R310). -/
def State.manager (s : State) : Option Nat := s.sec.map.map (fun t => t.primary)

/-- MBX_EVENT (Table 14.11): KIND 0x2A, EVENT, JOB_NO, TAG and 32 bytes of record. -/
def mbxEvent (event jobNo tag : Nat) (rec : List Byte) : List Byte :=
  leBytes 1 0x2A ++ leBytes 1 event ++ leBytes 2 jobNo ++ leBytes 4 tag ++ slice rec 0 32

/-- A RUNNING job reaches DONE with `status` and 8 bytes of DETAIL; its owner is signalled (R307). -/
def jobDone (s : State) (m slot status : Nat) (detail : List Byte) : State :=
  if (s.job m slot).state = .running then
    let s1 := s.updJob m slot (fun j => { j with state := .done, status := status, detail := slice detail 0 8, doneTime := s.ns })
    if m = 7 then
      match s.manager with
      | some d => s1.sendCtrl d (mbxEvent 2 (s1.job m slot).jobNo (s1.job m slot).tag (s1.job m slot).bytes)
      | none => s1
    else raiseInt s1 8
  else s

/-- Finish a job given as mailbox and slot, if there is one. -/
def finish (s : State) (j : Option (Nat × Nat)) (status : Nat) (detail : List Byte) : State :=
  match j with
  | some (m, k) => jobDone s m k status detail
  | none => s

/-- RUNNING jobs with opcode `op`, as mailbox and slot, in mailbox and slot order. -/
def State.jobsOf (s : State) (op : Nat) : List (Nat × Nat) :=
  (List.range 8).flatMap (fun m => (List.range 8).filterMap (fun k =>
    let j := s.job m k
    if j.state = .running ∧ j.opcode = op then some (m, k) else none))

/-- Every RUNNING job ends JOB_ABANDONED (R316). -/
def abandonJobs (s : State) : State :=
  ((List.range 8).flatMap (fun m => (List.range 8).map (fun k => (m, k)))).foldl
    (fun t e => jobDone t e.1 e.2 0x08 []) s

/-- Every RUNNING job of opcode `op` ends with `status`. -/
def finishAll (s : State) (op status : Nat) (detail : List Byte) : State :=
  (s.jobsOf op).foldl (fun t e => jobDone t e.1 e.2 status detail) s

/-- Jobs in RUNNING on all mailboxes (CORE_STATUS.JOBS_ACTIVE). -/
def State.jobsActive (s : State) : Nat :=
  s.mbx.foldl (fun n b => n + (b.jobs.filter (fun j => j.state == .running)).length) 0

/-! ### Memory -/

/-- Read `n` bytes of HBM or SRAM. -/
def State.read (s : State) (a n : Nat) : List Byte := rdBytes s.mem a n

/-- Write bytes of HBM or SRAM. A granule that the write replaces whole is correct again (R219, R381). -/
def State.write (s : State) (a : Nat) (bs : List Byte) : State :=
  { s with
    mem := wrBytes s.mem a bs
    ue := s.ue.filter (fun g => !(decide (a ≤ g * 32) && decide (g * 32 + 32 ≤ a + bs.length)))
    sue := s.sue.filter (fun g => !(decide (a ≤ g * 8) && decide (g * 8 + 8 ≤ a + bs.length))) }

end Sys2Proof.Machine
end

