-- ==== Sys2Proof/Machine/Operands.lean ====
section
/-! DEFINITION. Operand forms of the mailbox commands: the header and argument bytes of the command area
(R305), buffers (R314), the command table (Table 15.1), the common checks of Table 14.7 in their order,
and the answer (R306, R307). -/

namespace Sys2Proof.Machine

/-! ### Header and arguments -/

/-- The command header (Table 14.5). -/
structure CmdHdr where
  opcode : Nat
  hdrVer : Nat
  flags  : Nat
  tag    : Nat
  argLen : Nat
  resv   : Nat
  deriving DecidableEq, Repr

/-- The header of a command area. -/
def cmdHdr (cmd : List Byte) : CmdHdr :=
  { opcode := fieldAt cmd 0 2, hdrVer := fieldAt cmd 2 1, flags := fieldAt cmd 3 1
    tag := fieldAt cmd 4 4, argLen := fieldAt cmd 8 2, resv := fieldAt cmd 10 6 }

/-- The argument bytes: ARG_LEN bytes from offset 16 (R305). -/
def cmdArgs (cmd : List Byte) : List Byte := (cmd.drop 16).take (cmdHdr cmd).argLen

/-- HDR_VER other than 0x01, reserved bits set, or ARG_LEN above 240 (Table 14.7, BAD_HEADER). -/
def badHeader (h : CmdHdr) : Bool :=
  h.hdrVer != 1 || decide (1 < h.flags) || h.resv != 0 || decide (240 < h.argLen)

/-- Mailbox classes (Table 14.2). -/
inductive MClass where
  | plat | mgr | host | any
  deriving DecidableEq, Repr

/-- Mailboxes of a class (Table 14.2). -/
def MClass.accepts : MClass → Nat → Bool
  | .plat, m => m == 0
  | .mgr, m => m == 0 || m == 7
  | .host, m => decide (m < 7)
  | .any, _ => true

/-- States of Table 15.1 as a bit mask over the CORE_STATUS codes. -/
def stI : Nat := 2 ^ 2
def stC : Nat := 2 ^ 3
def stJ : Nat := 2 ^ 4
def stL : Nat := 2 ^ 5
def stS : Nat := 2 ^ 6
def stD : Nat := 2 ^ 7
def stH : Nat := 2 ^ 8
def stX : Nat := 2 ^ 9
def stV : Nat := 2 ^ 10
def stT : Nat := 2 ^ 11

/-- "All": every state from I to T. -/
def stAll : Nat := stI + stC + stJ + stL + stS + stD + stH + stX + stV + stT

/-- C, J, L, S, D, H, X. -/
def stCX : Nat := stC + stJ + stL + stS + stD + stH + stX

/-- One row of Table 15.1: opcode, class, states, job, least and greatest ARG_LEN. -/
structure CmdSpec where
  op     : Nat
  cls    : MClass
  states : Nat
  job    : Bool
  argLo  : Nat
  argHi  : Nat
  deriving DecidableEq, Repr

/-- Table 15.1. SEQ_SUBMIT and DOMAIN_RESET 0x0FF have their own rules for states and jobs. -/
def cmdTable : List CmdSpec := [
  ⟨0x0001, .any, stAll, false, 0, 232⟩, ⟨0x0002, .any, stAll, false, 0, 0⟩, ⟨0x0003, .any, stAll, false, 0, 0⟩,
  ⟨0x0101, .plat, stI, false, 4, 4⟩, ⟨0x0102, .plat, stI, false, 4, 4⟩, ⟨0x0103, .plat, stI + stC, false, 8, 8⟩,
  ⟨0x0104, .plat, stI + stCX, true, 0, 0⟩, ⟨0x0105, .plat, stI, false, 0, 0⟩,
  ⟨0x0106, .plat, stI + stCX, true, 16, 16⟩, ⟨0x0107, .plat, stCX, true, 16, 16⟩,
  ⟨0x0108, .plat, stCX, false, 108, 108⟩, ⟨0x0109, .plat, stCX, false, 4, 4⟩,
  ⟨0x010A, .plat, stI + stCX + stV, true, 16, 16⟩, ⟨0x010B, .any, stCX + stV, true, 40, 40⟩,
  ⟨0x010C, .any, stAll, false, 0, 0⟩, ⟨0x010D, .plat, stCX, true, 16, 16⟩,
  ⟨0x0201, .mgr, stX, true, 0, 0⟩, ⟨0x0202, .any, stAll, false, 8, 8⟩,
  ⟨0x0203, .any, stCX - stC, true, 40, 40⟩, ⟨0x0204, .plat, stCX, false, 24, 24⟩,
  ⟨0x0205, .plat, stCX, false, 4, 4⟩, ⟨0x0206, .any, stL + stS + stD + stH, false, 32, 32⟩,
  ⟨0x0207, .any, stL + stS + stD + stH + stX, false, 4, 4⟩] ++ [
  ⟨0x0301, .mgr, stJ + stL + stS, true, 16, 16⟩, ⟨0x0302, .mgr, stJ + stL, false, 0, 0⟩,
  ⟨0x0303, .mgr, stJ, true, 4, 4⟩, ⟨0x0304, .mgr, stJ + stL + stS + stD + stH, true, 16, 16⟩,
  ⟨0x0305, .mgr, stJ + stL, true, 16, 16⟩, ⟨0x0306, .mgr, stL, false, 8, 8⟩, ⟨0x0307, .mgr, stS, true, 4, 4⟩,
  ⟨0x0308, .mgr, stL + stS, false, 0, 0⟩, ⟨0x0309, .mgr, stL + stS + stH, true, 4, 4⟩,
  ⟨0x030A, .mgr, stL + stS + stH, true, 8, 8⟩, ⟨0x030B, .mgr, stL + stS + stH + stX, true, 0, 0⟩,
  ⟨0x030C, .any, stL + stS + stD + stH, true, 64, 64⟩, ⟨0x030D, .any, stL + stS + stD + stH + stX, false, 4, 4⟩,
  ⟨0x030E, .any, stL + stS + stD + stH, true, 24, 24⟩] ++ [
  ⟨0x0401, .any, stAll, true, 40, 40⟩, ⟨0x0402, .any, stAll, false, 8, 8⟩, ⟨0x0403, .any, stAll, false, 8, 8⟩,
  ⟨0x0404, .any, stAll, false, 8, 8⟩, ⟨0x0405, .any, stAll, false, 4, 4⟩, ⟨0x0406, .any, stAll, true, 0, 0⟩,
  ⟨0x0407, .plat, stCX, false, 16, 16⟩,
  ⟨0x0501, .plat, stCX, true, 12, 12⟩, ⟨0x0502, .plat, stAll, false, 4, 4⟩, ⟨0x0503, .plat, stT, false, 0, 0⟩,
  ⟨0x0504, .plat, stI + stCX + stV, true, 4, 4⟩, ⟨0x0505, .any, stAll, false, 16, 16⟩,
  ⟨0x0506, .plat, stAll, false, 16, 16⟩, ⟨0x0507, .plat, stV, false, 4, 4⟩]

/-- The row of an opcode. -/
def cmdSpec (op : Nat) : Option CmdSpec := cmdTable.find? (fun c => c.op == op)

/-- The common checks of Table 14.7 down to the ARG_LEN part of BAD_ARGS: 0 if all pass. -/
def commonStatus (s : State) (m : Nat) (h : CmdHdr) : Nat :=
  if badHeader h then 0x02
  else match cmdSpec h.opcode with
  | none => 0x03
  | some c =>
    if !c.cls.accepts m then 0x04
    else if !hasBit c.states s.dieState.code then 0x05
    else 0

/-- Whether ARG_LEN is the one Table 15.1 gives. -/
def argLenOk (h : CmdHdr) : Bool :=
  match cmdSpec h.opcode with
  | some c => decide (c.argLo ≤ h.argLen) && decide (h.argLen ≤ c.argHi)
  | none => false

/-! ### Answers -/

/-- Write the response of a command: header of Table 14.6, data, state RESPONDED, and the signal unless
NO_INT (R303, R306, R310). -/
def respond (s : State) (m : Nat) (h : CmdHdr) (accept status jobNo : Nat) (data : List Byte) : State :=
  let hd := leBytes 2 h.opcode ++ leBytes 1 status ++ leBytes 1 (b2n (jobNo != 0)) ++ leBytes 4 h.tag
    ++ leBytes 2 (min 232 data.length) ++ leBytes 2 jobNo ++ leBytes 4 0 ++ leBytes 8 accept
  let resp := slice (hd ++ data.take 232) 0 256
  let s1 := s.updMb m (fun b => { b with state := .responded, resp := resp })
  if hasBit h.flags 0 then s1
  else if m = 7 then
    match (s.mb m).submitter with
    | some d => s1.sendCtrl d (mbxEvent 1 0 h.tag (slice resp 0 24))
    | none => s1
  else raiseInt s1 m

/-- The lowest FREE job slot of mailbox `m` (R307). -/
def freeSlot (s : State) (m : Nat) : Option Nat :=
  (List.range 8).find? (fun k => (s.job m k).state == .free)

/-- The next job generation of a slot (R307). -/
def nextGen (g : Nat) : Nat := if g = 0x3FF then 1 else g + 1

/-- The job number of the next job in `slot` of mailbox `m` (R307). -/
def nextJobNo (s : State) (m slot : Nat) : Nat := nextGen (s.job m slot).gen * 64 + m * 8 + slot

/-- Start a job in `slot`: RUNNING, with the command's opcode, tag and arguments (R307). -/
def startJob (s : State) (m slot : Nat) (h : CmdHdr) (args : List Byte) : State :=
  s.updJob m slot (fun j =>
    { state := .running, gen := nextGen j.gen, jobNo := nextJobNo s m slot, opcode := h.opcode, status := 0
      progress := 0, tag := h.tag, doneTime := 0, detail := List.replicate 8 0, args := args })

/-- What a command does once its checks have passed: an immediate effect with response data, or a job,
whose start is given its slot; `jobData` answers ACCEPTED with data. -/
inductive CmdAct where
  | now (f : List Byte → State → State × List Byte)
  | job (f : List Byte → Nat → State → State)
  | jobData (d : List Byte → State → List Byte) (f : List Byte → Nat → State → State)

/-- The mailbox the core serves next (R304): MBX0, then MBX7, then MBX1 to MBX6 round-robin after the last one served; none
where none is RUNNING, or while the core cannot take a command. -/
def nextMailbox (s : State) : Option Nat :=
  if !s.coreUp || s.dieState == .off || s.dieState == .romBoot then none
  else ([0, 7] ++ (List.range 6).map (fun j => (s.rr + j) % 6 + 1)).find? (fun m => (s.mb m).state == MbxState.running)

/-- The acceptance of a command counts in MBX_CNT.COMMANDS (Table 14.3), and a mailbox of MBX1 to MBX6 becomes the one served
last (R304). -/
def State.cmdCounted (s : State) (m : Nat) : State :=
  { s.updMb m (fun b => { b with commands := min 0xFFFF (b.commands + 1) }) with rr := if 1 ≤ m ∧ m ≤ 6 then m else s.rr }

/-- The control core takes the command pending in mailbox `m`, whose opcode is `op` (R304 to R307). A mailbox that it does not
serve next, and a valid command of another opcode, leave the state unchanged (log entry 11). The acceptance counts in MBX_CNT.COMMANDS; the first
failing check of Table 14.7 is answered and has no other effect (R306). -/
def takeCommand (m op : Nat) (badState badArgs : List Byte → State → Bool)
    (refuse : List Byte → State → Option (Nat × List Byte)) (act : CmdAct) (s : State) : State :=
  let b := s.mb m
  let h := cmdHdr b.cmd
  let args := cmdArgs b.cmd
  if nextMailbox s != some m then s
  else if !badHeader h && (cmdSpec h.opcode).isSome && h.opcode != op then s
  else
    let s0 := s.cmdCounted m
    let t := s.ns
    let st := commonStatus s m h
    if st ≠ 0 then respond s0 m h t st 0 []
    else if badState args s then respond s0 m h t 0x05 0 []
    else if !argLenOk h || badArgs args s then respond s0 m h t 0x06 0 []
    else match refuse args s with
    | some (code, data) => respond s0 m h t code 0 data
    | none =>
      match act with
      | .now f =>
        let r := f args s0
        respond r.1 m h t 0x00 0 r.2
      | .job f =>
        match freeSlot s m with
        | none => respond s0 m h t 0x07 0 []
        | some k =>
          let s1 := startJob s0 m k h args
          f args k (respond s1 m h t 0x01 (nextJobNo s m k) [])
      | .jobData d f =>
        match freeSlot s m with
        | none => respond s0 m h t 0x07 0 []
        | some k =>
          let s1 := startJob s0 m k h args
          f args k (respond s1 m h t 0x01 (nextJobNo s m k) (d args s0))

/-- The status of the command-specific refusal with which the control core answers a command of opcode `op` in mailbox `m`:
none where no command is taken, an earlier check of Table 14.7 fails, or nothing refuses it. -/
def refusal (m op : Nat) (badArgs : List Byte → State → Bool) (refuse : List Byte → State → Option (Nat × List Byte)) (s : State) : Option Nat :=
  let h := cmdHdr (s.mb m).cmd
  let args := cmdArgs (s.mb m).cmd
  if nextMailbox s != some m then none
  else if h.opcode ≠ op ∨ commonStatus s m h ≠ 0 then none
  else if !argLenOk h || badArgs args s then none
  else (refuse args s).map (fun r => r.1)

/-- No further BAD_STATE or BAD_ARGS condition. -/
def never (_ : List Byte) (_ : State) : Bool := false

/-- No command-specific refusal. -/
def accepted (_ : List Byte) (_ : State) : Option (Nat × List Byte) := none

/-! ### Buffers (R314) -/

/-- HBM region of Table 10.1: the stack (side) of an address below 0x24_0000_0000. -/
def hbmEnd : Nat := 0x2400000000
def stackEnd : Nat := 0x1200000000

/-- SRAM window of Table 10.1: 64 fields of 2 MiB from 0x3E00_0000_0000. -/
def sramBase : Nat := 0x3E0000000000
def sramEnd : Nat := 0x3E0008000000

/-- CSR space: 64 MiB from 0x3F00_0000_0000. -/
def csrBase : Nat := 0x3F0000000000
def csrEnd : Nat := 0x3F0004000000

/-- Offset of an address of the register region in it. -/
def csrOff (a : Nat) : Nat := a % 0x4000000

/-- The side (stack) of an HBM address. -/
def hbmSide (a : Nat) : Nat := if a < stackEnd then 0 else 1

/-- The field of an SRAM address. -/
def sramField (a : Nat) : Nat := (a - sramBase) / 0x200000

/-- A domain is in a DOMAIN_RESET that holds it. -/
def State.inReset (s : State) (c : Nat) : Bool := s.domResets.any (fun r => r.domain == c && r.inReset)

/-- A domain code is marked retired in the event-log header (R392). -/
def State.retiredDom (s : State) (c : Nat) : Bool := hasBit s.ev.hdr.retired c

/-- The HBM of a stack answers: its domain is powered, not in reset and not retired (R309). -/
def State.hbmPresent (s : State) (side : Nat) : Bool :=
  s.powered (70 + side) && !s.inReset (0x50 + side) && !s.retiredDom (0x50 + side)

/-- The SRAM of a field answers: PD_Ff is on and the field is not in reset. -/
def State.sramPresent (s : State) (f : Nat) : Bool := s.powered f && !s.inReset f

/-- A byte range lies in present HBM or SRAM; a range may span both stacks or several fields. -/
def State.rangePresent (s : State) (a len : Nat) : Bool :=
  if a + len ≤ hbmEnd then
    s.hbmPresent (hbmSide a) && s.hbmPresent (hbmSide (a + (len - 1)))
  else if sramBase ≤ a ∧ a + len ≤ sramEnd then
    (List.range 64).all (fun f => !(decide (sramField a ≤ f) && decide (f ≤ sramField (a + (len - 1)))) || s.sramPresent f)
  else false

/-- A protected range of R215: its base and last line, if it is valid. Range 0 covers both shard slots at all times (R224). -/
def State.protRange (s : State) (n : Nat) : Option (Nat × Nat) :=
  if n = 0 then some (0, 2 ^ 33 - 1)
  else if hasBit (s.fld Reg.protValid_valid) n then
    some ((s.word (Reg.protBase_base n).reg).toNat * 64, (s.word (Reg.protLimit_limit n).reg).toNat * 64 + 63)
  else none

/-- A byte range overlaps a valid protected range among `ns`. -/
def State.protHit (s : State) (ns : List Nat) (a len : Nat) : Bool :=
  ns.any (fun n => match s.protRange n with
    | some (b, l) => decide (a ≤ l) && decide (b < a + len)
    | none => false)

/-- A buffer the die reads is usable (R314). -/
def bufOk (s : State) (a len : Nat) : Bool := a % 64 == 0 && s.rangePresent a len

/-- A buffer the die writes is usable (R314). -/
def wbufOk (s : State) (a len : Nat) : Bool := bufOk s a len && !s.protHit (List.range 16) a len

end Sys2Proof.Machine
end

