-- ==== Sys2Proof/Machine/SchedOps.lean ====
section
/-! DEFINITION. The installed schedule image's tables and the vector positions of a step: section
lookup, step plan, positions, and the failure of a micro-batch (R151 to R170). -/

namespace Sys2Proof.Machine

/-- The schedule fires its image. -/
def State.firing (s : State) : Bool := s.fld Reg.schedStatus_firing == 1

/-- A schedule image is installed. -/
def State.installed (s : State) : Bool := s.fld Reg.schedStatus_installed == 1

/-- START_BEAT (Table 8.12). -/
def State.startBeat (s : State) : Nat := s.fld Reg.startBeatHi_startHi * 2 ^ 32 + s.fld Reg.startBeatLo_startLo

/-- A section's bytes; empty where the image has none (Table 8.2). -/
def State.section (s : State) (typ inst : Nat) : List Byte :=
  match s.sched.secs.find? (fun x => x.typ == typ && x.inst == inst) with
  | some x => x.data
  | none => []

/-- The step-plan entry of a field (0 to 63) or of link n at 64 + n (R153). -/
def State.plan (s : State) (i : Nat) : Nat := fieldAt (s.section 1 0) (4 * i) 4

/-- Step length in beats of a plan entry. -/
def planBeats (e : Nat) : Nat := bits e 0 6 + 1

/-- Micro-batch of vector `v` in field `f` (Table 8.3). -/
def State.mbOf (s : State) (f v : Nat) : Nat := v / 2 ^ bits (s.plan f) 8 3

/-- The field holds the first stage of a pipeline. -/
def State.isEntry (s : State) (f : Nat) : Bool := hasBit (s.plan f) 11

/-- Beat within the current step of plan entry `i` while the die fires. -/
def State.stepBeat (s : State) (i : Nat) : Nat := (s.beat - s.startBeat) % planBeats (s.plan i)

/-- Number of the current step of plan entry `i`. -/
def State.stepNo (s : State) (i : Nat) : Nat := (s.beat - s.startBeat) / planBeats (s.plan i)

/-- No position known. -/
def noPos (_ : Nat) : Option Pos := none

/-- Position `v` of field `f` in its current step. -/
def State.posOf (s : State) (f v : Nat) : Option Pos := sget noPos s.sched.pos (f * 256 + v)

/-- Set a position. -/
def State.setPos (s : State) (f v : Nat) (p : Option Pos) : State :=
  { s with sched := { s.sched with pos := sset noPos s.sched.pos (f * 256 + v) p } }

/-- The position carries a vector: it has a context, and is neither null nor failed. -/
def State.live (s : State) (f v : Nat) : Bool :=
  match s.posOf f v with
  | some p => !p.null && !p.failed
  | none => false

/-- The vectors of a micro-batch of field `f`. -/
def State.mbVecs (s : State) (f mb : Nat) : List Nat := (List.range 256).filter (fun v => s.mbOf f v == mb)

/-- Whether the micro-batch of field `f` has failed in this step. -/
def State.mbFailed (s : State) (f mb : Nat) : Bool :=
  (s.mbVecs f mb).any (fun v => match s.posOf f v with
    | some p => p.failed
    | none => false)

/-- A position with no context: what a failure marks where no frame gave one. -/
def emptyCtx : Ctx :=
  { seqId := 0, seqGen := 0, adapter := 0, tenant := 0, cls := 0, prio := 0, tokenIdx := 0, token := 0, modelGen := 0 }

/-- Two contexts are of one vector: both name a sequence, and its generation and token. -/
def sameVector (a b : Ctx) : Bool :=
  a.seqId != 0 && a.seqId == b.seqId && a.seqGen == b.seqGen && a.tokenIdx == b.tokenIdx

/-- A vector of the micro-batch has already failed in another field of the die, so that the step's record is written
(R168: the failure of one micro-batch is one record). -/
def State.mbTold (s : State) (f mb : Nat) : Bool :=
  (s.mbVecs f mb).any (fun v => match s.posOf f v with
    | some p => s.sched.pos.any (fun e => match e.2 with
      | some q => q.failed && sameVector p.ctx q.ctx
      | none => false)
    | none => false)

/-- Mark the positions of a micro-batch failed. -/
def markFailed (s : State) (f mb : Nat) : State :=
  (s.mbVecs f mb).foldl (fun t v => match t.posOf f v with
    | some p => t.setPos f v (some { p with failed := true })
    | none => t) s

/-- Fail the micro-batch of vector `v` in field `f` (R168): its positions fail and STEP_FAIL_CNT counts
once. A position that no frame reached gets a failed empty context. -/
def failMb (s : State) (f v : Nat) : State :=
  let mb := s.mbOf f v
  if s.mbFailed f mb then markFailed s f mb
  else
    let s1 := match s.posOf f v with
      | some _ => s
      | none => s.setPos f v (some { ctx := emptyCtx, null := false, failed := true })
    (markFailed s1 f mb).count (Reg.stepFailCnt f) 1

/-- The context a fault record of vector `v` names. -/
def State.faultCtx (s : State) (f v : Nat) : FaultCtx :=
  match s.posOf f v with
  | some p => ctxOf p.ctx
  | none => {}

/-- Fail a micro-batch and write its one fault record in domain `d` (R168), if the micro-batch had not
failed before in this step, here or in another field. -/
def failStepIn (s : State) (d f v cause kind locus : Nat) (syn : List Byte) : State :=
  if s.mbFailed f (s.mbOf f v) || s.mbTold f (s.mbOf f v) then failMb s f v
  else recordFault (failMb s f v) (cause / 256) cause d kind locus (s.faultCtx f v) syn

/-- The same with the field's own domain. -/
def failStep (s : State) (f v cause kind locus : Nat) (syn : List Byte) : State :=
  failStepIn s f f v cause kind locus syn

/-- A LATE transfer found by field `f` for vector `v`: counted, and the micro-batch fails with cause
LATE (R167, R168, Table 18.3). -/
def lateField (s : State) (f v kind slot : Nat) : State :=
  failStep (s.count (Reg.lateCnt f) 1) f v 0x0101 2 f (leBytes 1 kind ++ leBytes 1 slot)

/-- The step of vector `v` in field `f` meets an uncorrectable error in a memory (R380): the error counts, and the micro-batch
fails with cause SRAM_UE. -/
def memFail (s : State) (f v mem off : Nat) : State :=
  failStep (s.count Reg.eccSram_uncorr 1) f v 0x0202 2 f (leBytes 1 mem ++ leBytes 3 0 ++ leBytes 4 off)

/-- The step reads `n` bytes of the field's SRAM from `off`: the failed state where a word of them is uncorrectable. -/
def sramFault (s : State) (f v off n : Nat) : Option State :=
  let a := sramBase + f * 0x200000 + off
  (s.sue.find? (fun g => decide (g * 8 < a + n) && decide (a < g * 8 + 8))).map (fun g => memFail s f v 0 ((g * 8 - sramBase) % 0x200000))

/-- The step reads `n` bytes from `off` of an installed table: the failed state where a word of them is uncorrectable. -/
def tableFault (s : State) (f v typ inst off n : Nat) : Option State :=
  (s.sched.badTab.find? (fun e => e.1 == typ && e.2.1 == inst && decide (e.2.2 * 8 < off + n) && decide (off < e.2.2 * 8 + 8))).map
    (fun e => memFail s f v 4 (8 * e.2.2))

/-- The step reads entry `i`, of `size` bytes, of a table, and the descriptors of unit `u` of field `f`. -/
def entryFault (s : State) (f v typ inst size i u : Nat) : Option State :=
  ((tableFault s f v typ inst (size * i) size).orElse (fun _ => tableFault s f v 8 f (16 * u) 16)).orElse
    (fun _ => tableFault s f v 9 f (16 * u) 16)

/-- Fields with a position in progress. -/
def State.activeFields (s : State) : List Nat := (List.range 64).filter (fun f => s.sched.pos.any (fun e => e.1 / 256 == f && e.2.isSome))

/-- Fail every micro-batch in progress in a field, without fault records; each counts once. -/
def failField (s : State) (f : Nat) : State :=
  (List.range 256).foldl (fun t v => match t.posOf f v with
    | some p => if p.failed || p.null then t else failMb t f v
    | none => t) s

/-- Fail every micro-batch in progress on the die, without fault records. -/
def failAllSteps (s : State) : State := s.activeFields.foldl failField s

/-- Stop firing: the positions of the running steps end, and no map outlives its serving (R165). -/
def stopFiring (s : State) : State :=
  let s1 := s.setFld Reg.schedStatus_firing 0
  { s1 with
    sched := { s1.sched with pos := [], startAt := none }
    seqs := { s1.seqs with maps := [], landed := [] } }

/-- Entry to OUT_OF_STEP (R144): every step in progress fails, one fault record of cause OUT_OF_STEP is
written, the die fires nothing further, and a DRAIN job is abandoned (R333). -/
def enterOutOfStep (s : State) : State :=
  let s1 := failAllSteps s
  let s2 := recordFault s1 1 0x0105 0xFF 0 0 {} (leBytes 1 s.time.state.code)
  let s3 := finishAll (stopFiring s2) 0x0307 0x08 []
  enterState s3 .outOfStep

end Sys2Proof.Machine
end

