-- ==== Sys2Proof/Machine/ShardOps.lean ====
section
/-! DEFINITION. The shard in HBM (R224 to R227): manifest, tile entries, tile images, weights; the unit
map (R242); unit generations (R237, R239). -/

namespace Sys2Proof.Machine

/-! ### Slots and manifest -/

/-- Local address of shard slot `n` (R224). -/
def slotBase (n : Nat) : Nat := n * 2 ^ 32

/-- The active slot holds the master copy. -/
def State.activeSlot (s : State) : Nat := s.fld Reg.shardStatus_activeSlot

/-- Address of the master copy. -/
def State.activeBase (s : State) : Nat := slotBase s.activeSlot

/-- Address of the staging slot. -/
def State.stageBase (s : State) : Nat := slotBase (1 - s.activeSlot)

/-- A little-endian field of HBM. -/
def State.hbm (s : State) (a n : Nat) : Nat := leNat (s.read a n)

/-- Address of tile `t`'s entry of a shard (Table 11.1). -/
def tileEntryAddr (base t : Nat) : Nat := base + 256 + 48 * t

/-- The tile is present in the shard (Table 11.2). -/
def State.tilePresent (s : State) (base t : Nat) : Bool := hasBit (s.hbm (tileEntryAddr base t + 12) 4) 0

/-- Layer unit whose weights the tile holds. -/
def State.tileUnit (s : State) (base t : Nat) : Nat := s.hbm (tileEntryAddr base t + 8) 4

/-- Address of a tile's image. -/
def State.imageAddr (s : State) (base t : Nat) : Nat := base + s.hbm (tileEntryAddr base t) 8

/-- First 8 bytes of a tile image's digest (Table 11.6). -/
def State.digest8 (s : State) (base t : Nat) : Nat := s.hbm (tileEntryAddr base t + 16) 8

/-- Model generation of a shard. -/
def State.shardGen (s : State) (base : Nat) : Nat := s.hbm (base + 12) 4

/-- Section count of a shard. -/
def State.shardSections (s : State) (base : Nat) : Nat := s.hbm (base + 28) 2

/-- Address of section entry `k` (Table 11.3). -/
def sectionAddr (base k : Nat) : Nat := base + 393472 + 64 * k

/-- SIG_OFF for a section count (Table 11.1). -/
def sigOff (sections : Nat) : Nat := 393472 + 64 * sections

/-- The shard digest: SHA-256 of bytes 0 to SIG_OFF − 1 (R225). -/
def State.shardDigest (s : State) (base : Nat) : List Byte :=
  leBytes 32 (Config.sha256 (s.read base (sigOff (s.shardSections base)))).toNat

/-! ### Slice maps and weights (Tables 4.1 to 4.3) -/

/-- A slice-map entry. -/
structure Slice where
  w     : Nat
  shift : Nat
  outs  : Nat
  lane  : Nat
  block : Nat
  deriving DecidableEq, Repr

/-- Fields of a slice-map entry. -/
def sliceOf (v : Nat) : Slice :=
  { w := bits v 0 3 + 1, shift := bits v 4 3, outs := bits v 8 9 + 1, lane := bits v 32 16, block := bits v 48 12 }

/-- Slice map of the tile image at an address. -/
def State.sliceAt (s : State) (img : Nat) : Slice := sliceOf (s.hbm (img + 16) 8)

/-- Slice map of a tile, from the master copy. -/
def State.sliceMap (s : State) (t : Nat) : Slice := s.sliceAt (s.imageAddr s.activeBase t)

/-- Two logical columns per weight. -/
def Slice.wide (x : Slice) : Bool := decide (5 ≤ x.w)

/-- Digit of a levels byte: L+ − L−. -/
def digitOf (b : Nat) : Int := (bits b 0 4 : Int) - (bits b 4 4 : Int)

/-- Target digit of row i, column j of a tile image (R226). -/
def State.imgDigit (s : State) (img i j : Nat) : Int := digitOf (s.hbm (img + 64 + 520 * i + j) 1)

/-- Weight of output j at row i of a tile image (R227). -/
def State.imgWeight (s : State) (img : Nat) (x : Slice) (i j : Nat) : Int :=
  if x.wide then 16 * s.imgDigit img i (2 * j) + s.imgDigit img i (2 * j + 1) else s.imgDigit img i j

/-- Key of a cell pair. -/
def cellKey (t i j : Nat) : Nat := (t * 512 + i) * 520 + j

/-- No digit: both levels alike. -/
def zeroInt (_ : Nat) : Int := 0

/-- Digit held by a cell pair. -/
def State.cell (s : State) (t i j : Nat) : Int := sget zeroInt s.grid.cells (cellKey t i j)

/-- Digit that row i of a column of a tile image asks of a cell pair; a granule that is uncorrectable gives no data, and the
cells go to a free digit (log entry 22). -/
def State.wantDigit (s : State) (img i j : Nat) : Int :=
  if s.ue.contains ((img + 64 + 520 * i + j) / 32) then ((Config.freeNat (s.free + i) % 31 : Nat) : Int) - 15 else s.imgDigit img i j

/-- Program row cells of column `j` of tile `t` from column `src` of a tile image. -/
def programColumn (s : State) (t j img src : Nat) : State :=
  { s with
    free := if s.ue.isEmpty then s.free else s.free + 512
    grid := { s.grid with
      cells := (List.range 512).foldl (fun c i => sset zeroInt c (cellKey t i j) (s.wantDigit img i src)) s.grid.cells } }

/-! ### Tiles -/

/-- A factory tile: nominal trims, no wear (log entry 16). -/
def noTile (_ : Nat) : Tile := {}

/-- Tile `t`. -/
def State.tile (s : State) (t : Nat) : Tile := sget noTile s.grid.tiles t

/-- Change tile `t`. -/
def State.updTile (s : State) (t : Nat) (g : Tile → Tile) : State :=
  { s with grid := { s.grid with tiles := sset noTile s.grid.tiles t (g (s.tile t)) } }

/-- Remap entry j as VALID, DEAD, COLUMN (R54). -/
def remapEntry (l : List Nat) (j : Nat) : Bool × Bool × Nat :=
  let e := getAt 0 l j
  (hasBit e 15, hasBit e 14, bits e 0 9)

/-- Spare columns in use: valid entries. -/
def remapCount (l : List Nat) : Nat := (l.filter (fun e => hasBit e 15)).length

/-- The physical logical column that serves logical column `c`, by the remap entries in force: a live spare,
none where only dead entries name `c`, and the column's own pair otherwise (R54). -/
def colSource (l : List Nat) (c : Nat) : Option Nat :=
  match (List.range 8).find? (fun j => let e := remapEntry l j; e.1 && !e.2.1 && e.2.2 == c) with
  | some j => some (512 + j)
  | none => if (List.range 8).any (fun j => let e := remapEntry l j; e.1 && e.2.2 == c) then none else some c

/-- The tile at a local index of a field. -/
def tileAt (f i : Nat) : Nat := (f / 8 * 8 + i / 16) * 128 + (f % 8) * 16 + i % 16

/-- The tiles of a field in ascending local index. -/
def fieldTiles (f : Nat) : List Nat := (List.range 128).map (tileAt f)

/-- Present and not retired in the active shard. -/
def State.usable (s : State) (t : Nat) : Bool := s.tilePresent s.activeBase t && !(s.tile t).live.retired

/-- A tile is usable for distance purposes: not retired (Table 2.5). -/
def State.tilesUsable (s : State) (f : Nat) : Nat :=
  ((fieldTiles f).filter (fun t => !(s.tile t).live.retired)).length

/-- A field's enable bit (R353). -/
def State.fieldEn (s : State) (f : Nat) : Bool :=
  hasBit (if f < 32 then s.fld Reg.fieldEnLo_en else s.fld Reg.fieldEnHi_en) (f % 32)

/-- Set or clear a field's enable bit. -/
def setFieldEn (s : State) (f : Nat) (v : Bool) : State :=
  s.setFld (if f < 32 then ⟨Reg.fieldEnLo_en.reg, f % 32, 1⟩ else ⟨Reg.fieldEnHi_en.reg, f % 32, 1⟩) (b2n v)

/-- A field runs: powered, enabled and not in reset. -/
def State.fieldRuns (s : State) (f : Nat) : Bool := s.sramPresent f && s.fieldEn f

/-! ### The unit map (R242) -/

/-- The unit map's bytes. -/
def State.unitMap (s : State) : List Byte := s.section 2 0

/-- Number of unit-map entries. -/
def State.unitCount (s : State) : Nat := fieldAt s.unitMap 0 4

/-- UNIT_ID of unit-map entry k. -/
def State.umUnit (s : State) (k : Nat) : Nat := fieldAt s.unitMap (8 + 48 * k) 4

/-- LAYER of unit-map entry k. -/
def State.umLayer (s : State) (k : Nat) : Nat := fieldAt s.unitMap (12 + 48 * k) 4

/-- FIELD_MASK of unit-map entry k. -/
def State.umFields (s : State) (k : Nat) : Nat := fieldAt s.unitMap (36 + 48 * k) 8

/-- UNIT_IDs of the map. -/
def State.units (s : State) : List Nat := (List.range s.unitCount).map s.umUnit

/-- Fields of a unit. -/
def State.unitFields (s : State) (u : Nat) : Nat :=
  match (List.range s.unitCount).find? (fun k => s.umUnit k == u) with
  | some k => s.umFields k
  | none => 0

/-- Unit generation of a unit never programmed. -/
def zeroNat (_ : Nat) : Nat := 0

/-- Unit generation (R237). -/
def State.unitGen (s : State) (u : Nat) : Nat := sget zeroNat s.shard.unitGen u

/-- Set a unit generation. -/
def setUnitGen (s : State) (u g : Nat) : State :=
  { s with shard := { s.shard with unitGen := sset zeroNat s.shard.unitGen u g } }

/-- The committed model generation. -/
def State.modelGen (s : State) : Nat := s.fld Reg.modelGenCur_gen

/-- Bad objects of the active slot (R231): key is the tile index, or 8192 + section index. -/
def State.objBad (s : State) (k : Nat) : Bool := s.shard.bad.contains k

/-- Mark an object of the active slot bad, with one fault record for each (R231). The manifest, which is neither a
tile image nor a section, is named as index 0 (log entry 21). -/
def markBad (s : State) (k : Nat) : State :=
  if s.shard.bad.contains k then s
  else
    let s1 := { s with shard := { s.shard with bad := s.shard.bad ++ [k] } }
    recordFault s1 2 0x0204 0xFF 0 0 {} (leBytes 1 (b2n (k / 8192 == 1)) ++ leBytes 1 0 ++ leBytes 2 (k % 8192))

/-! ### Uncorrectable data (R380, R381) -/

/-- An uncorrectable HBM granule of 32 bytes or SRAM word of 8 bytes lies in a range. -/
def State.ueIn (s : State) (a len : Nat) : Bool :=
  s.ue.any (fun g => decide (g * 32 < a + len) && decide (a < g * 32 + 32)) ||
    s.sue.any (fun g => decide (g * 8 < a + len) && decide (a < g * 8 + 8))

/-- Pseudo-channel of an HBM address (R263). -/
def State.pseudoChannel (s : State) (a : Nat) : Nat :=
  let side := hbmSide a
  let q := (a - side * stackEnd) / 1024
  let h := (Config.sip24 (getAt 0 s.sec.hbmKey side) (leBytes 4 (q / 64 % 2 ^ 21) ++ leBytes 4 side)).toNat
  (q % 64) ^^^ (h % 64)

/-- A read of HBM that meets uncorrectable granules (Table 18.1, R381): each counts, and one HBM_UE record names the
first and the requester (1 to 4 the class, 5 the host, 6 the control core). -/
def hbmUe (s : State) (a len req : Nat) : State :=
  let gs := s.ue.filter (fun g => decide (g * 32 < a + len) && decide (a < g * 32 + 32))
  match gs.head? with
  | none => s
  | some g0 =>
    let g := gs.foldl min g0
    let side := hbmSide (32 * g)
    let s1 := s.count (if side = 0 then Reg.eccHbm0_uncorr else Reg.eccHbm1_uncorr) gs.length
    recordFault s1 2 0x0201 (0x50 + side) 4 side {}
      (leBytes 8 (32 * g) ++ leBytes 1 (s.pseudoChannel (32 * g)) ++ leBytes 1 req)

/-- An uncorrectable error of a field's memory (R380): it counts, and an SRAM_UE record names the memory (0 SRAM, 1 accumulator,
2 Nettle store, 3 station buffer, 4 table) and the offset. -/
def memUe (s : State) (mem f off : Nat) (ctx : FaultCtx) : State :=
  recordFault (s.count Reg.eccSram_uncorr 1) 2 0x0202 f 2 f ctx (leBytes 1 mem ++ leBytes 3 0 ++ leBytes 4 off)

/-- A read of SRAM that meets uncorrectable words: one record names the first (R219, R380). -/
def sramUe (s : State) (a len : Nat) (ctx : FaultCtx) : State :=
  let gs := s.sue.filter (fun g => decide (g * 8 < a + len) && decide (a < g * 8 + 8))
  match gs.head? with
  | none => s
  | some g0 =>
    let g := gs.foldl min g0
    memUe s 0 (sramField (8 * g)) ((8 * g - sramBase) % 0x200000) ctx

/-- A read of HBM or SRAM that meets uncorrectable data. -/
def readUe (s : State) (a len req : Nat) : State := sramUe (hbmUe s a len req) a len {}

/-- A read of a tile image or section of the active slot (R231, R381): an uncorrectable granule makes the
object bad. -/
def readObject (s : State) (k a len : Nat) : State := if s.ueIn a len then markBad (readUe s a len 4) k else s

/-- Address of a field's SRAM byte. -/
def sramAddr (f off : Nat) : Nat := sramBase + f * 0x200000 + off

/-- Read a field's SRAM. -/
def State.sram (s : State) (f off n : Nat) : List Byte := s.read (sramAddr f off) n

/-- Write a field's SRAM. -/
def State.setSram (s : State) (f off : Nat) (bs : List Byte) : State := s.write (sramAddr f off) bs

/-- Lowest ENTRY field of the installed image (R269, R278). -/
def State.entryField (s : State) : Option Nat := (List.range 64).find? s.isEntry

/-- Bytes stored in a field's SRAM land as result records where they fill them (R278). -/
def landResults (s : State) (f off len : Nat) : State :=
  let base := s.fld Reg.resultOff_off
  if s.entryField ≠ some f ∨ off + len ≤ base ∨ base + 0x2000 ≤ off then s
  else { s with seqs := { s.seqs with
    landed := s.seqs.landed ++ (List.range 512).filter (fun k =>
      decide (off ≤ base + (k / 256 * 0x1000 + k % 256 * 16)) && decide (base + (k / 256 * 0x1000 + k % 256 * 16) + 16 ≤ off + len) &&
        !s.seqs.landed.contains k) } }

/-- A store of scheduled data into a field's SRAM. -/
def State.putSram (s : State) (f off : Nat) (bs : List Byte) : State := landResults (s.setSram f off bs) f off bs.length

/-- Read a field's Nettle store. -/
def State.store (s : State) (f off n : Nat) : List Byte := rdBytes s.grid.nettle (f * 2 ^ 20 + off) n

/-- Write a field's Nettle store. -/
def State.setStore (s : State) (f off : Nat) (bs : List Byte) : State :=
  { s with grid := { s.grid with nettle := wrBytes s.grid.nettle (f * 2 ^ 20 + off) bs } }

/-- The section of a shard loaded into its destination (Table 11.3, R236, R240). -/
def loadSection (s : State) (base k : Nat) : State :=
  let e := s.read (sectionAddr base k) 64
  let f := fieldAt e 2 2
  let data := s.read (base + fieldAt e 8 8) (fieldAt e 16 8)
  if fieldAt e 0 2 = 1 then s.setSram f (fieldAt e 4 4) data
  else if fieldAt e 0 2 = 2 then s.setStore f (fieldAt e 4 4) data
  else s

/-- Load every section that `p` selects by its field. -/
def loadSections (s : State) (base : Nat) (p : Nat → Bool) : State :=
  (List.range (s.shardSections base)).foldl (fun t k =>
    if p (t.hbm (sectionAddr base k + 2) 2) then loadSection t base k else t) s

end Sys2Proof.Machine
end

