-- ==== Sys2Proof/Machine/TileOps.lean ====
section
/-! DEFINITION. What one tile does in a slot (chapter 3): slot tables (R154), active rows and parts (R40,
R50), the converter (R44), commits into lanes or a shadow (R46, R74, R99), and claims on S slots (R51). -/

namespace Sys2Proof.Machine

/-! ### Slot tables -/

/-- Slot-table entries of a tile as 64-bit values (Table 8.4). -/
def State.slotEntries (s : State) (t : Nat) : List Nat :=
  let d := s.section 3 t
  (List.range (d.length / 8)).map (fun i => fieldAt d (8 * i) 8)

/-- Fields of a slot-table entry. -/
def seClass (e : Nat) : Nat := bits e 62 2
def seOp (e : Nat) : Nat := bits e 59 3
def seBeat (e : Nat) : Nat := bits e 53 6
def seSlot (e : Nat) : Nat := bits e 47 6
def seRun (e : Nat) : Nat := bits e 41 6
def sePlane (e : Nat) : Nat := bits e 38 3
def seUidx (e : Nat) : Nat := bits e 32 6
def seVec (e : Nat) : Nat := bits e 24 8
def sePaddr (e : Nat) : Nat := bits e 9 15

/-- First slot number of an entry in its step. -/
def seFirst (e : Nat) : Nat := seBeat e * 64 + seSlot e

/-- The entry that covers a slot of the step. -/
def State.entryAt (s : State) (t q : Nat) : Option Nat :=
  (s.slotEntries t).find? (fun e => decide (seFirst e ≤ q) && decide (q ≤ seFirst e + seRun e))

/-- S slots of a tile's step in ascending order. -/
def State.sSlots (s : State) (t : Nat) : List Nat :=
  (s.slotEntries t).flatMap (fun e => if seClass e = 2 then (List.range (seRun e + 1)).map (fun i => seFirst e + i) else [])

/-- The slot number, in the running step of field `f`, of slot `k` of this beat. -/
def State.stepSlot (s : State) (f k : Nat) : Nat := s.stepBeat f * 64 + k

/-- S slots available to a claim at slot `q` (R51): not begun and not reserved. -/
def State.sAvail (s : State) (t q : Nat) : List Nat :=
  (s.sSlots t).filter (fun x => decide (q < x) && !((s.tile t).res.any (fun r => r.slot == x)))

/-- The first DRIVE slot of vector `v` on a tile. -/
def State.firstDrive (s : State) (t v : Nat) : Option Nat :=
  ((s.slotEntries t).filter (fun e => seOp e == 1 && seVec e == v)).head?.map seFirst

/-- The tile is driven for unit index `u`. -/
def State.drives (s : State) (t u : Nat) : Bool := (s.slotEntries t).any (fun e => seOp e == 1 && seUidx e == u)

/-- UNIT_ID of unit index `u` of field `f`: that of a tile driven for it (DEDUCED, log entry 17). -/
def State.unitOf (s : State) (f u : Nat) : Nat :=
  match (fieldTiles f).find? (fun t => s.drives t u) with
  | some t => s.tileUnit s.activeBase t
  | none => Config.laneUnit f u

/-! ### Descriptors -/

/-- Unit descriptor word `w` of unit index `u` in field `f` (Table 4.7). -/
def State.udesc (s : State) (f u w : Nat) : Nat := fieldAt (s.section 8 f) (16 * u + 4 * w) 4

/-- Nettle descriptor word (Table 5.3). -/
def State.ndesc (s : State) (f u w : Nat) : Nat := fieldAt (s.section 9 f) (16 * u + 4 * w) 4

/-- Activation width a of a unit. -/
def State.actBits (s : State) (f u : Nat) : Nat := bits (s.udesc f u 0) 4 3 + 1

/-- Signed elements. -/
def State.actSigned (s : State) (f u : Nat) : Bool := hasBit (s.udesc f u 0) 7

/-- Significance of plane k (R72). -/
def sigma (a : Nat) (signed : Bool) (k : Nat) : Int :=
  if signed && k + 1 == a then - (2 ^ k : Nat) else ((2 ^ k : Nat) : Int)

/-! ### Rows and parts -/

/-- Rows whose bit is 1 in a plane of 64 bytes, ascending (R40). -/
def planeRows (bs : List Byte) : List Nat :=
  let v := leNat bs
  (List.range 512).filter (fun i => hasBit v i)

/-- Part j of 2^L parts by rank (R50's division). -/
def part {α : Type} (l : List α) (lvl j : Nat) : List α :=
  let lo := j * l.length / 2 ^ lvl
  let hi := (j + 1) * l.length / 2 ^ lvl
  (l.drop lo).take (hi - lo)

/-- Rows at full scale (Table 3.4). -/
def fullRows (range : Nat) : Nat := 32 * 2 ^ range

/-- Smallest level, at most 3, at which every part has at most 2N rows (R50). -/
def splitLevel (n nr : Nat) : Nat :=
  if n ≤ 2 * nr then 0 else if (n + 1) / 2 ≤ 2 * nr then 1 else if (n + 3) / 4 ≤ 2 * nr then 2 else 3

/-- Largest level up to `l` whose 2^L − 1 further parts fit the available S slots (R50). -/
def fitLevel (l avail : Nat) : Nat :=
  if 2 ^ l - 1 ≤ avail then l
  else if 2 ^ (l - 1) - 1 ≤ avail then l - 1
  else if 2 ^ (l - 2) - 1 ≤ avail then l - 2 else 0

/-! ### The converter (R44) -/

/-- Column result S(c) over active rows, with the remap entries in force; a column held inactive gives 0. -/
def colSum (s : State) (t : Nat) (eff : List Nat) (rows : List Nat) (c : Nat) : Int :=
  match colSource eff c with
  | some j => rows.foldl (fun a i => a + s.cell t i j) 0
  | none => 0

/-- Code and SAT for num / den LSB. -/
def roundCode (num : Int) (den : Nat) : Int × Bool :=
  let mag := num.natAbs
  if 255 * den ≤ 2 * mag then (if num < 0 then -127 else 127, true)
  else
    let c : Nat := (2 * mag + den) / (2 * den)
    (if num < 0 then -(c : Int) else (c : Int), false)

/-- Code and SAT for a column sum S in steps and an error in units of 2^-16 LSB, at a range: with
LSB = 15 × 2^RANGE / 4 steps, x = (4 S × 2^16 + err × 15 × 2^RANGE) / (15 × 2^RANGE × 2^16). -/
def convert (range : Nat) (sum err : Int) : Int × Bool :=
  let d : Nat := 15 * 2 ^ range
  roundCode (4 * sum * 65536 + err * (d : Int)) (d * 65536)

/-- The same under a converter's trims (R108, Table 6.1): gain 1 + 0.0005 (GAIN_TRIM − 128), and OFFSET_TRIM / 32 LSB at
RANGE 0, which is OFFSET_TRIM / (32 × 2^RANGE) LSB at RANGE. At the nominal trims, 128 and 0, it is `convert`. -/
def convertTrim (trim : Nat × Nat) (range : Nat) (sum err : Int) : Int × Bool :=
  if trim = (128, 0) then convert range sum err
  else
    let d : Nat := 15 * 2 ^ range
    let num : Int := 4 * sum * 65536 + err * (d : Int)
    roundCode (num * (1872 + trim.1 : Nat) + 61440000 * toSigned 8 trim.2) (d * 65536 * 2000)

/-- A spare (64 or 65) stands in, and for which converter (Table 3.14). -/
def cmActive (m k : Nat) : Bool := hasBit m ((k - 64) * 16 + 14)
def cmPerm (m k : Nat) : Bool := hasBit m ((k - 64) * 16 + 15)
def cmConv (m k : Nat) : Nat := bits m ((k - 64) * 16) 6

/-- The converter that converts converter k's columns now: its stand-in, or itself (R42, R55). -/
def converterOf (m k : Nat) : Nat :=
  match [64, 65].find? (fun y => cmActive m y && cmConv m y == k) with
  | some y => y
  | none => k

/-- Trims of the converter that converts logical column c. -/
def TileRec.trimOf (r : TileRec) (c : Nat) : Nat × Nat := getAt (128, 0) r.trims (converterOf r.convMap (c / 8))

/-- Codes of all 512 columns of one drive. -/
def convertAll (s : State) (t range : Nat) (rows : List Nat) (err : List Int) : List (Int × Bool) :=
  let eff := (s.tile t).remapEff
  let live := (s.tile t).live
  (List.range 512).map (fun c => convertTrim (live.trimOf c) range (colSum s t eff rows c) (getAt 0 err c))

/-- One row of Table 6.4: what a band sets for reads and pulses (R117). Voltages in mV. -/
def bandRow (band : Nat) : List Int :=
  if band = 0 then [200, 6, 10, 1100, -1200, 20, 8]
  else if band = 1 then [190, 6, 10, 1050, -1150, 20, 8]
  else if band = 2 then [180, 5, 11, 1000, -1100, 24, 10]
  else [170, 4, 12, 950, -1050, 28, 12]

/-- Read settings of a tile's last drive: V_READ, ramp and settle cycles. -/
def State.readSet (s : State) (t : Nat) : List Int := (bandRow (s.tile t).drove).take 3

/-- Waveform of a tile's last pulses: set and reset voltage, width in ns, most pulses for one cell. -/
def State.pulseSet (s : State) (t : Nat) : List Int := (bandRow (s.tile t).pulsed).drop 3

/-- A drive of a tile uses the read settings of the band in force at cycle 0 of its slot; a band changes at beat boundaries
only (R116, R117). -/
def noteDrive (s : State) (t : Nat) : State := s.updTile t (fun x => { x with drove := s.pow.band })

/-- The same for pulses. -/
def notePulse (s : State) (t : Nat) : State := s.updTile t (fun x => { x with pulsed := s.pow.band })

/-- Column value per code: 15 × 2^RANGE quarter-steps (R46). -/
def codeValue (range : Nat) (code : Int) : Int := code * ((15 * 2 ^ range : Nat) : Int)

/-! ### Lanes -/

/-- Key of an accumulator lane. -/
def laneKey (f l : Nat) : Nat := f * 65536 + l

/-- A lane's value. -/
def State.lane (s : State) (f l : Nat) : Int := sget zeroInt s.grid.lanes (laneKey f l)

/-- Set a lane, which holds 48 bits (R73). -/
def setLane (s : State) (f l : Nat) (v : Int) : State :=
  { s with grid := { s.grid with lanes := sset zeroInt s.grid.lanes (laneKey f l) (toSigned 48 (ofSigned 48 v)) } }

/-- A re-run of tile `t` for vector `v` holds a shadow. -/
def State.inRerun (s : State) (t v : Nat) : Bool := s.grid.shadows.any (fun h => h.tile == t && h.vec == v)

/-- Add contributions, as lane and value, to the lanes of field `f`, or to the shadow that the tile's re-run
for the vector holds (R53, R74, R99). -/
def addLanes (s : State) (f t v : Nat) (cs : List (Nat × Int)) : State :=
  if s.inRerun t v then
    { s with grid := { s.grid with
        shadows := s.grid.shadows.map (fun h =>
          if h.tile == t && h.vec == v then
            { h with lanes := cs.foldl (fun m c => sset zeroInt m c.1 (toSigned 48 (ofSigned 48 (sget zeroInt m c.1 + c.2)))) h.lanes }
          else h) } }
  else cs.foldl (fun a c => setLane a f c.1 (a.lane f c.1 + c.2)) s

/-- Lane contributions of a committed drive: V × σ × m × 2^BSHIFT for every used output (R64, R74). -/
def driveAdds (x : Slice) (sg : Int) (vals : List Int) : List (Nat × Int) :=
  (List.range 512).filterMap (fun c =>
    let j := if x.wide then c / 2 else c
    let m : Int := if x.wide && c % 2 == 0 then 16 else 1
    if j < x.outs then some (x.lane + j, getAt 0 vals c * sg * m * ((2 ^ x.shift : Nat) : Int)) else none)

/-! ### One drive -/

/-- RANGE in force. -/
def State.rangeOf (s : State) (t : Nat) : Nat := s.fld (Reg.tileStatus_rangeCur t)

/-- Count a drive in the range loop's window and close the window at the end of the drive that completes its
2^20th conversion (R47). -/
def windowCount (s : State) (t convs sat near : Nat) : State :=
  s.updTile t (fun x =>
    if 2 ^ 20 ≤ x.winConv + convs then
      { x with winConv := 0, winSat := 0, winNear := 0, closed := x.closed ++ [(x.winSat + sat, x.winNear + near)] }
    else { x with winConv := x.winConv + convs, winSat := x.winSat + sat, winNear := x.winNear + near })

/-- Count the conversions of one drive (Table 3.11) and in the range window. -/
def countDrive (s : State) (t : Nat) (codes : List (Int × Bool)) (n : Nat) : State :=
  let sat := (codes.filter (fun c => c.2)).length
  let nil := if n = 0 then 0 else (codes.filter (fun c => c.1 == 0)).length
  let near := (codes.filter (fun c => decide (64 ≤ c.1.natAbs))).length
  let s1 := ((s.count (Reg.convCnt t) 512).count (Reg.satCnt t) sat).count (Reg.zeroCnt t) nil
  windowCount s1 t 512 sat near

/-- Drive a part, check it at cycle 79, and commit, divide or clamp it (R52). -/
def drivePart (s : State) (f t q : Nat) (r : SRes) (err : List Int) : State :=
  let range := s.rangeOf t
  let codes := convertAll s t range r.rows err
  let s1 := countDrive (noteDrive s t) t codes r.rows.length
  let sat := (codes.filter (fun c => c.2)).length
  let avail := s1.sAvail t q
  if sat ≠ 0 ∧ r.level < r.limit ∧ 2 ≤ avail.length then
    s1.updTile t (fun x => { x with
      res := x.res ++ ((avail.take 2).zipIdx.map (fun (a, j) =>
        { r with slot := a, react := true, level := r.level + 1, rows := part r.rows 1 j })) })
  else
    let s2 := s1.count (Reg.clampCnt t) sat
    let vals := codes.map (fun c => codeValue range c.1)
    addLanes s2 f t r.vec (driveAdds (s2.sliceMap t) (sigma (s2.actBits f r.uidx) (s2.actSigned f r.uidx) r.plane) vals)

end Sys2Proof.Machine
end

