-- ==== Sys2Proof/Machine/NettleOps.lean ====
section
/-! DEFINITION. Nettle (chapter 5): thresholds, Nettle form, known rows, outlier products, the reference
contribution (R87), adapters (R101), and what a field holds about a vector. -/

namespace Sys2Proof.Machine

/-- Nothing scanned. -/
def noScan (_ : Nat) : Option Scan := none

/-- What field `f` holds about position `v`. -/
def State.scan (s : State) (f v : Nat) : Option Scan := sget noScan s.grid.scans (f * 256 + v)

/-- Set it. -/
def setScan (s : State) (f v : Nat) (x : Option Scan) : State :=
  { s with grid := { s.grid with scans := sset noScan s.grid.scans (f * 256 + v) x } }

/-- Change it, starting from an empty one of unit index `u`. -/
def updScan (s : State) (f v u : Nat) (g : Scan → Scan) : State :=
  setScan s f v (some (g ((s.scan f v).getD { uidx := u })))

/-! ### Threshold and alignment -/

/-- f × 128 of a threshold code (R92). -/
def tqFrac (m : Nat) : Nat := if m = 0 then 128 else if m = 1 then 152 else if m = 2 then 181 else 215

/-- τ of a signed 12-bit code, in units of 2^-519 (R92). -/
def tau (tq : Nat) : Int :=
  let c := toSigned 12 tq
  (tqFrac (c % 4).toNat : Int) * 2 ^ (c / 4 + 512).toNat

/-- The vector exponent that a returned word carries (Table 4.5). -/
def gOf (w : Nat) : Int := toSigned 10 w

/-- Analog-path value of an element: an excess element enters at sign(v) × τ (R97). -/
def anaVal (x : Scan) (e : El) : Int := if e.kind = 3 then (if e.v < 0 then -(tau x.tq) else tau x.tq) else e.v

/-- Clamp an integer, saying whether it changed. -/
def clampInt (lo hi v : Int) : Int × Bool := if v < lo then (lo, true) else if hi < v then (hi, true) else (v, false)

/-- a_i of an analog-path value (R71). -/
def alignVal (a : Nat) (signed : Bool) (g v : Int) : Int × Bool :=
  let q := rneInt v (2 ^ (g + fxShift).toNat)
  if signed then clampInt (-(2 ^ (a - 1) : Nat)) ((2 ^ (a - 1) : Nat) - 1) q else clampInt 0 ((2 ^ a : Nat) - 1) q

/-- Nettle form of an element (R74). -/
def nettleVal (g v : Int) : Int × Bool :=
  clampInt (-(2 ^ 23 - 1)) (2 ^ 23 - 1) (rneInt v (2 ^ (g - 2 + fxShift).toNat))

/-! ### Known rows (R94) -/

/-- Known-row entries from a store offset: up to `n`, ending at the first all-zero entry. -/
def knownRows (s : State) (f : Nat) : Nat → Nat → List Nat
  | 0, _ => []
  | n + 1, p => let e := leNat (s.store f p 8); if e = 0 then [] else e :: knownRows s f n (p + 8)

/-- Known-row table of a unit index. -/
def State.known (s : State) (f u : Nat) : List Nat := knownRows s f 131072 (bits (s.ndesc f u 2) 0 20)

/-- A row of a row block is known. -/
def isKnown (l : List Nat) (b r : Nat) : Bool := l.any (fun e => bits e 0 12 == b && bits e 12 9 == r)

/-- W_eff-less weight of output j at row r of tile `t`: from the known-row data if an entry names the tile,
from the master copy otherwise. -/
def rowWeight (s : State) (f t : Nat) (l : List Nat) (x : Slice) (r j : Nat) : Int :=
  match l.find? (fun e => bits e 0 12 == x.block && bits e 12 9 == r && bits e 21 7 == tileLocal t) with
  | some e => toSigned 8 (leNat (s.store f (bits e 32 20 + j) 1))
  | none => s.imgWeight (s.imageAddr s.activeBase t) x r j

/-- 2^BSHIFT. -/
def Slice.scale (x : Slice) : Int := ((2 ^ x.shift : Nat) : Int)

/-- Nettle products of a tile for taken elements: e × W_eff in each used lane (R74, R93). -/
def outlierAdds (s : State) (f t : Nat) (x : Scan) : List (Nat × Int) :=
  match x.g with
  | none => []
  | some (w, _) =>
    let sl := s.sliceMap t
    let l := s.known f x.uidx
    let es := x.els.filter (fun e => e.block == sl.block && (e.kind == 1 || e.kind == 2))
    if es.isEmpty then []
    else (List.range sl.outs).map (fun j =>
      (sl.lane + j, es.foldl (fun a e => a + (nettleVal (gOf w) e.v).1 * rowWeight s f t l sl e.row j) 0 * sl.scale))

/-- Reference contribution of weights at an image address (R87, R103): 4 Σ a_i W_eff + Σ e_i W_eff, where
every element above threshold takes its Nettle form. -/
def referenceAdds (s : State) (f img : Nat) (x : Scan) : List (Nat × Int) :=
  match x.g with
  | none => []
  | some (w, _) =>
    let sl := s.sliceAt img
    let a := s.actBits f x.uidx
    let sg := s.actSigned f x.uidx
    let es := x.els.filter (fun e => e.block == sl.block)
    (List.range sl.outs).map (fun j =>
      (sl.lane + j, es.foldl (fun acc e =>
        acc + (if e.kind = 0 then 4 * (alignVal a sg (gOf w) e.v).1 else (nettleVal (gOf w) e.v).1)
          * s.imgWeight img sl e.row j) 0 * sl.scale))

/-- Address of the weights of a NETTLE_WEIGHTS block. -/
def State.blockAddr (s : State) (k : Nat) : Nat := s.activeBase + s.hbm (sectionAddr s.activeBase k + 8) 8

/-- Row blocks that a field converts for a unit index, ascending (R157). -/
def State.rowBlocks (s : State) (f u : Nat) : List Nat :=
  let ts := ((fieldTiles f).filter (fun t => s.drives t u)).map (fun t => (s.sliceMap t).block)
  let ns := (Config.nettleBlocks f u).map (fun k => (s.sliceAt (s.blockAddr k)).block)
  ((ts ++ ns).mergeSort (fun a b => a ≤ b)).foldr (fun b l => if l.head? = some b then l else b :: l) []

/-! ### Failing and null positions -/

/-- The position of vector v with context c becomes null on this die for the rest of the step: in every field, and in the flits
on their way (R237). -/
def nullPos (s : State) (v : Nat) (c : Ctx) : State :=
  let no (p : Pos) : Pos := if p.ctx = c then { p with null := true } else p
  { s with
    sched := { s.sched with pos := s.sched.pos.map (fun e => if e.1 % 256 = v then (e.1, e.2.map no) else e) }
    grid := { s.grid with mesh := s.grid.mesh.map (fun e => if e.2.vec = v then (e.1, { e.2 with pos := e.2.pos.map no }) else e) } }

/-- The field's first action on a non-null position checks its generation; a differing one makes the
position null on this die (R237). -/
def genCheck (s : State) (f v u : Nat) : State :=
  match s.posOf f v with
  | some p =>
    if p.null || p.failed || p.seen then s
    else if p.ctx.modelGen = s.unitGen (s.unitOf f u) then
      (let t := s.setPos f v (some { p with seen := true })
       { t with pow := { t.pow with lastSeq := some p.ctx.seqId } })
    else (nullPos s v p.ctx).count (Reg.genNullCnt_genNull f) 1
  | none => s

/-- A field that does not run fails the steps that use it: DOMAIN_RESET while its domain is in reset,
BLOCK_DISABLED while its enable is clear (R354, R388). -/
def fieldDown (s : State) (f v : Nat) : State :=
  if s.inReset f then failStep s f v 0x0107 0 0 []
  else failStep s f v 0x010A 5 (64 + f) (leBytes 2 (64 + f) ++ leBytes 1 (b2n (s.spw.integ.contains (64 + f))))

/-! ### Adapters (R100 to R102) -/

/-- The resident adapter with a handle. -/
def State.adapter (s : State) (h : Nat) : Option Adapter := s.grid.adapters.find? (fun a => a.handle == h && a.resident)

/-- Unit entry of an adapter image: offset of the entry for a unit (Table 15.9). -/
def adapterEntry (a : Adapter) (unit : Nat) : Option Nat :=
  ((List.range (fieldAt a.image 6 1)).map (fun k => 32 + 32 * k)).find? (fun o => fieldAt a.image o 4 == unit)

/-- bfloat16 element of a matrix in an adapter image. -/
def adapterElem (a : Adapter) (off i : Nat) : Nat := fieldAt a.image (off + 2 * i) 2

/-- h_B(k): Σ x_i × A(i, k) over the 512 rows of a row block, in ascending order, one rounding each (R101). -/
def adapterPartial (a : Adapter) (o b : Nat) (xs : List Nat) : List Nat :=
  let r := fieldAt a.image 7 1
  let off := fieldAt a.image (o + 12) 4
  (List.range r).map (fun k => (xs.zipIdx).foldl (fun acc (x, i) =>
    if b * 512 + i < fieldAt a.image (o + 8) 2 then fma32 acc x (adapterElem a off ((b * 512 + i) * r + k)) else acc) 0)

/-- h: partials added in ascending row block, clamped to ±HMAX, rounded to bfloat16; and the clamps (R101). -/
def adapterH (a : Adapter) (parts : List (Nat × List Nat)) : List Nat × Nat :=
  let ps := parts.mergeSort (fun x y => x.1 ≤ y.1)
  let hs := (List.range (fieldAt a.image 7 1)).map (fun k =>
    clamp32 a.hmax (ps.foldl (fun acc p => add32 acc (getAt 0 p.2 k)) 0))
  (hs.map (fun h => rnd16 (dec32 h.1)), (hs.filter (fun h => h.2)).length)

/-- δ of output column c: α × Σ h(k) B(k, c), clamped to ±DMAX (R101). -/
def adapterDelta (a : Adapter) (o c : Nat) (h : List Nat) : Nat × Bool :=
  let off := fieldAt a.image (o + 16) 4
  let dout := fieldAt a.image (o + 10) 2
  let sum := (h.zipIdx).foldl (fun acc (x, k) => fma32 acc x (adapterElem a off (k * dout + c))) 0
  clamp32 a.dmax (mul32 (fieldAt a.image (o + 4) 4) sum)

end Sys2Proof.Machine
end

