-- ==== Sys2Proof/Machine/FieldOps.lean ====
section
/-! DEFINITION. Field actions (R157): action-table lookup, outlier selection (R93), exponent words (R70),
bit-planes (R72), adapter words (R101), output values (R77 to R82) and selection (R277). -/

namespace Sys2Proof.Machine

/-! ### Action table (Table 8.6) -/

/-- Entries of a field action table. -/
def State.actions (s : State) (f : Nat) : List Nat :=
  let d := s.section 4 f
  (List.range (d.length / 8)).map (fun i => fieldAt d (8 * i) 8)

/-- Fields of an action entry. -/
def faAct (e : Nat) : Nat := bits e 60 4
def faFirst (e : Nat) : Nat := bits e 54 6 * 64 + bits e 48 6
def faUidx (e : Nat) : Nat := bits e 42 6
def faVec (e : Nat) : Nat := bits e 34 8
def faAddr (e : Nat) : Nat := bits e 16 18 * 8

/-- The action of kind `a` for vector `v` that begins at slot number `q` of the step. -/
def State.actionAt (s : State) (f a q v : Nat) : Option Nat :=
  (s.actions f).find? (fun e => faAct e == a && faFirst e == q && faVec e == v)

/-- The field has an action of kind `a` for unit `u` and vector `v`. -/
def State.hasAction (s : State) (f a u v : Nat) : Bool :=
  (s.actions f).any (fun e => faAct e == a && faUidx e == u && faVec e == v)

/-- The unit index under which field `g` acts on `v` with kind `a`, for the same layer unit as `unit`. -/
def State.uidxFor (s : State) (g a unit v : Nat) : Option Nat :=
  ((s.actions g).find? (fun e => faAct e == a && faVec e == v && s.unitOf g (faUidx e) == unit)).map faUidx

/-- Fields of the die, other than `f`, that act on `v` with kind `a` for a unit. -/
def State.partners (s : State) (f a unit v : Nat) : List Nat :=
  (List.range 64).filter (fun g => g != f && hasBit (s.unitFields unit) g && (s.uidxFor g a unit v).isSome)

/-- Slots that n elements or lanes take (R157). -/
def actSlots (n : Nat) : Nat := max 1 ((n + 511) / 512)

/-- Lanes of a unit in a field (Table 4.7). -/
def State.laneLo (s : State) (f u : Nat) : Nat := bits (s.udesc f u 1) 0 16
def State.laneCnt (s : State) (f u : Nat) : Nat := bits (s.udesc f u 1) 16 16 + 1

/-- Owner field and the QPOS of its die. -/
def State.ownerField (s : State) (f u : Nat) : Nat := bits (s.udesc f u 2) 0 6
def State.ownerQpos (s : State) (f u : Nat) : Nat := bits (s.udesc f u 2) 6 2

/-- The unit spans the quartet. -/
def State.quartet (s : State) (f u : Nat) : Bool := hasBit (s.udesc f u 2) 8

/-- A field holds lanes of a unit index: some action opens or closes them. The spec gives no test (DESIGN CHOICE, log
entry 70). -/
def holdsLanes (s : State) (f u : Nat) : Bool := (s.actions f).any (fun e => (faAct e == 4 || faAct e == 5) && faUidx e == u)

/-- Slots that an action occupies (R157): OPEN none, SELECT one where the field holds no lanes. -/
def State.actLen (s : State) (f e : Nat) : Nat :=
  let u := faUidx e
  match faAct e with
  | 1 => actSlots (512 * (s.rowBlocks f u).length)
  | 2 => 1
  | 3 => actSlots (512 * (s.rowBlocks f u).length)
  | 4 => 0
  | 5 => actSlots (s.laneCnt f u)
  | _ => if holdsLanes s f u then actSlots (if bits (s.udesc f u 0) 24 4 = 7 then s.laneCnt f u / 2 else s.laneCnt f u) else 1

/-- Field `f` is the owner field of its unit index `u` on this die. -/
def State.isOwner (s : State) (f u : Nat) : Bool := s.ownerField f u == f && s.ownerQpos f u == s.myId % 4

/-! ### SCAN -/

/-- Take elements of one row block in rank order (R93): marks each above-threshold element with its kind. -/
def takeEls (known : List Nat) (cap ucap : Nat) : List El → Nat → Nat → List El
  | [], _, _ => []
  | e :: l, n, u =>
    if isKnown known e.block e.row then
      if n < cap then { e with kind := 1 } :: takeEls known cap ucap l (n + 1) u
      else { e with kind := 3 } :: takeEls known cap ucap l n u
    else if n < cap ∧ u < ucap then { e with kind := 2 } :: takeEls known cap ucap l (n + 1) (u + 1)
    else { e with kind := 3 } :: takeEls known cap ucap l n u

/-- Rank order: descending |v|, then ascending row. -/
def rankLe (a b : El) : Bool :=
  decide (b.v.natAbs < a.v.natAbs) || (a.v.natAbs == b.v.natAbs && decide (a.row ≤ b.row))

/-- Select the outliers of one block's elements: those not above τ, then the ranked ones with their kinds. -/
def selectEls (known : List Nat) (tq cap ucap : Nat) (es : List El) : List El :=
  if cap = 0 then es
  else
    let t := (tau tq).natAbs
    es.filter (fun e => decide (e.v.natAbs ≤ t)) ++
      takeEls known cap ucap ((es.filter (fun e => decide (t < e.v.natAbs))).mergeSort rankLe) 0 0

/-- The exponent word of analog-path elements (Table 4.5). -/
def expWord (x : Scan) : Nat :=
  let es := (x.els.filter (fun e => e.kind == 0 || e.kind == 3)).map (fun e => expOf (anaVal x e))
  (match es with
  | [] => 0x400
  | e :: l => ofSigned 10 (l.foldl max e)) + (if x.poison then 0x800 else 0)

/-- Count one block-vector in the unit's threshold window, closing it at 1,024 (R95). -/
def tqCount (w : TqWin) (taken outs : Nat) : TqWin :=
  if w.blocks + 1 = 1024 then
    { w with blocks := 0, taken := 0, ovf := 0, closed := w.closed ++ [(w.taken + taken, w.ovf + outs)] }
  else { w with blocks := w.blocks + 1, taken := w.taken + taken, ovf := w.ovf + outs }

/-- No window counts. -/
def noTq (_ : Nat) : TqWin := {}

/-- Change a unit's threshold window. -/
def updTq (s : State) (f n : Nat) (g : TqWin → TqWin) : State :=
  { s with grid := { s.grid with tqWin := sset noTq s.grid.tqWin (f * 64 + n) (g (sget noTq s.grid.tqWin (f * 64 + n))) } }

/-- What one selected block counts: the block, elements taken, excess elements. -/
def blockCount (b : Nat) (es : List El) : Nat × Nat × Nat :=
  (b, (es.filter (fun e => e.kind == 1 || e.kind == 2)).length, (es.filter (fun e => e.kind == 3)).length)

/-- The counters, overflow flag and window of one selected block (R93, R95, R97). -/
def countBlock (f u : Nat) (loop : Bool) (s : State) (c : Nat × Nat × Nat) : State :=
  let b := c.1
  let taken := c.2.1
  let ex := c.2.2
  let s1 := s.count (Reg.outlierCnt f) taken
  let s2 := if loop then updTq s1 f u (fun w => tqCount w taken (if ex = 0 then 0 else 1)) else s1
  if ex = 0 then s2
  else
    let s3 := (s2.count (Reg.ovfBlockCnt f) 1).count (Reg.ovfElemCnt f) ex
    s3.setFld ⟨(Reg.nettleOvfMap_ovf f (b / 32)).reg, b % 32, 1⟩ 1

/-- The counts of a vector, once it is known not to be poisoned in any field (R92, R95): at ALIGN, or at the step's end
where no returned word came (DEDUCED, log entry 71). -/
def flushCounts (s : State) (f : Nat) (x : Scan) : State :=
  x.cnts.foldl (countBlock f x.uidx (hasBit (s.ndesc f x.uidx 0) 23)) s

/-- Index of the lowest field that a row block of a unit feeds (R101). -/
def State.lowestFed (s : State) (unit b : Nat) : Option Nat :=
  (List.range 64).find? (fun g => hasBit (s.unitFields unit) g &&
    (List.range 64).any (fun u => s.unitOf g u == unit && (s.rowBlocks g u).contains b))

/-- Adapter of a position for a unit: none needed, a failure, or the adapter and its entry (R101, R102). -/
inductive AdaptRes where
  | unused
  | fail (handle : Nat)
  | use (a : Adapter) (o : Nat)

/-- The adapter that a position's vector uses in a unit; none where the unit takes none, the handle is 0, or the adapter
holds no entry for the unit (DESIGN CHOICE, log entry 72). A field that lost its share of the adapter by gating or a
reset does not hold it (R102). -/
def adapterFor (s : State) (f v u : Nat) : AdaptRes :=
  match s.posOf f v with
  | none => .unused
  | some p =>
    if !hasBit (s.udesc f u 0) 23 || p.ctx.adapter == 0 then .unused
    else match s.adapter p.ctx.adapter with
    | none => .fail p.ctx.adapter
    | some a =>
      if a.tenant != p.ctx.tenant || a.lost.contains f then .fail p.ctx.adapter
      else match adapterEntry a (s.unitOf f u) with
      | some o => .use a o
      | none => .unused

/-- Rows of the master copy that an unknown-row fetch reads in bad or uncorrectable objects. -/
def fetchBad (s : State) (f : Nat) (x : Scan) : Option Nat :=
  (fieldTiles f).find? (fun t =>
    s.drives t x.uidx && x.els.any (fun e => e.kind == 2 && e.block == (s.sliceMap t).block) &&
      (s.objBad t || s.ueIn (s.imageAddr s.activeBase t) 270336))

/-- SCAN of a vector (R67, R68, R93, R97, R70). -/
def scanVector (s : State) (f v u addr : Nat) : State :=
  let bl := s.rowBlocks f u
  let n := 512 * bl.length
  let fmt := bits (s.udesc f u 0) 0 4
  let bs := s.sram f addr (vecBytes fmt n)
  let vals := (List.range n).map (elemVal fmt bs n)
  let poison := vals.any (fun o => o.isNone)
  let tq := s.fld (Reg.nettleUnitStat_tqCur f u)
  let d := s.ndesc f u 0
  let known := s.known f u
  let blockEls (i b : Nat) : List El :=
    ((List.range 512).filterMap (fun r => match getAt none vals (512 * i + r) with
      | some v => if v = 0 then none else some { block := b, row := r, v := v, kind := 0 }
      | none => none))
  let sel := if poison then [] else bl.zipIdx.map (fun (b, i) => (b, selectEls known tq (bits d 12 5) (bits d 17 5) (blockEls i b)))
  let s1 := if poison then s.count (Reg.nanInCnt f) 1 else s
  let x0 : Scan := { (s.scan f v).getD { uidx := u } with
    uidx := u, tq := tq, poison := poison, els := sel.flatMap (fun e => e.2), cnts := sel.map (fun e => blockCount e.1 e.2), claimed := [] }
  let x := { x0 with word := expWord x0 }
  match adapterFor s f v u with
  | .fail h => failStep s1 f v 0x0104 2 f (leBytes 2 h)
  | .unused => finishScan s1 x
  | .use a o =>
    let mine := bl.zipIdx.filter (fun e => s.lowestFed (s.unitOf f u) e.1 == some f)
    let ps := mine.map (fun e =>
      (e.1, adapterPartial a o e.1 ((List.range 512).map (fun r => rnd16 (elemFl fmt bs n (512 * e.2 + r))))))
    finishScan s1 { x with parts := x.parts ++ ps }
where
  /-- Keep the scan; an unknown-row fetch from a bad object fails the step (R232, R381). -/
  finishScan (t : State) (x : Scan) : State :=
    match fetchBad t f x with
    | some k => failStep (readObject t k (t.imageAddr t.activeBase k) 270336) f v 0x0108 1 k []
    | none => setScan t f v (some x)

/-! ### EXPONENT and ALIGN -/

/-- G from exponent words (R69). -/
def formG (a : Nat) (signed : Bool) (gmin : Int) (ws : List Nat) : Int :=
  match (ws.filter (fun w => !hasBit w 10)).map gOf with
  | [] => gmin
  | e :: l => max (l.foldl max e - (a : Int) + (if signed then 2 else 1)) gmin

/-- Word 0's GEXP_MIN. -/
def State.gexpMin (s : State) (f u : Nat) : Int := toSigned 10 (bits (s.udesc f u 0) 8 10)

/-- 64 bytes of plane k of a row block: bit k of each a_i (R72). -/
def planeBytes (es : List (Nat × Int)) (a k : Nat) : List Byte :=
  leBytes 64 (es.foldl (fun n e => if hasBit (ofSigned a e.2) k then n + 2 ^ e.1 else n) 0)

/-- ALIGN of a vector (R71, R72): planes of row block number i lie at ADDR + 64 × (a × i + k). -/
def alignVector (s : State) (f v q addr : Nat) (x : Scan) (w : Nat) : State :=
  let u := x.uidx
  let a := s.actBits f u
  let sg := s.actSigned f u
  let g := gOf w
  let x1 := { (if hasBit w 11 then { x with poison := true, els := [] } else x) with cnts := [] }
  let bl := s.rowBlocks f u
  let ali := (x1.els.filter (fun e => e.kind == 0 || e.kind == 3)).map (fun e => (e, alignVal a sg g (anaVal x1 e)))
  let net := (x1.els.filter (fun e => e.kind == 1 || e.kind == 2)).map (fun e => nettleVal g e.v)
  let clamps := (ali.filter (fun e => e.2.2)).length + (net.filter (fun e => e.2)).length
  let s1 := bl.zipIdx.foldl (fun t (b, i) =>
    let es := (ali.filter (fun e => e.1.block == b)).map (fun e => (e.1.row, e.2.1))
    (List.range a).foldl (fun t k => t.setSram f (addr + 64 * (a * i + k)) (planeBytes es a k)) t) s
  let s2 := if hasBit w 11 then s1 else flushCounts s1 f x
  setScan (s2.count (Reg.alignClampCnt f) clamps) f v (some { x1 with planes := some (q + actSlots (512 * bl.length) - 1) })

/-! ### CLOSE -/

/-- Nettle-only products (R103), once per vector. -/
def nettleOnly (s : State) (f v : Nat) (x : Scan) : State :=
  if x.nettled || !hasBit (s.ndesc f x.uidx 0) 24 then s
  else
    match (Config.nettleBlocks f x.uidx).find? (fun k => s.objBad (8192 + k) || s.ueIn (s.blockAddr k) 270336) with
    | some k => failStep (readObject s (8192 + k) (s.blockAddr k) 270336) f v 0x0108 0 0 []
    | none =>
      let s1 := (Config.nettleBlocks f x.uidx).foldl (fun t k => addLanes t f 8192 v (referenceAdds t f (s.blockAddr k) x)) s
      setScan s1 f v (some { x with nettled := true })

/-- Row blocks whose partials h of a unit needs (R101): those that the fields of this die convert, or every row block of
the adapter's D_IN rows for a unit that spans the quartet. -/
def State.hBlocks (s : State) (f u : Nat) (a : Adapter) (o : Nat) : List Nat :=
  if s.quartet f u then List.range ((fieldAt a.image (o + 8) 2 + 511) / 512)
  else
    let unit := s.unitOf f u
    (List.range 64).flatMap (fun g => if hasBit (s.unitFields unit) g then
      (List.range 64).flatMap (fun i => if s.unitOf g i == unit then s.rowBlocks g i else []) else [])

/-- h in the owner field, formed once from every row block's partial (R101); none while one is missing. -/
def formH (s : State) (f v : Nat) (x : Scan) : State :=
  if x.h.isSome || !s.isOwner f x.uidx then s
  else match adapterFor s f v x.uidx with
  | .use a o =>
    if (s.hBlocks f x.uidx a o).all (fun b => x.parts.any (fun p => p.1 == b)) then
      let r := adapterH a x.parts
      setScan (s.count (Reg.adaptClampCnt f) r.2) f v (some { x with h := some r.1 })
    else s
  | _ => s

/-- Output column of lane number i of a unit in field f: the unit's lanes on dies of lower QPOS come first, then those in
lower fields of this die. The spec does not say which column of B belongs to a lane (DESIGN CHOICE, log entry 73). -/
def State.outCol (s : State) (f u v i : Nat) : Nat :=
  let unit := s.unitOf f u
  ((List.range f).filterMap (fun g => (s.uidxFor g 5 unit v).map (fun w => s.laneCnt g w))).foldl (· + ·)
    (i + (if s.quartet f u then Config.colBase unit (s.myId % 4) else 0))

/-- Flits that the master copy of a field's Nettle-only unit takes: 128 weights each (R103; DEDUCED, log entry 74). -/
def State.onlyFlits (s : State) (f u : Nat) : Nat :=
  if hasBit (s.ndesc f u 0) 24 then
    ((Config.nettleBlocks f u).map (fun k => 4 * (s.sliceAt (s.blockAddr k)).outs)).foldl (· + ·) 0
  else 0

/-- Flits fetched for a field's unit in this step, whatever the vector: the vectors of a step share the weights of a
Nettle-only unit (R103). -/
def State.unitFetched (s : State) (f u : Nat) : Nat :=
  ((List.range 256).map (fun v => match s.scan f v with
    | some x => if x.uidx = u then x.fetched else 0
    | none => 0)).foldl (· + ·) 0

/-- Whether every unknown row the vector needs, and the master copy of a Nettle-only unit, has been fetched (R93, R103,
R167). -/
def fetchDone (s : State) (f : Nat) (x : Scan) : Bool :=
  let need := ((x.els.filter (fun e => e.kind == 2)).map (fun e =>
    ((fieldTiles f).filter (fun t => s.drives t x.uidx && (s.sliceMap t).block == e.block)).length)).foldl (· + ·) 0
  decide (need * Config.rowFlits ≤ x.fetched) && decide (s.onlyFlits f x.uidx ≤ s.unitFetched f x.uidx)

/-- The first transfer kind among `ks` of which something arrived too late to be consumed in slot `q` (R167). -/
def lateKind (x : Scan) (ks : List Nat) (q : Nat) : Option Nat :=
  ks.find? (fun k => x.arr.any (fun a => a.1 == k && decide (q < a.2 + 2)))

/-- y of lane number i before F (R77, R78): code and whether δ clamped. Where no adapter applies, y1 stands (log
entry 72). -/
def laneY (s : State) (f v : Nat) (x : Scan) (w i : Nat) (ad : AdaptRes) : Nat × Bool :=
  let u := x.uidx
  let lo := s.laneLo f u
  let cnt := s.laneCnt f u
  let ptr := bits (s.udesc f u 3) 0 21
  let acc := s.lane f (lo + i)
  let sc := dec32 (leNat (s.sram f (ptr + 4 * i) 4))
  let y0 := rnd32 ((Fl.fin (decide (acc < 0)) acc.natAbs (gOf w - 2)).mul sc)
  let y1 := if hasBit (s.udesc f u 0) 22 then add32 y0 (leNat (s.sram f (ptr + 4 * cnt + 4 * i) 4)) else y0
  match ad, x.h with
  | .use a o, some h =>
    let d := adapterDelta a o (s.outCol f u v i) h
    (add32 y1 d.1, d.2)
  | _, _ => (y1, false)

/-- CLOSE of a live vector whose inputs are all there (R77 to R82). -/
def closeVector (s : State) (f v q addr w : Nat) (x : Scan) : State :=
  let u := x.uidx
  let ad := adapterFor s f v u
  let cnt := s.laneCnt f u
  let ys0 := (List.range cnt).map (fun i => laneY s f v x w i ad)
  let ys := applyUnit (bits (s.udesc f u 0) 24 4) (ys0.map (fun y => y.1))
  let poison := x.poison || hasBit w 11
  let out := encodeOut (bits (s.udesc f u 0) 18 4) poison ys
  let s1 := s.setSram f addr out.1
  let s2 := s1.count (Reg.outSatCnt f) out.2
  let s3 := s2.count (Reg.adaptClampCnt f) ((ys0.filter (fun y => y.2)).length)
  setScan s3 f v (some { x with closed := true, outEnd := q + actSlots cnt - 1, ys := if poison then ys.map (fun _ => nan32) else ys })

/-! ### Normalisation (R86, Table 4.9)

The arithmetic of the field vector unit. No action, descriptor or command starts a normalisation (log entry 75). -/

/-- Sum of a field's binary32 values in ascending lane order. -/
def fieldSum (xs : List Nat) : Nat := xs.foldl add32 0

/-- Sums of a unit's fields, combined in ascending field index on each die and then in ascending QPOS: `dies` lists the
dies by QPOS, and each die its fields by index. -/
def unitSum (dies : List (List (List Nat))) : Nat :=
  (dies.map (fun fs => (fs.map fieldSum).foldl add32 0)).foldl add32 0

/-- The factor 1 / √x of a normalisation. -/
def normFactor (x : Nat) : Nat := (Config.rsqrt x).toNat

/-! ### Control words as bytes

The flits of KIND 0b10 carry what a field knows about a vector. Within the die they carry the record itself; the bytes
are what SRAM and frames to other dies hold of it. The spec gives them no layout (DESIGN CHOICE, log entry 76). -/

/-- Adapter partials: count, then row block, rank and values of each. -/
def partBytes (ps : List (Nat × List Nat)) : List Byte :=
  leBytes 1 ps.length ++ ps.flatMap (fun p => leBytes 2 p.1 ++ leBytes 1 p.2.length ++ p.2.flatMap (leBytes 4))

/-- Exponent word, presence bits, G, select word, h and adapter partials. -/
def wordBytes (x : Scan) : List Byte :=
  let g := (x.g.map (fun w => w.1)).getD 0
  let k := x.sel.getD (0, 0, false)
  let h := x.h.getD []
  leBytes 2 x.word ++ leBytes 1 (b2n x.g.isSome + 2 * b2n x.sel.isSome + 4 * b2n x.h.isSome + 8 * b2n k.2.2) ++ leBytes 1 h.length ++
    leBytes 2 g ++ leBytes 4 k.1 ++ leBytes 4 k.2.1 ++ h.flatMap (leBytes 2) ++ partBytes x.parts

/-- `n` adapter partials from bytes. -/
def readParts : Nat → List Byte → List (Nat × List Nat)
  | 0, _ => []
  | n + 1, b =>
    let r := fieldAt b 2 1
    (fieldAt b 0 2, (List.range r).map (fun i => fieldAt b (3 + 4 * i) 4)) :: readParts n (b.drop (3 + 4 * r))

/-- The words that bytes carry for unit index `u`. -/
def readWords (u : Nat) (b : List Byte) : Scan :=
  let fl := fieldAt b 2 1
  let n := fieldAt b 3 1
  { uidx := u, word := fieldAt b 0 2 % 4096
    g := if hasBit fl 0 then some (fieldAt b 4 2 % 4096, 0) else none
    sel := if hasBit fl 1 then some (fieldAt b 6 4, fieldAt b 10 4, hasBit fl 3) else none
    h := if hasBit fl 2 then some ((List.range n).map (fun i => fieldAt b (14 + 2 * i) 2)) else none
    parts := readParts (fieldAt b (14 + 2 * n) 1) (b.drop (15 + 2 * n)) }

/-! ### SELECT (R277) -/

/-- Selection entry of a unit index (Table 13.12). -/
def State.selEntry (s : State) (f u : Nat) : List Byte := slice (s.section 10 f) (32 * u) 32

/-- Key of an output value for token n. -/
def selKey (e : List Byte) (c : Ctx) (y n : Nat) : Nat :=
  if fieldAt e 0 1 = 2 then
    let h := (Config.sip24 (fieldAt e 16 16) (leBytes 4 c.seqId ++ leBytes 2 c.seqGen ++ leBytes 2 0 ++
      leBytes 4 c.tokenIdx ++ leBytes 4 n)).toNat
    add32 (div32 y (fieldAt e 4 4)) (Config.gumbel (h / 2 ^ 40)).toNat
  else y

/-- The better of two select words: larger key, then lower n; a NaN word prevails. -/
def betterWord (a b : Nat × Nat × Bool) : Nat × Nat × Bool :=
  if a.2.2 || b.2.2 then (nan32, 0, true)
  else if (dec32 a.1).lt (dec32 b.1) then b
  else if (dec32 b.1).lt (dec32 a.1) then a
  else if a.2.1 ≤ b.2.1 then a else b

/-- Combine select words. -/
def bestWord : List (Nat × Nat × Bool) → Option (Nat × Nat × Bool)
  | [] => none
  | w :: l => some (l.foldl betterWord w)

/-- The field's select word over its output values. -/
def selectWord (s : State) (f u : Nat) (c : Ctx) (ys : List Nat) : Option (Nat × Nat × Bool) :=
  let e := s.selEntry f u
  bestWord (ys.zipIdx.map (fun (y, i) =>
    let n := fieldAt e 8 4 + i
    let k := selKey e c y n
    (k, n, isNan32 k)))

/-- Result record (Table 13.5). -/
def resultRec (token status : Nat) (c : Ctx) : List Byte :=
  leBytes 4 token ++ leBytes 2 c.seqGen ++ leBytes 2 (c.seqId % 2 ^ 14) ++ leBytes 1 status ++ leBytes 7 0

end Sys2Proof.Machine
end

