-- ==== Sys2Proof/Machine/AttOps.lean ====
section
/-! DEFINITION. The attention image (R247 to R249), the KV directory and page lists (R258, R281), encrypted
pages (R257, R260), and the arithmetic of attention (R250, R252, R254). -/

namespace Sys2Proof.Machine

/-! ### The attention image -/

/-- Units and windows of the installed attention image. -/
def State.attUnits (s : State) : Nat := fieldAt s.sched.att 6 1
def State.attWindows (s : State) : Nat := fieldAt s.sched.att 8 2

/-- A unit descriptor's bytes (Table 12.2). -/
def State.attUnit (s : State) (u : Nat) : List Byte := slice s.sched.att (64 + 64 * u) 64

/-- A window entry as a 128-bit value (Table 12.3). -/
def State.attWin (s : State) (w : Nat) : Nat := fieldAt s.sched.att (64 + 64 * s.attUnits + 16 * w) 16

/-- Fields of a window entry. -/
def winUnit (e : Nat) : Nat := bits e 0 5
def winEngine (e : Nat) : Nat := bits e 8 1
def winFirst (e : Nat) : Nat := bits e 16 6 * 64 + bits e 22 6
def winLast (e : Nat) : Nat := winFirst e + bits e 32 12
def winVecLo (e : Nat) : Nat := bits e 44 8
def winVecCnt (e : Nat) : Nat := bits e 52 9
def winField (e : Nat) : Nat := bits e 64 6

/-- Fields of a unit descriptor. -/
def auSide (u : List Byte) : Nat := fieldAt u 0 1
def auKind (u : List Byte) : Nat := fieldAt u 1 1
def auKvFmt (u : List Byte) : Nat := fieldAt u 2 1
def auTFmt (u : List Byte) : Nat := fieldAt u 3 1
def auQFmt (u : List Byte) : Nat := fieldAt u 4 1
def auDh (u : List Byte) : Nat := 2 ^ fieldAt u 5 1
def auHq (u : List Byte) : Nat := fieldAt u 6 2
def auHkv (u : List Byte) : Nat := fieldAt u 8 2
def auTpp (u : List Byte) : Nat := fieldAt u 10 2
def auPph (u : List Byte) : Nat := fieldAt u 12 2
def auSpan (u : List Byte) : Nat := fieldAt u 16 4
def auScale (u : List Byte) : Nat := fieldAt u 20 4
def auExch (u : List Byte) : Nat := fieldAt u 24 8
def auEmbBase (u : List Byte) : Nat := fieldAt u 32 8
def auEmbRows (u : List Byte) : Nat := fieldAt u 40 4
def auEmbWidth (u : List Byte) : Nat := fieldAt u 44 4

/-- Bytes of one position's output, and the spacing of positions in the exchange area (R251, R256). -/
def outBytes (u : List Byte) : Nat := if auKind u = 1 then auEmbWidth u * 2 else auHq u * auDh u * 2
def outPitch (u : List Byte) : Nat := (outBytes u + 1023) / 1024 * 1024

/-- Bytes of n packed elements with their scales (R245). -/
def packedBytes (fmt n : Nat) : Nat := elemBytes fmt n + scaleBytes fmt n

/-- Slot number, in the running step that times a window, of slot `k` of this beat. -/
def State.winSlot (s : State) (e k : Nat) : Nat := s.stepBeat (winField e) * 64 + k

/-- A window serves position `v` on a side. -/
def State.winServes (s : State) (side v e : Nat) : Bool :=
  auSide (s.attUnit (winUnit e)) == side && decide (winVecLo e ≤ v) && decide (v < winVecLo e + winVecCnt e)

/-- The window whose output a field fetches for vector `v` on a side in slot `k` of this beat: the last that
ended before (R246). -/
def State.windowFor (s : State) (side v k : Nat) : Option Nat :=
  ((List.range s.attWindows).map s.attWin).foldl (fun o e =>
    if s.winServes side v e = true ∧ winLast e < s.winSlot e k then
      match o with
      | some b => if winLast b ≤ winLast e then some e else o
      | none => some e
    else o) none

/-- Slot `k` of this beat lies in an attention window that serves position `v` on a side, or in the `ahead` slots before
it. A flit for the position that comes in a window or in the slot before is that window's, and too late for it (R167,
R245; DEDUCED, log entry 77). -/
def State.inWindow (s : State) (side v k ahead : Nat) : Bool :=
  ((List.range s.attWindows).map s.attWin).any (fun e =>
    let n := planBeats (s.plan (winField e)) * 64
    auKind (s.attUnit (winUnit e)) == 0 && s.winServes side v e &&
      decide ((s.winSlot e k + ahead + n - winFirst e) % n ≤ winLast e - winFirst e + ahead))

/-! ### Sides -/

/-- A side read outside the two. -/
def noSide : Side := {}

/-- Side `n`. -/
def State.side (s : State) (n : Nat) : Side := getAt noSide s.sides n

/-- The HBM of a side serves: present, and its block enabled (R262). -/
def State.stackServes (s : State) (n : Nat) : Bool := s.hbmPresent n && s.fld (Reg.hbmCfg_en n) == 1

/-- A vector of field `f` fails because a stack does not serve (R262, R354, R388): DOMAIN_RESET while its domain is
down, BLOCK_DISABLED while its enable is clear. -/
def stackFail (s : State) (n f v : Nat) : State :=
  if !s.hbmPresent n then failStepIn s (0x50 + n) f v 0x0107 0 0 []
  else failStepIn s (0x50 + n) f v 0x010A 5 (8 + n) (leBytes 2 (8 + n) ++ leBytes 1 (b2n (s.spw.integ.contains (8 + n))))

/-- A reserved access of a position to a stack is delayed past its beat by a fault of the stack: its micro-batch fails, and the
record names the pseudo-channel (R265, Table 18.3). -/
def hbmLate (s : State) (n f v pc : Nat) : State :=
  if s.live f v then failStepIn s (0x50 + n) f v 0x0109 4 n (leBytes 2 pc) else s

/-- Change side `n`. -/
def State.updSide (s : State) (n : Nat) (g : Side → Side) : State := { s with sides := updAt s.sides n g }

/-- No bytes. -/
def noBytes (_ : Nat) : List Byte := []

/-! ### Directory and page lists -/

/-- DIR_BASE. -/
def State.dirBase (s : State) : Nat := s.fld Reg.dirBase_base * 65536

/-- A directory entry's bytes (Table 13.6). -/
def State.dirEntry (s : State) (i : Nat) : List Byte := s.read (s.dirBase + 32 * i) 32

/-- Fields of a directory entry. -/
def deSeqId (e : List Byte) : Nat := fieldAt e 0 4
def deTenant (e : List Byte) : Nat := bits (fieldAt e 4 4) 0 20
def deLen (e : List Byte) : Nat := bits (fieldAt e 8 8) 0 20
def dePark (e : List Byte) : Bool := hasBit (fieldAt e 8 8) 20
def deRelease (e : List Byte) : Bool := hasBit (fieldAt e 8 8) 21
def deGen (e : List Byte) : Nat := bits (fieldAt e 8 8) 48 16
def deLists (e : List Byte) : Nat := fieldAt e 16 8
def deStatus (e : List Byte) : Nat := fieldAt e 24 4
def deBound (e : List Byte) : Bool := hasBit (deStatus e) 0
def deHome (e : List Byte) : Bool := hasBit (deStatus e) 1

/-- The page list of a position in unit `au`, found through the directory (R258, R281). -/
def pageList (s : State) (c : Ctx) (au : Nat) : Option (List Byte × Nat) :=
  let e := s.dirEntry (c.seqId % 2 ^ 14)
  if deBound e && deHome e && deSeqId e == c.seqId && deGen e == c.seqGen then
    let l := s.hbm (deLists e + 8 * au) 8
    if l = 0 then none else some (e, l)
  else none

/-- A page descriptor's bytes (Table 12.7). -/
def State.pageDesc (s : State) (l i : Nat) : List Byte := s.read (l + 64 + 16 * i) 16

/-- Fields of a page descriptor. -/
def pdFrame (d : List Byte) : Nat := bits (fieldAt d 0 4) 0 22
def pdValid (d : List Byte) : Bool := hasBit (fieldAt d 0 4) 31
def pdSlot (d : List Byte) : Nat := bits (fieldAt d 4 2) 0 12
def pdNonce (d : List Byte) : Nat := fieldAt d 8 8

/-- No key. -/
def noKey (_ : Nat) : Option KeySlot := none

/-- Key slot `n`. -/
def State.keySlot (s : State) (n : Nat) : Option KeySlot := sget noKey s.sec.keySlots n

/-! ### Encrypted pages -/

/-- Plaintext of granule i of a page (R260). -/
def granule (s : State) (k : KeySlot) (d : List Byte) (i : Nat) : List Byte :=
  leBytes 1024 (Config.xtsDec k.key1 k.key2 (pdNonce d * 64 + i) (s.read (pdFrame d * 65536 + 1024 * i) 1024))

/-- Write `bs` at offset `o` of a page through the XTS unit: each granule touched is decrypted, patched and
encrypted again under its tweak. A frame being migrated receives the write in both frames (R266). -/
def pageWrite (s : State) (side : Nat) (k : KeySlot) (d : List Byte) (o : Nat) (bs : List Byte) : State :=
  (List.range ((o + bs.length + 1023) / 1024 - o / 1024)).foldl (fun t j =>
    let g := o / 1024 + j
    let from0 := max o (1024 * g)
    let piece := (bs.drop (from0 - o)).take (min (o + bs.length) (1024 * g + 1024) - from0)
    let ct := leBytes 1024 (Config.xtsEnc k.key1 k.key2 (pdNonce d * 64 + g) (patchAt (granule t k d g) (from0 - 1024 * g) piece))
    let t1 := t.write (pdFrame d * 65536 + 1024 * g) ct
    (t1.side side).moves.foldl (fun u m =>
      if m.old == pdFrame d then u.write (m.new * 65536 + 1024 * g) ct
      else if m.new == pdFrame d then u.write (m.old * 65536 + 1024 * g) ct else u) t1) s

/-- Read n bytes at offset o of a page. -/
def pageRead (s : State) (k : KeySlot) (d : List Byte) (o n : Nat) : List Byte :=
  (((List.range ((o + n + 1023) / 1024 - o / 1024)).flatMap (fun j => granule s k d (o / 1024 + j))).drop (o % 1024)).take n

/-- Offsets of token row r in a page (Table 12.6): key, value, key scales, value scales. -/
def pageOffs (u : List Byte) (r : Nat) : Nat × Nat × Nat × Nat :=
  let b := if auKvFmt u = 6 then 2 else 1
  let dh := auDh u
  let dd := auTpp u * dh * b
  (r * dh * b, dd + r * dh * b, 2 * dd + r * dh / 32, 2 * dd + auTpp u * dh / 32 + r * dh / 32)

/-- Elements of one head of a packed vector: element bytes and scale bytes. -/
def headBytes (fmt dh n h : Nat) (bs : List Byte) : List Byte × List Byte :=
  (slice bs (elemBytes fmt (h * dh)) (elemBytes fmt dh),
    if isMx fmt then slice bs (elemBytes fmt n + h * dh / 32) (dh / 32) else [])

/-- Element i of a head as a value, decoded exactly, infinities and NaN with it (R250). -/
def headElem (fmt dh : Nat) (bs : List Byte) (i : Nat) : Fl :=
  let c := elemCode fmt bs i
  if isMx fmt then
    let x := fieldAt bs (elemBytes fmt dh + i / 32) 1
    if x = 0xFF then .nan
    else match mxElem fmt c with
    | some (neg, m, e) => .fin neg m (e + (x : Int) - 127)
    | none => if fmt = 2 ∧ bits c 0 2 = 0 then .inf (hasBit c 7) else .nan
  else if fmt = 6 then dec16 c else dec32 c

/-- binary32 codes of one head's elements. -/
def headVals (fmt dh : Nat) (b : List Byte × List Byte) : List Nat :=
  (List.range dh).map (fun i => rnd32 (headElem fmt dh (b.1 ++ b.2) i))

/-- Key or value of token t, head h, through its descriptor. -/
def tokenVals (s : State) (u : List Byte) (l h t : Nat) (val : Bool) : List Nat :=
  let d := s.pageDesc l (h * auPph u + t / auTpp u)
  match s.keySlot (pdSlot d) with
  | none => List.replicate (auDh u) nan32
  | some k =>
    let o := pageOffs u (t % auTpp u)
    let fmt := auKvFmt u
    let e := pageRead s k d (if val then o.2.1 else o.1) (elemBytes fmt (auDh u))
    let x := if isMx fmt then pageRead s k d (if val then o.2.2.2 else o.2.2.1) (auDh u / 32) else []
    headVals fmt (auDh u) (e, x)

/-! ### Attention (R250) -/

/-- Round operands to a format in blocks of 32 (R252): MX with a shared scale, or bfloat16. -/
def roundOps (fmt : Nat) (xs : List Nat) : List Nat :=
  if isMx fmt then
    (blocks32 xs.length xs).flatMap (fun b =>
      let x := mxScale fmt b
      let bs := (List.range b.length).map (fun i => (mxOut fmt x (getAt 0 b i)).1)
      bs.map (fun c => if x = 0xFF then nan32 else match mxElem fmt c with
        | some (neg, m, e) => rnd32 (.fin neg m (e + (x : Int) - 127))
        | none => nan32))
  else xs.map (fun x => rnd32 (dec16 (rnd16 (dec32 x))))

/-- Sum of rounded products, block by block (R250). -/
def dot (q k : List Nat) : Nat :=
  (blocks32 q.length (List.zipWith mul32 q k)).foldl (fun acc b => add32 acc (b.foldl add32 0)) 0

/-- The largest binary32 code not above e^x for a finite x at most 0. -/
def expFloor (neg : Bool) (m : Nat) (e : Int) : Nat :=
  if 7 ≤ (Nat.log2 m : Int) + e then 0
  else
    let p := (fxExp (toFixed neg m e)).toNat
    let l := Nat.log2 p
    if fpBits ≤ l + 126 then (l + 127 - fpBits) * 2 ^ 23 + (p / 2 ^ (l - 23) - 2 ^ 23) else p / 2 ^ (fpBits - 149)

/-- e^x of the attention engines on a binary32 code of a value at most 0: the reference's value, within 2 ulp of the exact
one (R250). -/
def attExp (x : Nat) : Nat :=
  match dec32 x with
  | .nan => nan32
  | .inf _ => 0
  | .fin neg m e =>
    let d := if m = 0 then 0x3F800000 else expFloor neg m e
    max (d - (if d % 2 ^ 23 = 0 then 4 else 1)) (min (d + 2) (Config.attExp x).toNat)

/-- The running softmax of R250 over one page: maximum, sum and vector (none before the first page). -/
def softPage (pFmt : Option Nat) (st : Option (Nat × Nat × List Nat)) (scores : List Nat) (vals : List (List Nat)) :
    Option (Nat × Nat × List Nat) :=
  match scores with
  | [] => st
  | s0 :: ss =>
    let top := ss.foldl max32 s0
    let m := match st with
      | some (m0, _) => max32 m0 top
      | none => top
    let ps := (s0 :: ss).map (fun x => attExp (rnd32 ((dec32 x).add (dec32 m).neg)))
    let pr := match pFmt with
      | some f => roundOps f ps
      | none => ps
    let old := match st with
      | some (m0, l, o) =>
        let c := attExp (rnd32 ((dec32 m0).add (dec32 m).neg))
        (mul32 l c, o.map (fun x => mul32 x c))
      | none => (0, (getAt [] vals 0).map (fun _ => 0))
    some (m, ps.foldl add32 old.1,
      (List.zip pr vals).foldl (fun o pv => List.zipWith (fun a v => add32 a (mul32 pv.1 v)) o pv.2) old.2)

/-- Pages of the visible tokens lo to hi. -/
def pagesOf (tpp lo hi : Nat) : List (List Nat) :=
  (List.range (hi / tpp + 1 - lo / tpp)).map (fun j =>
    let p := lo / tpp + j
    (List.range tpp).filterMap (fun r => if lo ≤ p * tpp + r ∧ p * tpp + r ≤ hi then some (p * tpp + r) else none))

/-- Output of one query head as bfloat16 codes (R250 to R254). Thistle rounds query, keys and probabilities to T_FMT;
with bfloat16, and on Bindweed, every operand is rounded to it, values too. -/
def headOut (s : State) (u : List Byte) (engine l t : Nat) (q : List Nat) (h : Nat) : List Nat :=
  let tf := if engine = 1 then auTFmt u else 6
  let lo := if auSpan u = 0 then 0 else t + 1 - auSpan u
  let qq := roundOps tf q
  let st := (pagesOf (auTpp u) lo t).foldl (fun st toks =>
    softPage (some tf) st
      (toks.map (fun i => mul32 (dot qq (roundOps tf (tokenVals s u l h i false))) (auScale u)))
      (toks.map (fun i => let x := tokenVals s u l h i true; if tf = 6 then roundOps 6 x else x))) none
  match st with
  | some (_, sum, o) => o.map (fun x => rnd16 (dec32 (div32 x sum)))
  | none => List.replicate (auDh u) 0

end Sys2Proof.Machine
end

