-- ==== Sys2Proof/Machine/Attention.lean ====
section
/-! DEFINITION. ATT_WINDOW and ATT_GATHER (R245, R249 to R256, R259). A window that the installed attention
image does not hold at this beat, or that comes while the die does not fire, does nothing. -/

namespace Sys2Proof.Machine

/-- Reset domain of the engine that serves a window: a Bindweed half, or a side's first Thistle quadrant. -/
def engineDomain (engine side : Nat) : Nat := if engine = 0 then 0x48 + side else 0x40 + 2 * side

/-- The engine and its stack run: powered and not in reset. -/
def State.engineRuns (s : State) (engine side : Nat) : Bool :=
  s.hbmPresent side &&
    (if engine = 0 then s.powered (68 + side) && !s.inReset (0x48 + side) && !s.retiredDom (0x48 + side)
     else s.powered (64 + 2 * side) && s.powered (65 + 2 * side) && !s.inReset (0x40 + 2 * side) &&
       !s.inReset (0x41 + 2 * side) && !s.retiredDom (0x40 + 2 * side) && !s.retiredDom (0x41 + 2 * side))

/-- A window's position fails because its engine or stack is down: DOMAIN_RESET while a domain is, or
BLOCK_DISABLED while the side's enable is clear (R262, R354, R388). -/
def sideFail (s : State) (engine side f v d : Nat) : State :=
  if !s.engineRuns engine side then failStepIn s d f v 0x0107 0 0 []
  else failStepIn s d f v 0x010A 5 (8 + side) (leBytes 2 (8 + side) ++ leBytes 1 (b2n (s.spw.integ.contains (8 + side))))

/-- The engine and stack of a window run, and the side's block is enabled. -/
def State.sideServes (s : State) (engine side : Nat) : Bool :=
  s.engineRuns engine side && s.fld (Reg.hbmCfg_en side) == 1

/-- Number of earlier positions of the same sequence in the window (R259), failed ones with them. -/
def earlier (s : State) (f lo v : Nat) (c : Ctx) : Nat :=
  ((List.range (v - lo)).filter (fun i => match s.posOf f (lo + i) with
    | some p => !p.null && p.ctx.seqId == c.seqId && p.ctx.seqGen == c.seqGen
    | none => false)).length

/-- Fail a position for the window (R259): the syndrome names the case and the unit. -/
def failPos (s : State) (f v d side case0 au : Nat) : State :=
  failStepIn s d f v 0x0106 4 side (leBytes 1 case0 ++ leBytes 1 au)

/-- Check a position (R245, R259): the state after counting and failing, or the same state if it passes. Every position
that is live as the window begins, in `z`, is checked, whatever failed before it in the window. -/
def checkPos (z s : State) (w e v : Nat) : State :=
  let f := winField e
  let au := winUnit e
  let u := s.attUnit au
  let side := auSide u
  let d := engineDomain (winEngine e) side
  match z.posOf f v with
  | none => s
  | some p =>
    if p.null || p.failed then s
    else if !s.sideServes (winEngine e) side then sideFail s (winEngine e) side f v d
    else
      let need := packedBytes (auQFmt u) (auHq u * auDh u) + 2 * packedBytes (auKvFmt u) (auHkv u * auDh u)
      if (sget noBytes (s.side side).attIn v).length < need then
        let s1 := if (s.side side).attSeen.contains v then s.count (Reg.attLateCnt_late side) 1 else s
        failStepIn s1 d f v 0x0101 4 side (leBytes 1 0 ++ leBytes 1 s.slot)
      else match pageList s p.ctx au with
      | none => failPos (s.count (Reg.attFail_absentPage side) 1) f v d side 1 au
      | some (de, l) =>
        let t := deLen de + earlier s f (winVecLo e) v p.ctx
        let lo := if auSpan u = 0 then 0 else t + 1 - auSpan u
        let ds := (List.range (auHkv u)).flatMap (fun h =>
          (List.range (t / auTpp u + 1 - lo / auTpp u)).map (fun j => s.pageDesc l (h * auPph u + lo / auTpp u + j)))
        let other := s.att.served.any (fun x => x.1 == au && x.2.1 == p.ctx.seqId && x.2.2.1 == p.ctx.seqGen && x.2.2.2 != w + 1)
        if auPph u * auTpp u ≤ t || other || !ds.all pdValid then
          failPos (s.count (Reg.attFail_absentPage side) 1) f v d side 1 au
        else if bits (s.hbm l 4) 0 20 != p.ctx.tenant || !ds.all (fun x => match s.keySlot (pdSlot x) with
            | some k => k.tenant == p.ctx.tenant && k.keyId == s.hbm (l + 4) 4
            | none => false) then failPos (s.count (Reg.attFail_keyFault side) 1) f v d side 2 au
        else if s.hbm (l + 8) 4 != p.ctx.modelGen then failPos (s.count (Reg.attFail2_pageGen side) 1) f v d side 3 au
        else match ds.find? (fun x => s.ueIn (pdFrame x * 65536) 65536) with
        | some x => failPos (readUe s (pdFrame x * 65536) 65536 (if winEngine e = 0 then 1 else 3)) f v d side 4 au
        | none => s

/-- Token index and page list of a live position that has passed its checks. -/
def posToken (s : State) (e v : Nat) : Option (Ctx × Nat × Nat) :=
  match s.posOf (winField e) v with
  | some p =>
    if p.null || p.failed then none
    else match pageList s p.ctx (winUnit e) with
    | some (de, l) => some (p.ctx, l, deLen de + earlier s (winField e) (winVecLo e) v p.ctx)
    | none => none
  | none => none

/-- Bytes of a page's layout: what follows is the remainder (Table 12.6). -/
def pageEnd (u : List Byte) : Nat :=
  2 * auTpp u * auDh u * (if auKvFmt u = 6 then 2 else 1) + (if isMx (auKvFmt u) then 2 * auTpp u * auDh u / 32 else 0)

/-- Write the key and value of a position into its pages, head by head (R253, R257). With the first token of a page its
remainder is written as 0. -/
def writeKv (s : State) (e v : Nat) : State :=
  match posToken s e v with
  | none => s
  | some (c, l, t) =>
    let u := s.attUnit (winUnit e)
    let fmt := auKvFmt u
    let n := auHkv u * auDh u
    let bs := sget noBytes (s.side (auSide u)).attIn v
    let kb := bs.drop (packedBytes (auQFmt u) (auHq u * auDh u))
    let vb := kb.drop (packedBytes fmt n)
    let s1 := (List.range (auHkv u)).foldl (fun a h =>
      let d := a.pageDesc l (h * auPph u + t / auTpp u)
      match a.keySlot (pdSlot d) with
      | none => a
      | some k =>
        let o := pageOffs u (t % auTpp u)
        let hk := headBytes fmt (auDh u) n h kb
        let hv := headBytes fmt (auDh u) n h vb
        let a1 := pageWrite a (auSide u) k d o.1 hk.1
        let a2 := pageWrite a1 (auSide u) k d o.2.1 hv.1
        let a3 := if isMx fmt then pageWrite a2 (auSide u) k d o.2.2.1 hk.2 else a2
        let a4 := if isMx fmt then pageWrite a3 (auSide u) k d o.2.2.2 hv.2 else a3
        if t % auTpp u = 0 then pageWrite a4 (auSide u) k d (pageEnd u) (List.replicate (65536 - pageEnd u) 0) else a4) s
    s1

/-- Compute a position's attention and write it to the exchange area (R250, R251). -/
def computePos (s : State) (e v : Nat) : State :=
  match posToken s e v with
  | none => s
  | some (_, l, t) =>
    let u := s.attUnit (winUnit e)
    let bs := sget noBytes (s.side (auSide u)).attIn v
    let out := (List.range (auHq u)).flatMap (fun j =>
      let q := headVals (auQFmt u) (auDh u) (headBytes (auQFmt u) (auDh u) (auHq u * auDh u) j bs)
      headOut s u (winEngine e) l t q (j * auHkv u / auHq u))
    s.write (auExch u + (v - winVecLo e) * outPitch u) (out.flatMap (leBytes 2))

/-- The window's entry is due in this beat. -/
def State.winDue (s : State) (w kind : Nat) : Bool :=
  s.firing && decide (w < s.attWindows) && auKind (s.attUnit (winUnit (s.attWin w))) == kind &&
    winFirst (s.attWin w) / 64 == s.stepBeat (winField (s.attWin w))

/-- What the window notes of a position that names a sequence, failed or not (R259). -/
def servedPos (s : State) (e w v : Nat) : Option (Nat × Nat × Nat × Nat) :=
  match s.posOf (winField e) v with
  | some p => if p.null then none else some (winUnit e, p.ctx.seqId, p.ctx.seqGen, w + 1)
  | none => none

/-- Positions of a window whose reserved accesses are delayed past their beat, each with the pseudo-channel (R265). -/
def lateAccesses (s : State) (e : Nat) (late : List (Nat × Nat)) : State :=
  late.foldl (fun t x =>
    if winVecLo e ≤ x.1 ∧ x.1 < winVecLo e + winVecCnt e then hbmLate t (auSide (t.attUnit (winUnit e))) (winField e) x.1 x.2 else t) s

/-- Attention window (R249, R250, R253, R259, R265). -/
def execAttWindow (x : WinRun) (s : State) : Host.Outcome State Fault Refusal :=
  if !s.winDue x.w 0 then .next s
  else
    let e := s.attWin x.w
    let vs := (List.range (winVecCnt e)).map (fun i => winVecLo e + i)
    let s0 := s.atSlot (winFirst e % 64)
    let s1 := lateAccesses (vs.foldl (fun t v => checkPos s0 t x.w e v) s0) e x.late
    let s2 := vs.foldl (fun t v => writeKv t e v) s1
    let s3 := vs.foldl (fun t v => computePos t e v) s2
    let s4 := { s3 with att := { s3.att with served := s3.att.served ++ vs.filterMap (servedPos s3 e x.w) } }
    .next (s4.updSide (auSide (s4.attUnit (winUnit e))) (fun d => { d with
      attIn := vs.foldl (fun m v => sset noBytes m v []) d.attIn, attSeen := d.attSeen.filter (fun v => !vs.contains v)
      fetch := vs.foldl (fun m v => sset zeroNat m v 0) d.fetch }))

/-- An earlier position of the window names the same embedding row, so that the two share one read (R256). -/
def rowShared (z : State) (e v : Nat) (token : Nat) : Bool :=
  (List.range (v - winVecLo e)).any (fun i => match z.posOf (winField e) (winVecLo e + i) with
    | some p => !p.null && !p.failed && p.ctx.token == token
    | none => false)

/-- One position of a gather (R256): every position that is live as the window begins, in `z`. -/
def gatherPos (z s : State) (e v : Nat) : State :=
  let u := s.attUnit (winUnit e)
  let side := auSide u
  let f := winField e
  let d := engineDomain (winEngine e) side
  match z.posOf f v with
  | none => s
  | some p =>
    if p.null || p.failed then s
    else if !s.sideServes (winEngine e) side then sideFail s (winEngine e) side f v d
    else if auEmbRows u ≤ p.ctx.token then failPos (s.count (Reg.attFail2_tokenRange side) 1) f v d side 0 (winUnit e)
    else
      let a := auEmbBase u + p.ctx.token * (auEmbWidth u * 2)
      if s.ueIn a (auEmbWidth u * 2) then
        failPos (if rowShared z e v p.ctx.token then s else readUe s a (auEmbWidth u * 2) 1) f v d side 4 (winUnit e)
      else if !s.live f v then s
      else s.write (auExch u + (v - winVecLo e) * outPitch u) (s.read a (auEmbWidth u * 2))

/-- Gather window (R256, R265). -/
def execAttGather (x : WinRun) (s : State) : Host.Outcome State Fault Refusal :=
  if !s.winDue x.w 1 then .next s
  else
    let e := s.attWin x.w
    let vs := (List.range (winVecCnt e)).map (fun i => winVecLo e + i)
    let s0 := s.atSlot (winFirst e % 64)
    let s1 := vs.foldl (fun t v => gatherPos s0 t e v) (lateAccesses s0 e x.late)
    .next (s1.updSide (auSide (s1.attUnit (winUnit e))) (fun d => { d with fetch := vs.foldl (fun m v => sset zeroNat m v 0) d.fetch }))

end Sys2Proof.Machine
end

