-- ==== Sys2Proof/Machine/LinkOps.lean ====
section
/-! DEFINITION. Shared operations of the links: state changes, lane sets, the expected neighbour of the
obeyed map, and the HELLO the die sends (R174, R182 to R190, R409). -/

namespace Sys2Proof.Machine

/-- A link read outside the thirteen. -/
def noLink : Link := {}

/-- Half of a die ID (Table 1.1). -/
def dieHalf (d : Nat) : Nat := bits d 17 1

/-- Link `n`: 0 to 7 are P0 to P7, 8 to 11 are U0 to U3, 12 is U4. -/
def State.lnk (s : State) (n : Nat) : Link := getAt noLink s.links n

/-- Change link `n`. -/
def State.updLnk (s : State) (n : Nat) (g : Link → Link) : State := { s with links := updAt s.links n g }

/-- Power domain of a link (Table 17.1): SerDes half N or S, UCIe edge N or S. -/
def linkDomain (n : Nat) : Nat :=
  if n < 4 then 72 else if n < 8 then 73 else if n = 10 ∨ n = 11 then 75 else 74

/-- Reset domain of a link 0 to 11 (Table 15.12); UCIe edge N covers U0 and U1 only. -/
def linkResetDomain (n : Nat) : Nat := if n < 8 then 0x60 + n else if n < 10 then 0x70 else 0x71

/-- The link carries unscheduled frames, PTP and beat exchange (Table 9.3). -/
def State.linkUp (s : State) (n : Nat) : Bool :=
  (s.lnk n).state == .probation || (s.lnk n).state == .inService

/-- States in which no lane set is in use. -/
def unlocked (st : LinkState) : Bool := st == .disabled || st == .down || st == .phyTrain

/-- No lane of a link is in use or locked (Table 9.7). -/
def dropLanes (s : State) (n : Nat) : State :=
  let s1 := s.setFld (Reg.linkStatus_lanesUsed n) 0
  if n < 8 then (List.range 4).foldl (fun t l => t.setFld (Reg.laneStat_locked n l) 0) s1 else s1

/-- Some link carries unscheduled frames, so that a frame for the die may arrive (Table 9.3). -/
def State.anyLink (s : State) : Bool := (List.range 12).any s.linkUp

/-- Move a link to another state: INT_STATUS.LINK is set; entry to QUARANTINE and leaving IN_SERVICE make a health report due
(R298, R396); the cause of a quarantine, the common revision and the lanes in use last as long as Table 9.7 gives. -/
def setLink (s : State) (n : Nat) (st : LinkState) : State :=
  let old := (s.lnk n).state
  if old = st then s
  else
    let ev := if st = .quarantine then setBit s.healthEv 1 else s.healthEv
    let ev := if old = .inService then setBit ev 2 else ev
    let s1 := { s with healthEv := ev }
    let s2 := s1.updLnk n (fun l => { l with
      state := st, accepted := (st == .probation || st == .inService) && l.accepted, outPend := none, beatsOk := 0, missed := 0, offBeat := 0, markIn := true
      acks := [], exch := false, early := false, before := none, rcvd := 0, sent := 0, sentPrev := 0, sentPrev2 := 0, holdTo := 0, freeAt := 0 })
    let s3 := if st = .quarantine then s2 else s2.setFld (Reg.linkStatus_quarCause n) 0
    let s4 := if st = .identify ∨ unlocked st = true then s3.setFld (Reg.linkStatus_fpv n) 0 else s3
    let s5 := if unlocked st then dropLanes s4 n else s4
    raiseInt s5 12

/-- Enter DISABLED (R183): also when the link's domain is gated. -/
def disableLink (s : State) (n : Nat) : State := setLink s n .disabled

/-- Begin full training: failed lanes are tried again (R184). -/
def startTraining (s : State) (n : Nat) : State :=
  let s1 := (s.setFld (Reg.linkStatus_failedLanes n) 0).updLnk n (fun l => { l with berBad := [0, 0, 0, 0] })
  let s2 := if n < 8 then (List.range 4).foldl (fun t l => t.setFld (Reg.laneStat_failed n l) 0) s1 else s1
  setLink s2 n .phyTrain

/-- Leave service for a retrain; revision 1 has no fast retrain, so the link goes on to full training
(Table 9.4, R188). -/
def retrainLink (s : State) (n : Nat) : State :=
  if s.fld (Reg.linkStatus_fpv n) = 1 then startTraining s n else setLink s n .retrain

/-! ### Events of one beat (R183) -/

/-- TRAIN_CNT of a link. -/
def trainCntReg (n : Nat) : Nat := (Reg.trainCnt_trainFail n).reg

/-- Before an event of row `r` of Table 9.4: a later row applied in the same beat gives way to it, where the event meets the
state which that row left. A fault record that the later row has written stays (log entry 84). -/
def rowState (s : State) (n r : Nat) (ok : LinkState → Bool) : State :=
  match (s.lnk n).before with
  | some (r', st, w) =>
    if r < r' ∧ ok st = true then
      ((s.setWord (trainCntReg n) w).setFld (Reg.linkStatus_quarCause n) 0).updLnk n (fun l => { l with state := st, before := none })
    else s
  | none => s

/-- Note that row `r` took the link from its state in `s` to that in `t`. -/
def rowTook (s : State) (n r : Nat) (t : State) : State :=
  t.updLnk n (fun l => { l with before := some (r, (s.lnk n).state, s.word (trainCntReg n)) })

/-! ### Lane sets (R174) -/

/-- The lane set chosen from a mask of qualifying lanes. -/
def laneSet (standard : Bool) (q : Nat) : Nat :=
  if standard then
    if q % 16 = 15 then 15
    else if bits q 0 2 = 3 then 3
    else if bits q 2 2 = 3 then 12
    else if hasBit q 0 then 1 else if hasBit q 1 then 2 else if hasBit q 2 then 4 else if hasBit q 3 then 8 else 0
  else q % 16

/-- Lanes of port `n` that qualify: good at both ends, permitted, and not failed. -/
def State.qualify (s : State) (n good : Nat) : Nat :=
  (List.range 4).foldl (fun q l =>
    if hasBit good l && hasBit (s.fld (Reg.linkCfg_laneMask n)) l && !hasBit (s.fld (Reg.linkStatus_failedLanes n)) l
    then setBit q l else q) 0

/-- Lanes in use of a link (a mask, log entry 12). -/
def State.lanes (s : State) (n : Nat) : Nat := s.fld (Reg.linkStatus_lanesUsed n)

/-- Record the lane set and the receive delay of a finished training; false where no lane set meets
MIN_LANES. UCIe modules have no lane degrade (Table 9.2). -/
def takeLanes (s : State) (n good delay : Nat) : State × Bool :=
  if 8 ≤ n then (s.setFld (Reg.rxDelay_delay n) delay, true)
  else
    let q := laneSet (s.fld (Reg.linkCfg_mode n) == 1) (s.qualify n good)
    if popCount q 4 ≤ s.fld (Reg.linkCfg_minLanesM1 n) then
      (s.setFld (Reg.linkStatus_degradeFail n) 1, false)
    else
      let s1 := (s.setFld (Reg.linkStatus_degradeFail n) 0).setFld (Reg.linkStatus_lanesUsed n) q
      let s2 := s1.setFld (Reg.rxDelay_delay n) delay
      let s3 := (List.range 4).foldl (fun t l => t.setFld (Reg.laneStat_locked n l) (b2n (hasBit q l))) s2
      (s3.updLnk n (fun l => { l with good := good % 16 }), true)

/-! ### The obeyed map's entry for a link (Table 19.9) -/

/-- The die's own entry in a map. -/
def TopoMap.entryOf (t : TopoMap) (d : Nat) : Option MapDie := t.dies.find? (fun e => e.dieId == d)

/-- The die's entry in the map it obeys. -/
def State.myEntry (s : State) : Option MapDie := s.sec.map.bind (fun t => t.entryOf s.myId)

/-- The link entry of link `n` in the obeyed map; none before the first map (R411). -/
def State.linkEntry (s : State) (n : Nat) : Option Nat := s.myEntry.map (fun e => getAt 0 e.links n)

/-- TYPE of a link entry: 0 UNUSED, 1 DIE, 2 SWITCH, 3 OPEN. -/
def entryType (e : Nat) : Nat := bits e 29 3

/-- The map leaves the link open (no identity exchange). -/
def State.isOpen (s : State) (n : Nat) : Bool :=
  match s.linkEntry n with
  | some e => entryType e == 3
  | none => false

/-- Expected DIE_ID and PORT of the partner (Table 9.5, R187): for a switch, the die's own half and rack
with the expected switch port, and 16 + plane. -/
def State.expects (s : State) (n : Nat) : Nat × Nat :=
  match s.linkEntry n with
  | some e =>
    if entryType e = 2 then (s.myId / 256 * 256 + bits e 0 8, bits e 18 5) else (bits e 0 18, bits e 18 5)
  | none => (0, 0)

/-- The epoch obeyed; 0 before the first map. -/
def State.epoch (s : State) : Nat := (s.sec.map.map (fun t => t.epoch)).getD 0

/-- The HELLO the die sends on link `n` (Table 9.5). -/
def State.helloOf (s : State) (n : Nat) : Hello :=
  { kind := 0x10, peerOk := (s.lnk n).accepted && s.sec.map.isSome, quar := (s.lnk n).state == .quarantine
    isSwitch := false, resvBits := false, fpvMin := s.fld (Reg.linkCfg_fpvMin n), fpvMax := 2
    dieId := s.myId, port := n, goodLanes := (s.lnk n).good &&& (15 - s.fld (Reg.linkStatus_failedLanes n)), romRev := Config.romRev.toNat
    patch := s.fld Reg.patchLevel_level, mapEpoch := s.epoch, expDie := (s.expects n).1
    expPort := (s.expects n).2, tstate := s.time.state.code
    mapDigest := (s.sec.map.map (fun t => t.digest)).getD (List.replicate 32 0)
    modelGen := if s.fld Reg.shardStatus_activeValid = 1 then s.fld Reg.modelGenCur_gen else 0 }

/-- The 72 bytes of a HELLO (Table 9.5). -/
def helloBytes (h : Hello) : List Byte :=
  leBytes 1 h.kind ++ leBytes 1 (b2n h.peerOk + 2 * b2n h.quar + 4 * b2n h.isSwitch) ++ leBytes 1 h.fpvMin ++ leBytes 1 h.fpvMax
    ++ leBytes 4 h.dieId ++ leBytes 1 h.port ++ leBytes 1 h.goodLanes ++ leBytes 2 0 ++ leBytes 4 h.romRev ++ leBytes 4 h.patch
    ++ leBytes 4 h.mapEpoch ++ leBytes 4 h.expDie ++ leBytes 1 h.expPort ++ leBytes 1 h.tstate ++ leBytes 2 0
    ++ slice h.mapDigest 0 32 ++ leBytes 4 h.modelGen ++ leBytes 4 0

/-- The fields of a received payload (Table 9.5). -/
def readHello (b : List Byte) : Hello :=
  let fl := fieldAt b 1 1
  { kind := fieldAt b 0 1, peerOk := hasBit fl 0, quar := hasBit fl 1, isSwitch := hasBit fl 2
    resvBits := b.length != 72 || decide (8 ≤ fl) || decide (2 ^ 18 ≤ fieldAt b 4 4) || decide (16 ≤ fieldAt b 9 1) || fieldAt b 10 2 != 0 ||
      decide (2 ^ 18 ≤ fieldAt b 24 4) || fieldAt b 30 2 != 0 || fieldAt b 68 4 != 0
    fpvMin := fieldAt b 2 1, fpvMax := fieldAt b 3 1, dieId := fieldAt b 4 4, port := fieldAt b 8 1, goodLanes := fieldAt b 9 1
    romRev := fieldAt b 12 4, patch := fieldAt b 16 4, mapEpoch := fieldAt b 20 4, expDie := fieldAt b 24 4, expPort := fieldAt b 28 1
    tstate := fieldAt b 29 1, mapDigest := slice b 32 32, modelGen := fieldAt b 64 4 }

/-- Record the partner's identity (R186, R189). -/
def recordNbr (s : State) (n : Nat) (h : Hello) : State :=
  let s1 := (s.setFld (Reg.nbrId_nbrDie n) h.dieId).setFld (Reg.nbrId_nbrPort n) h.port
  (s1.setFld (Reg.nbrRom_romRev n) h.romRev).setFld (Reg.nbrPatch_patchLevel n) h.patch

/-- Enter QUARANTINE with a cause (R189). -/
def quarantine (s : State) (n cause : Nat) (h : Option Hello) : State :=
  let s1 := s.setFld (Reg.linkStatus_quarCause n) cause
  let s2 := match h with
    | some x => recordNbr s1 n x
    | none => s1
  let s3 := s2.count (Reg.trainCnt_quarCnt n) 1
  let id := match h with
    | some x => leBytes 4 x.dieId ++ leBytes 1 x.port ++ leBytes 3 0 ++ leBytes 4 x.romRev
    | none => []
  let s4 := setLink s3 n .quarantine
  recordFault s4 3 0x0301 (linkResetDomain n) 3 n {} (leBytes 1 cause ++ leBytes 3 0 ++ id)

/-- Identity checks restart on every link that exchanges HELLOs (R190, Table 9.4): IDENTIFY and
QUARANTINE links (re-)enter IDENTIFY. -/
def restartChecks (s : State) : State :=
  (List.range 12).foldl (fun t n =>
    match (t.lnk n).state with
    | .quarantine => (setLink t n .identify).updLnk n (fun l => { l with peer := none })
    | .identify => t.updLnk n (fun l => { l with peer := none, accepted := false })
    | _ => t) s

/-- The partner is a die that sends markers: U0 to U3 and P6 (Table 7.9). -/
def markerLink (n : Nat) : Bool := n == 6 || (decide (8 ≤ n) && decide (n < 12))

/-- The link runs the beat exchange: P0 to P5 and P7 reflect markers; P7 not when exempt. -/
def State.exchanges (s : State) (n : Nat) : Bool :=
  decide (n < 12) && !(n == 7 && s.fld (Reg.linkBeat_exempt 7) == 1)

/-- An event of R149: the link is out of step from the next beat boundary; `beat` is what is missing. -/
def beatEvent (s : State) (n beat : Nat) : State :=
  s.updLnk n (fun l => { l with outPend := some (l.outPend.getD (beat % 2 ^ 32)), beatsOk := 0 })

end Sys2Proof.Machine
end

