-- ==== Sys2Proof/Machine/CalOps.lean ====
section
/-! DEFINITION. Calibration, drift and refresh (chapter 6): tile records, retirement, column remaps, wear,
converter maps, reference rows and sampled checks. -/

namespace Sys2Proof.Machine

/-! ### The tile record (R122) -/

/-- Write a tile's record: the next copy in alternation, with the time of the write. -/
def writeRecord (s : State) (t : Nat) : State :=
  s.updTile t (fun x =>
    let r := { x.live with saveTime := s.ns }
    if x.lastB then { x with live := r, copyA := some r, lastB := false }
    else { x with live := r, copyB := some r, lastB := true })

/-- Note a cause that retires a tile from the next beat boundary: the first cause stands, and of several in one cycle the
lowest code (R57). -/
def retireTile (s : State) (t cause : Nat) : State :=
  s.updTile t (fun x =>
    match x.retire with
    | none => if x.live.retired then x else { x with retire := some (cause, s.beat, s.cyc) }
    | some (c, b, y) => if b = s.beat ∧ y = s.cyc ∧ cause < c then { x with retire := some (cause, b, y) } else x)

/-- Charge wear in units of 1/1,024 of a program cycle (R121). -/
def chargeWear (s : State) (t units : Nat) : State :=
  if units = 0 then s
  else
    let s1 := s.updTile t (fun x =>
      let w := min (2 ^ 27 - 1) (x.live.wear + units)
      { x with live := { x.live with wear := w, warn := x.live.warn || decide (92160000 ≤ w) } })
    let s2 := if 102400000 ≤ (s1.tile t).live.wear then retireTile s1 t 3 else s1
    writeRecord s2 t

/-- Wear of a session that pulsed p distinct cells. -/
def pulseWear (p : Nat) : Nat := (1024 * p + 532479) / 532480

/-- Cells that go to other levels as digit d becomes d': L+ = max(d, 0), L− = max(−d, 0) (R38). -/
def cellsMoved (d d' : Int) : Nat := (if max d 0 = max d' 0 then 0 else 1) + (if max (-d) 0 = max (-d') 0 then 0 else 1)

/-- Distinct cells that programming column j of tile t from column `src` of an image pulses. -/
def columnCells (s : State) (t j img src : Nat) : Nat :=
  (List.range 512).foldl (fun n i => n + cellsMoved (s.cell t i j) (s.wantDigit img i src)) 0

/-- The contents of a record as stored, less its CRC (Table 6.5). -/
def recordBody (r : TileRec) : List Byte :=
  leBytes 2 1 ++ leBytes 2 (b2n r.retired + 2 * (r.cause % 8) + 16 * b2n r.warn) ++ leBytes 4 r.wear ++ leBytes 8 r.saveTime ++
    leBytes 4 r.age ++ leBytes 4 r.refreshes ++ (List.range 8).flatMap (fun j => leBytes 2 (getAt 0 r.remap j)) ++ leBytes 4 r.convMap ++
    leBytes 20 0 ++ (List.range 66).flatMap (fun k => leBytes 1 (getAt (128, 0) r.trims k).1 ++ leBytes 1 (getAt (128, 0) r.trims k).2) ++
    leBytes 2 r.lastGain ++ leBytes 54 0

/-- The 256 bytes of a record. -/
def recordBytes (r : TileRec) : List Byte := recordBody r ++ leBytes 4 (crc32c (recordBody r)).toNat

/-- The record that a stored copy holds: none where its FORMAT or its CRC is not valid (R123). -/
def readRecord (b : List Byte) : Option TileRec :=
  if fieldAt b 0 2 = 1 ∧ fieldAt b 252 4 = (crc32c (b.take 252)).toNat then
    some { retired := hasBit (fieldAt b 2 2) 0, cause := bits (fieldAt b 2 2) 1 3, warn := hasBit (fieldAt b 2 2) 4
           wear := fieldAt b 4 4 % 2 ^ 27, saveTime := fieldAt b 8 8, age := fieldAt b 16 4 % 2 ^ 22, refreshes := fieldAt b 20 4
           remap := (List.range 8).map (fun j => fieldAt b (24 + 2 * j) 2), convMap := fieldAt b 40 4
           trims := (List.range 66).map (fun k => (fieldAt b (64 + 2 * k) 1, fieldAt b (65 + 2 * k) 1)), lastGain := fieldAt b 196 2 }
  else none

/-- A stored copy with byte i changed by `x`. -/
def spoilCopy (i x : Nat) (c : Option TileRec) : Option TileRec :=
  c.bind (fun r => readRecord ((recordBytes r).zipIdx.map (fun e => if e.2 = i then e.1 ^^^ BitVec.ofNat 8 x else e.1)))

/-- Byte `off` of a field's 64 KiB record block changes by `x`: copy A and then copy B of each tile in turn (R122). -/
def spoilRecord (s : State) (f off x : Nat) : State :=
  match (fieldTiles f)[off % 65536 / 512]? with
  | some t => s.updTile t (fun y =>
      if off % 512 < 256 then { y with copyA := spoilCopy (off % 256) x y.copyA } else { y with copyB := spoilCopy (off % 256) x y.copyB })
  | none => s

/-! ### Targets (R241) -/

/-- Swap states of Table 11.10. -/
def State.swapState (s : State) : Nat := s.fld Reg.shardStatus_swapState

/-- The shard that a unit's tiles are programmed from: the staging slot for a unit already rewritten or
being rewritten, the active slot otherwise. -/
def State.targetBase (s : State) (unit : Nat) : Nat :=
  let w := s.swapState
  if (1 ≤ w ∧ w ≤ 4) ∧ (s.unitGen unit = s.fld Reg.modelGenNext_gen ∨ (w = 2 ∧ s.fld Reg.swapUnit_unitId = unit))
  then s.stageBase else s.activeBase

/-- The shard a tile's cells are held to. -/
def State.tileBase (s : State) (t : Nat) : Nat := s.targetBase (s.tileUnit s.activeBase t)

/-- Column programmed into spare j: the one its remap entry names. -/
def spareSource (l : List Nat) (j : Nat) : Nat := bits (getAt 0 l j) 0 9

/-- Cowslip reads a tile image: uncorrectable granules count, and an image of the active slot becomes bad (R381). -/
def readImage (s : State) (t img : Nat) : State :=
  if img = s.imageAddr s.activeBase t then readObject s t img 270336 else if s.ueIn img 270336 then readUe s img 270336 4 else s

/-- Program every weight column and every spare that a valid entry names from a tile image (R234). -/
def programTile (s : State) (t img : Nat) : State :=
  let s1 := (List.range 512).foldl (fun a j => programColumn a t j img j) (readImage s t img)
  let l := (s.tile t).live.remap
  ((List.range 8).filter (fun j => hasBit (getAt 0 l j) 15)).foldl
    (fun a j => programColumn a t (512 + j) img (spareSource l j)) s1

/-! ### Failed columns (R120) -/

/-- The physical column that carries column c: for a logical column (0 to 511) that a spare replaces, 512 + j of the
spare; otherwise c itself (R54). -/
def carrier (l : List Nat) (c : Nat) : Nat :=
  if 512 ≤ c then c
  else match (List.range 8).find? (fun j => bits (getAt 0 l j) 14 2 == 2 && spareSource l j == c) with
  | some j => 512 + j
  | none => c

/-- A spare column, as 512 + j, has failed before or replaces nothing. -/
def spareIdle (l : List Nat) (k : Nat) : Bool := decide (512 ≤ k) && bits (getAt 0 l (k - 512)) 14 2 != 2

/-- Handle a failed column (a logical column, or 512 + j for spare Sj): the lowest unused spare takes the digits of
the column it replaces, a session charged as wear (R121), or the tile is retired with cause 1 where all eight are in use.
Where a spare carries the logical column, it is that spare which fails (R120). A tile at its wear limit is not pulsed. -/
def failColumn (t : Nat) (s : State) (c : Nat) : State :=
  let l := (s.tile t).live.remap
  let k := carrier l c
  let col := if k < 512 then k else spareSource l (k - 512)
  if spareIdle l k || decide (102400000 ≤ (s.tile t).live.wear) then s
  else match (List.range 8).find? (fun j => !hasBit (getAt 0 l j) 15) with
  | none => retireTile s t 1
  | some j =>
    let img := s.imageAddr (s.tileBase t) t
    let cells := columnCells s t (512 + j) img col
    let s1 := programColumn (if cells = 0 then s else notePulse s t) t (512 + j) img col
    let l1 := if k < 512 then l else updAt l (k - 512) (fun e => setBit e 14)
    let s2 := s1.updTile t (fun x => { x with live := { x.live with remap := setAt l1 j (2 ^ 15 + col) } })
    writeRecord (chargeWear s2 t (pulseWear cells)) t

/-! ### Converters (Table 3.14, R55, R111, R112) -/

/-- Position of a spare's half of CONV_MAP: 64 low, 65 high. -/
def cmLo (k : Nat) : Nat := (k - 64) * 16

/-- CONV_MAP with a spare's half replaced. -/
def cmSet (m k : Nat) (perm active : Bool) (c : Nat) : Nat :=
  let other := bits m (16 - cmLo k) 16
  let half := c % 64 + 2 ^ 14 * b2n active + 2 ^ 15 * b2n perm
  if k = 64 then half + 65536 * other else other + 65536 * half

/-- The spare that stands in for converter k for good. -/
def permSpare (m k : Nat) : Option Nat := [64, 65].find? (fun x => cmActive m x && cmPerm m x && cmConv m x == k)

/-- Converters that a permanent stand-in replaces, or spares retired. -/
def convOut (x : Tile) (k : Nat) : Bool := if k < 64 then (permSpare x.live.convMap k).isSome else hasBit x.deadSpares (k - 64)

/-- Converter k's columns are converted by it alone: it is one of the 64, or a spare that stands in (R111). -/
def converts (m k : Nat) : Bool := decide (k < 64) || cmActive m k

/-- No converter state. -/
def noConv (_ : Nat) : ConvSt := {}

/-- Calibration state of converter k of tile t. -/
def State.conv (s : State) (t k : Nat) : ConvSt := sget noConv (s.tile t).convs k

/-- Change it. -/
def updConv (s : State) (t k : Nat) (g : ConvSt → ConvSt) : State :=
  s.updTile t (fun x => { x with convs := sset noConv x.convs k (g (sget noConv x.convs k)) })

/-- TRIM_PERIOD of a field in nanoseconds, 0 treated as 1 (Table 6.7). -/
def State.trimPeriod (s : State) (f : Nat) : Nat := max 1 (s.fld (Reg.calCfg_trimPeriod f)) * 1000000000

/-- The converter's last accepted trim is older than TRIM_PERIOD. -/
def State.trimOld (s : State) (t k : Nat) : Bool := decide ((s.conv t k).at0 + s.trimPeriod (tileField t) < s.ns)

/-- Reported temperature in units of 0.25 °C. -/
def State.tempNow (s : State) : Int := toSigned 16 (s.fld Reg.tempNow_temp)

/-- A trim of the converter is due (R109). -/
def State.trimDue (s : State) (t k : Nat) : Bool :=
  let c := s.conv t k
  s.trimOld t k || c.offs ||
    decide (4 * max 1 (s.fld (Reg.calCfg_trimDelta (tileField t))) ≤ (s.tempNow - toSigned 16 c.temp).natAbs)

/-- Converters of a tile whose trims run. -/
def Tile.busyConvs (x : Tile) : Nat := (x.convs.filter (fun c => c.2.busy)).length

/-- Converters of a field whose trims run (R107, TRIM_BUSY). -/
def State.fieldTrims (s : State) (f : Nat) : Nat := (fieldTiles f).foldl (fun n t => n + (s.tile t).busyConvs) 0

/-- A free spare of a tile for a trim of converter k (R111). -/
def freeSpare (s : State) (t k : Nat) : Option Nat :=
  let x := s.tile t
  [64, 65].find? (fun y => y != k && !cmActive x.live.convMap y && !hasBit x.deadSpares (y - 64) && !s.trimOld t y)

/-- The converter whose columns converter k converts now: k itself, or what a permanent spare stands in for. -/
def columnsOf (r : TileRec) (k : Nat) : Nat := if k < 64 then k else cmConv r.convMap k

/-- The tile is in the running programming wave, which uses every slot of it (R233). -/
def State.inWave (s : State) (t : Nat) : Bool :=
  match s.shard.progs with
  | p :: _ => match p.waves with
    | w :: _ => p.begun && w.any (fun e => e.1 == t)
    | [] => false
  | [] => false

/-- The field of a tile is powered and not in reset, and the tile not retired and in no running wave. -/
def State.tileLive (s : State) (t : Nat) : Bool :=
  s.sramPresent (tileField t) && !(s.tile t).live.retired && !s.inWave t

/-- The field runs a pass that uses no slots: it is not enabled (R110, R125). -/
def State.passMode (s : State) (t : Nat) : Bool := s.tileLive t && !s.fieldEn (tileField t)

/-- Retire converter k after three failed attempts, at the beat boundary that ends the third (R55, R112): its stand-in
becomes permanent; without one, an unused spare does; without any, the tile is retired with cause 2. -/
def retireConverter (s : State) (t k : Nat) : State :=
  let r := (s.tile t).live
  let old := (s.tile t).deadSpares
  let spare := match (s.conv t k).spare with
    | some (x, _) => some x
    | none => [64, 65].find? (fun x => x != k && !cmActive r.convMap x && !hasBit old (x - 64))
  let s1 := updConv s t k (fun c => { c with busy := false, due := false, fails := 0, spare := none, out := none })
  let s2 := s1.updTile t (fun x => { x with deadSpares := if k < 64 then old else setBit old (k - 64) })
  match converts r.convMap k, spare with
  | false, _ => writeRecord s2 t
  | true, some y =>
    let m := if k < 64 then r.convMap else cmSet r.convMap k false false 0
    writeRecord (s2.updTile t (fun x => { x with live := { x.live with convMap := cmSet m y true true (columnsOf r k) } })) t
  | true, none => writeRecord (retireTile s2 t 2) t

/-- The mean codes at 0, +96 and −96 LSB lie within ±0.5 over 64 conversions each, and the trims are in the
range of Table 6.1 (R111). -/
def trimOk (gain off : Int) (sums : List Int) : Bool :=
  decide (0 ≤ gain) && decide (gain ≤ 255) && decide (-128 ≤ off) && decide (off ≤ 127) &&
    (List.zip [0, 6144, -6144] sums).all (fun p => decide ((p.2 - p.1).natAbs ≤ 32)) && sums.length == 3

/-- One attempt on converter k, whose trim is in progress from its first one on (R107): accepted, failed, or the third
failure, which retires it at the next boundary (R111, R112). -/
def trimAttempt (s : State) (t k : Nat) (gain off : Int) (sums : List Int) : State :=
  if trimOk gain off sums then
    updConv s t k (fun c => { c with busy := true, at0 := s.ns, temp := s.fld Reg.tempNow_temp, due := false, offs := false, fails := 0, once := true, next := some (gain.toNat, ofSigned 8 off, s.beat) })
  else
    (updConv s t k (fun c =>
      { c with busy := true, fails := c.fails + 1, out := if 2 ≤ c.fails then some s.beat else none })).count (Reg.trimFailCnt (tileField t)) 1

/-- A converter whose third attempt failed is retired at the next boundary (R112). -/
def retireFailed (s : State) (t : Nat) (e : Nat × ConvSt) : State :=
  match e.2.out with
  | some b => if b < s.beat then retireConverter s t e.1 else s
  | none => s

/-- Accepted trims take effect at a beat boundary after their beat: the stand-in ends and the converter resumes
with its new trims (R111, R113); a converter that failed is retired. -/
def applyTrims (s : State) (t : Nat) : State :=
  (s.tile t).convs.foldl (fun a e =>
    match e.2.next with
    | none => retireFailed a t e
    | some (g, o, b) =>
      if a.beat ≤ b then a
      else
        let a1 := a.updTile t (fun x => { x with live := { x.live with trims := setAt x.live.trims e.1 (g, o) } })
        let a2 := updConv a1 t e.1 (fun c => { c with next := none, busy := false, spare := none })
        match e.2.spare with
        | some (y, _) => writeRecord (a2.updTile t (fun x => { x with live := { x.live with convMap := cmSet x.live.convMap y false false 0 } })) t
        | none => a2) s

/-! ### Refresh (R118 to R121) -/

/-- Age weight of a band per second (Table 6.4). -/
def ageWeight (band : Nat) : Nat := if band = 0 then 3 else if band = 1 then 10 else if band = 2 then 40 else 180

/-- Set EARLY, which also makes the refresh pending (R119). -/
def setEarly (s : State) (t : Nat) : State := (s.setFld (Reg.driftStat_early t) 1).setFld (Reg.driftStat_pending t) 1

/-- The refresh of a tile may run: pending, with a good master copy, its wear below the limit (R121), and the tile in no
running wave. -/
def State.refreshReady (s : State) (t : Nat) : Bool :=
  s.fld (Reg.driftStat_pending t) == 1 && !s.objBad t && s.tilePresent s.activeBase t && decide ((s.tile t).live.wear < 102400000) &&
    !s.inWave t

/-- A refresh completes (R119 to R121): cells at their targets, failed columns handled, wear charged, age 0. -/
def refreshDone (s : State) (t cells : Nat) (failed : List Nat) : State :=
  let s1 := programTile (if cells = 0 then s else notePulse s t) t (s.imageAddr (s.tileBase t) t)
  let s2 := s1.updTile t (fun x => { x with
    refM := 0, live := { x.live with age := 0, refreshes := (x.live.refreshes + 1) % 2 ^ 32 } })
  let s3 := (((s2.setFld (Reg.driftStat_early t) 0).setFld (Reg.driftStat_pending t) 0).setFld (Reg.driftStat_overdue t) 0).setFld
    (Reg.driftStat_refreshing t) 0
  let s4 := failed.foldl (failColumn t) s3
  writeRecord (chargeWear s4 t (pulseWear cells)) t

/-! ### Reference rows (R114) -/

/-- Digit that every column and spare holds in a reference row, physical rows 512 to 519. -/
def refDigit (row : Nat) : Int := if row < 516 then 15 else -15

/-- Ideal code of a drive of four reference rows from `row` on, at RANGE 0. -/
def refCode (row : Nat) : Int := (convert 0 ((List.range 4).foldl (fun a i => a + refDigit (row + i)) 0) 0).1

/-- Ideal difference of the sums of 64 codes on rows 512 to 515 and on rows 516 to 519: 64 × 32. -/
def refSpan : Int := 64 * refCode 512 - 64 * refCode 516

/-- The converter of a column: c / 8, or the spare that stands in for it for good (R42, R55). -/
def columnConv (m c : Nat) : Nat := (permSpare m (c / 8)).getD (c / 8)

/-- Outcome of one column of a reference-row measurement: sums of 64 codes on the +15 and −15 rows. -/
def refColumn (tol : Nat) (t : Nat) (s : State) (c : Nat) (p n : Int) : State :=
  let dev := (p - n - refSpan).natAbs
  let s1 := if 128 < (p + n).natAbs then updConv s t (columnConv (s.tile t).live.convMap c) (fun x => { x with offs := true, due := true }) else s
  if refSpan < dev * 10 then failColumn t s1 c
  else if tol * refSpan < dev * 1000 then setEarly s1 t
  else s1

/-- A reference-row measurement ends: Table 6.3 for every logical column, and LAST_GAIN. -/
def refRowDone (s : State) (t : Nat) (pos neg : List Int) : State :=
  let tol := s.fld (Reg.calCfg_driftTol (tileField t))
  let s1 := (List.range 512).foldl (fun a c => refColumn tol t a c (getAt 0 pos c) (getAt 0 neg c)) s
  let worst := (List.range 512).foldl (fun m c => max m ((getAt 0 pos c - getAt 0 neg c - refSpan).natAbs * 32)) 0
  s1.updTile t (fun x => { x with refRowM := 0, refRowAt := s.ns, sampled := true, live := { x.live with lastGain := min 65535 worst } })

/-! ### Sampled checks and reference runs (R115, R336) -/

/-- S(c) of a plane from the master copy: the sum of a column's target digits over the active rows. -/
def refSum (s : State) (img c : Nat) (rows : List Nat) : Int := rows.foldl (fun a i => a + s.imgDigit img i c) 0

/-- A column's mean deviation exceeds 2 LSB over the 8 planes, each converted at its own RANGE R with
LSB = 15 × 2^R / 4: |Σ (240 code − 4 S × 2^(4 − R))| > 16 × 240. -/
def checkBad (s : State) (img : Nat) (k : ChkSt) (c : Nat) : Bool :=
  let d := ((List.zip k.planes k.codes).zipIdx).foldl (fun a e =>
    a + (240 * getAt 0 e.1.2 c - 4 * refSum s img c e.1.1 * ((2 ^ (4 - getAt 0 k.ranges e.2) : Nat) : Int))) 0
  decide (3840 < d.natAbs)

/-- All planes of the work have been driven. -/
def ChkSt.driven (k : ChkSt) : Bool := decide (k.planes.length ≤ k.codes.length)

/-- A sampled check ends. -/
def checkDone (s : State) (t : Nat) (k : ChkSt) : State :=
  let s1 := s.updTile t (fun x => { x with check := none, lastTq := k.tq })
  let img := s.imageAddr s.activeBase t
  if (List.range 512).any (checkBad s img k) then (setEarly s1 t).count (Reg.checkFailCnt (tileField t)) 1 else s1

/-- TQ in force for a tile's unit in its field (R104). -/
def State.tqOf (s : State) (t : Nat) : Nat :=
  match (List.range 64).find? (fun u => s.drives t u) with
  | some u => s.fld (Reg.nettleUnitStat_tqCur (tileField t) u)
  | none => 0

/-- n rows, ascending, chosen by the free values from `base` on (R115). -/
def randomRows (base n : Nat) : List Nat :=
  (((List.range 512).mergeSort (fun a b => Config.freeNat (base + a) ≤ Config.freeNat (base + b))).take n).mergeSort (fun a b => a ≤ b)

/-- A sampled check of a tile begins: eight random planes of N/2 rows, N that of RANGE_CUR, and a class 3 request (R115). -/
def startCheck (s : State) (t : Nat) : State :=
  let k : ChkSt := { planes := (List.range 8).map (fun p => randomRows (s.free + 512 * p) (16 * 2 ^ s.rangeOf t))
                     tq := s.tqOf t, no := s.grid.checkNo }
  { s with free := s.free + 4096, grid := { s.grid with checkNo := s.grid.checkNo + 1 } }.updTile t (fun x => { x with check := some k })

/-- Rows with a 1 in bit b of the REF_RUN's input elements. -/
def refPlane (a : List Nat) (b : Nat) : List Nat :=
  (a.zipIdx).filterMap (fun e => if hasBit e.1 b then some e.2 else none)

/-- The input elements of a REF_RUN: 512 values of `ab` bits, one per byte (Table 15.9's layout, R336). -/
def refInputs (s : State) (buf ab : Nat) (signed : Bool) : List Int :=
  (s.read buf 512).map (fun x => if signed then toSigned ab x.toNat else ((x.toNat % 2 ^ ab : Nat) : Int))

end Sys2Proof.Machine
end

