-- ==== Sys2Proof/Machine/Flags.lean ====
section
/-! DEFINITION. What a register reads as: the stored word, with every status field whose home is another
field of the state laid over it, and the gated store in place of a gated field's registers (R350). -/

namespace Sys2Proof.Machine

/-- A word with fields, given as lowest bit, width and value, laid over it. -/
def overlay (w : Word) (xs : List (Nat × Nat × Nat)) : Word := xs.foldl (fun a x => fset a x.1 x.2.1 x.2.2) w

/-! ### Counts that registers show -/

/-- Counted resets of a domain later than ALIVE_S − 600 s (R392). -/
def State.resetsInWindow (s : State) (c : Nat) : Nat :=
  ((sget (fun _ => []) s.resetsAt c).filter (fun t => decide (s.aliveS < t + 600))).length

/-- Key slots that hold a key. -/
def State.keysUsed (s : State) : Nat := (s.sec.keySlots.filter (fun e => e.2.isSome)).length

/-- No sequence. -/
def noSeq (_ : Nat) : SeqE := {}

/-- Entries of the sequence table in a state (Table 13.1). -/
def State.seqsIn (s : State) (st : Nat) : Nat := (s.seqs.table.filter (fun e => e.2.st == st)).length

/-- Entries not FREE. -/
def State.seqsActive (s : State) : Nat := (s.seqs.table.filter (fun e => e.2.st != 0)).length

/-- Tokens of KV_TOKENS that no sequence has reserved (R274). -/
def State.kvFree (s : State) : Nat :=
  s.fld Reg.kvTokens_tokens - s.seqs.table.foldl (fun n e => n + e.2.reserve) 0

/-- Lowest-numbered bad object, tiles before sections. -/
def State.lowestBad (s : State) : Option Nat :=
  s.shard.bad.foldl (fun m k => match m with
    | some x => some (min x k)
    | none => some k) none

/-- The applied shed level: the largest of the die's own and the reports of the last 16 rounds (R374). -/
def State.shedApplied (s : State) : Nat :=
  (s.pow.reports.filter (fun r => decide ((s.fld Reg.heartbeat_count + 2 ^ 32 - r.round % 2 ^ 32) % 2 ^ 32 ≤ 16))).foldl
    (fun m r => max m r.s) s.pow.s

/-! ### Tile registers -/

/-- TILE_CFG breaks R60. -/
def cfgBadWord (w : Word) : Bool :=
  let i := fget w 0 3
  let lo := fget w 4 3
  let hi := fget w 8 3
  decide (4 < i) || decide (4 < lo) || decide (4 < hi) || decide (hi < lo) || decide (i < lo) || decide (hi < i)

/-- Spare converters of CONV_MAP that are permanent stand-ins. -/
def permSpares (m : Nat) : Nat := b2n (cmActive m 64 && cmPerm m 64) + b2n (cmActive m 65 && cmPerm m 65)

/-- A spare converter is a temporary stand-in. -/
def tempSpare (m : Nat) : Bool := (cmActive m 64 && !cmPerm m 64) || (cmActive m 65 && !cmPerm m 65)

/-- The word of register `o` of tile `t`'s window (Tables 3.9 to 3.14, 6.9, 6.10). -/
def tileWord (s : State) (t o : Nat) (w : Word) : Word :=
  let r := (s.tile t).live
  if o = 0x4 then
    overlay w [(12, 1, b2n r.retired), (11, 1, b2n (cfgBadWord (s.word (Reg.tileCfg_rangeInit t).reg))),
      (10, 1, b2n (tempSpare r.convMap)), (8, 2, permSpares r.convMap), (4, 4, remapCount r.remap)]
  else if 0x24 ≤ o ∧ o < 0x34 then
    let n := (o - 0x24) / 4
    BitVec.ofNat 32 (getAt 0 r.remap (2 * n) % 65536 + 65536 * getAt 0 r.remap (2 * n + 1))
  else if o = 0x34 then BitVec.ofNat 32 r.convMap
  else if o = 0x38 then BitVec.ofNat 32 (r.wear + 2 ^ 31 * b2n r.warn)
  else if o = 0x3C then overlay w [(0, 22, r.age)]
  else w

/-- The word of register `o` of field `f`'s block while PD_Ff is on. -/
def fieldWord (s : State) (f o : Nat) (w : Word) : Word :=
  if 0x4000 ≤ o ∧ o < 0x6000 then tileWord s (tileAt f (o / 0x40 - 256)) (o % 0x40) w
  else if o = 0x254 then overlay w [(2, 1, b2n (decide (0 < s.fieldTrims f))), (0, 2, s.pow.band)]
  else if o = 0x260 then
    if s.installed then overlay 0 [(12, 1, bits (s.plan f) 12 1), (11, 1, bits (s.plan f) 11 1),
      (8, 3, bits (s.plan f) 8 3), (0, 6, bits (s.plan f) 0 6)] else 0
  else if 0x6400 ≤ o ∧ o < 0x6600 then BitVec.ofNat 32 (s.tile (tileAt f (o % 0x200 / 4))).ledger.gen
  else w

/-! ### Gated fields (R350) -/

/-- The configuration fields of a register (Table 16.3). -/
def RegSpec.cfgMask (r : RegSpec) : Nat := r.maskOf [.cfg]

/-- Configuration mask of the register at a CSR offset; 0 where it has none. -/
def cfgMaskAt (off : Nat) : Nat :=
  match regSpec off with
  | some r => r.cfgMask
  | none => 0

/-- The field whose block holds a CSR offset. -/
def offField (off : Nat) : Option Nat := if 0x400000 ≤ off ∧ off < 0x800000 then some (off / 0x10000 - 64) else none

/-- The CSR offset lies in the block of a field whose domain is off. -/
def State.gatedAt (s : State) (off : Nat) : Bool :=
  match offField off with
  | some f => !s.powered f
  | none => false

/-- The value of a gated field's configuration register. -/
def State.gatedWord (s : State) (off : Nat) : Word := sget regReset s.gated off

/-- The register in force or its copy in the gated store: what Speedwell reads. -/
def State.cfgWord (s : State) (off : Nat) : Word := if s.gatedAt off then s.gatedWord off else s.word off

/-! ### Every register -/

/-- What the register at CSR offset `off` reads as. -/
def State.regWord (s : State) (off : Nat) : Word :=
  let b := off / 0x10000
  let o := off % 0x10000
  let w := s.word off
  if b = 1 then
    if o = 0x0 then Config.romRev
    else if o = 0x10 then
      overlay w [(16, 8, s.jobsActive), (4, 1, b2n (decide (0 < s.pow.s))), (0, 4, s.dieState.code)]
    else w
  else if b = 3 then
    if o = 0x4 then overlay w [(0, 3, s.time.state.code)]
    else if o = 0x8 then BitVec.ofNat 32 s.ns
    else if o = 0x14 then overlay 0 [(6, 26, s.beat), (0, 6, s.slot)]
    else w
  else if b = 5 then if o = 0x18 then BitVec.ofNat 32 s.fab.reqs.length else w
  else if b = 6 then
    if o = 0x0 then
      overlay w [(9, 1, b2n (!s.shard.bad.isEmpty)), (8, 1, b2n (!s.shard.progs.isEmpty)), (7, 1, b2n s.shard.fetch.isSome)]
    else if o = 0x24 then
      match s.lowestBad with
      | some k => overlay 0 [(31, 1, 1), (15, 1, k / 8192), (0, 13, k % 8192)]
      | none => 0
    else w
  else if b = 7 then
    if o = 0x1C then BitVec.ofNat 32 s.kvFree
    else if o = 0x20 then overlay 0 [(16, 16, s.seqsIn 3), (0, 16, s.seqsActive)]
    else w
  else if b = 8 ∨ b = 9 then
    if o = 0x4 then overlay w [(1, 1, b2n ((s.side (b - 8)).moves.any (fun m => m.switch.isNone)))] else w
  else if b = 10 then
    if o = 0x10 then overlay w [(11, 1, b2n s.pow.avsLimit), (0, 6, s.pow.s)]
    else if o = 0x1C then BitVec.ofNat 32 (if s.entryField.isSome then s.shedApplied else 0)
    else if o = 0x20 then BitVec.ofNat 32 s.pow.pdOn
    else if o = 0x24 then BitVec.ofNat 32 (s.pow.pdOn / 2 ^ 32)
    else if o = 0x28 then BitVec.ofNat 32 (s.pow.pdOn / 2 ^ 64 % 2 ^ 16)
    else w
  else if b = 11 then if o = 0x8 then overlay w [(7, 1, b2n s.ev.hdr.latch)] else w
  else if b = 12 then
    if o = 0xC then BitVec.ofNat 32 s.faults.length
    else if o = 0x2C then BitVec.ofNat 32 (s.ev.hdr.dieGen % 2 ^ 16)
    else if o = 0x30 then BitVec.ofNat 32 s.aliveS
    else if 0x200 ≤ o then
      let c := (o - 0x200) / 4
      overlay w [(31, 1, b2n (s.retiredDom c)), (28, 3, min 3 (s.resetsInWindow c))]
    else w
  else if b = 13 then
    if o = 0x0 then
      let z := s.sec.fuses
      let op := (List.range 4).foldl (fun m n => if getAt 0 z.opHash n = 0 then m else setBit m n) 0
      overlay w [(7, 13, s.keysUsed), (2, 4, op), (1, 1, b2n z.dbgKill), (0, 1, b2n z.roleMgr)]
    else if o = 0xC then BitVec.ofNat 32 s.epoch
    else w
  else if 16 ≤ b ∧ b ≤ 28 then
    if o = 0x4 then overlay w [(0, 3, (s.lnk (b - 16)).state.code)] else w
  else match offField off with
  | some f =>
    if o = 0x100 then overlay w [(1, 1, b2n (!s.powered f))]
    else if !s.powered f then s.gatedWord off &&& BitVec.ofNat 32 (cfgMaskAt off)
    else fieldWord s f o w
  | none => w

end Sys2Proof.Machine
end

