-- ==== Sys2Proof/Machine/TimeOps.lean ====
section
/-! DEFINITION. Dandelion's shared operations: roles, candidate ports, entry to each time state with its
effect on the die state (R128 to R144). -/

namespace Sys2Proof.Machine

/-- The Dandelion block is enabled. -/
def State.ddlOn (s : State) : Bool := s.fld Reg.blockEnMisc_ddl == 1

/-- The role the die acts in (R130, R411): TIME_ROLE, but a die that became root under Table 7.5 acts
as root, and a configured root that left ROOT follows as a boundary clock. -/
def State.role (s : State) : Nat :=
  let r := s.fld Reg.ddlCfg_timeRole
  if s.time.state = .root then 2
  else if r = 2 ∧ s.time.state ≠ .free then 1 else r

/-- Ports the die may take time from, on links in PROBATION or IN_SERVICE (Table 7.2, R182). -/
def State.candidate (s : State) (p : Nat) : Bool :=
  s.linkUp p && match s.role with
  | 0 => decide (p < 6)
  | 1 => p == 7
  | 2 => p == 7 && s.fld Reg.ddlCfg_gmSource == 1
  | _ => false

/-- Ports on which the die sends Sync (Table 7.2): a boundary clock that is primary, on P0 to P5; the
root on P0 to P5 and P7; not in FREE, ACQUIRING or LOST. -/
def State.syncPorts (s : State) : List Nat :=
  let on := match s.time.state with
    | .root => [0, 1, 2, 3, 4, 5, 7]
    | .locked => if s.role = 1 ∧ s.fld Reg.secRole_role = 1 then [0, 1, 2, 3, 4, 5] else []
    | .holdover => if s.role = 1 ∧ s.fld Reg.secRole_role = 1 then [0, 1, 2, 3, 4, 5] else []
    | .free => [] | .acquiring => [] | .lost => []
  if s.ddlOn then on.filter (fun p => s.linkUp p) else []

/-- The lowest-numbered candidate port with a valid source. -/
def State.bestPort (s : State) : Option Nat :=
  (List.range 8).find? (fun p => s.candidate p && hasBit s.time.valid p)

/-- The lowest-numbered alternate: another candidate with a valid source and consistent offsets. -/
def State.alternate (s : State) : Option Nat :=
  (List.range 8).find? (fun p => s.candidate p && p != s.fld Reg.ddlStatus_timePort
    && hasBit s.time.valid p && hasBit s.time.consist p)

/-- ALT_VALID: ports with a valid source and consistent offsets (Table 7.11). -/
def showAlt (s : State) : State :=
  let v := (List.range 8).foldl (fun m p =>
    if s.candidate p && hasBit s.time.valid p && hasBit s.time.consist p then setBit m p else m) 0
  s.setFld Reg.ddlStatus_altValid v

/-- Follow port `p`: a fresh run of offsets on it. -/
def takePort (s : State) (p : Nat) : State :=
  { s with time := { s.time with offs := [], bad := 0, good := 0 } }.setFld Reg.ddlStatus_timePort p

/-- The PLL's source (R137): the root's own oscillator, or the clock recovered on the time port while its source is valid. -/
def State.pllWants (s : State) : PllSrc :=
  let p := s.fld Reg.ddlStatus_timePort
  if s.time.state = .root ∧ s.fld Reg.ddlCfg_gmSource = 0 then .reference
  else if s.time.state ≠ .free ∧ s.candidate p = true ∧ hasBit s.time.valid p = true then .recovered p
  else .held

/-- At a beat boundary the PLL changes its source, and RECOV_LOCK shows whether it follows the time port (R137). -/
def pllBoundary (s : State) : State :=
  { s with time := { s.time with pll := s.pllWants } }.setFld Reg.ddlStatus_recovLock
    (b2n (s.pllWants == PllSrc.recovered (s.fld Reg.ddlStatus_timePort)))

/-- Enter ACQUIRING: candidate ports enabled, the time port chosen (Table 7.5). -/
def enterAcquiring (s : State) : State :=
  let s1 := { s with time := { s.time with state := .acquiring, move := none, slew := 0, offs := [], bad := 0, good := 0 } }
  match s1.bestPort with
  | some p => takePort s1 p
  | none => s1

/-- Enter ROOT (Table 7.5): from FREE the estimate starts at TIME_ROOT's value; from LOCKED or HOLDOVER
there is no step. HOLD_LEFT reads 0x7FFF and PARENT_HOLD is clear; a die in HOLDOVER returns to the
state it left (R140). -/
def enterRoot (s : State) : State :=
  let s1 := if s.time.state = .free then
      { s with beat := s.sec.startNs / 2048, cyc := s.sec.startNs % 2048 * 5 / 2
               time := { s.time with est := ((s.sec.startNs % 2048 * 327680 % 131072 : Nat) : Int), slip := 0 } }
    else s
  let s2 := { s1 with time := { s1.time with state := .root, move := none, slew := 0 } }
  let s3 := (s2.setFld Reg.holdStat_holdLeft 0x7FFF).setFld Reg.ddlStatus_parentHold 0
  let s3 := if s3.fld Reg.ddlCfg_gmSource = 1 then takePort s3 7 else s3
  if s3.dieState = .holdover then enterState s3 s3.left else s3

/-- Enter HOLDOVER with `left` beats (Table 7.5); JOINED+ moves to the die state HOLDOVER, which
remembers the state left and abandons a DRAIN job (R140, R333). -/
def enterHoldover (s : State) (left : Nat) (parent : Bool) : State :=
  let s1 := { s with time := { s.time with state := .holdover, move := none, good := 0, bad := 0 } }
  let s2 := ((s1.setFld Reg.holdStat_holdLeft left).setFld Reg.ddlStatus_parentHold (b2n parent)).count Reg.holdStat_holdCnt 1
  if joinedPlus s2.dieState then
    finishAll (enterState { s2 with left := s2.dieState } .holdover) 0x0307 0x08 []
  else s2

/-- Enter LOST (R140): the die goes OUT_OF_STEP from JOINED+ or HOLDOVER. -/
def enterLost (s : State) : State :=
  let s1 := { s with time := { s.time with state := .lost, move := none, slew := 0 } }
  let s2 := ((s1.setFld Reg.holdStat_holdLeft 0x7FFF).setFld Reg.ddlStatus_parentHold 0).count Reg.holdStat_lostCnt 1
  if joinedPlus s2.dieState || s2.dieState == .holdover then enterOutOfStep s2 else s2

/-- Return to LOCKED (Table 7.5): no step from HOLDOVER; ACQ_SLOW and PARENT_HOLD clear. -/
def enterLocked (s : State) : State :=
  let s1 := { s with time := { s.time with state := .locked, move := none, bad := 0, good := 0 } }
  let s2 := ((s1.setFld Reg.holdStat_holdLeft 0x7FFF).setFld Reg.ddlStatus_parentHold 0).setFld Reg.ddlStatus_acqSlow 0
  if s2.dieState = .holdover then enterState s2 s2.left else s2

/-- The mean of a non-empty list of offsets. -/
def meanOf (l : List Int) : Int := if l.isEmpty then 0 else l.foldl (· + ·) 0 / (l.length : Int)

/-- Lock from ACQUIRING at a beat boundary: the estimate is stepped to the mean offset, the grid is aligned to it, to the
nearest cycle, and the phase error becomes 0 (R128, R138, Table 7.5). -/
def lockStep (s : State) : State :=
  let t : Int := (s.ft : Int) - meanOf s.time.offs
  let c := ((t + 65536) / 131072).toNat
  enterLocked ({ s with beat := c / 5120, cyc := c % 5120, time := { s.time with est := 0, slew := 0, slip := 0, offs := [] } }.setFld Reg.phase_phi 0)

/-- A port's source is no longer valid (R139): a LOCKED die that followed it takes an alternate or enters HOLDOVER at the next
boundary. -/
def sourceGone (s : State) (p : Nat) : State :=
  let s1 := { s with time := { s.time with valid := clrBit s.time.valid p, consist := clrBit s.time.consist p, parent := clrBit s.time.parent p } }
  showAlt (if p = s.fld Reg.ddlStatus_timePort ∧ s.time.state = .locked then
      { s1 with time := { s1.time with move := match s1.alternate with
          | some q => some (.switchPort q)
          | none => some .holdOwn } }
    else s1)

/-- A port whose link no longer carries a clock has no valid source (R139, R182). -/
def lostClocks (s : State) : State :=
  (List.range 8).foldl (fun t p => if hasBit t.time.valid p && !t.linkUp p then sourceGone t p else t) s

/-- Apply the time move decided for this beat boundary. -/
def applyMove (s : State) : State :=
  match s.time.move with
  | none => s
  | some .lock => if s.time.state = .acquiring then lockStep s else { s with time := { s.time with move := none } }
  | some .relock => if s.time.state = .holdover then enterLocked s else { s with time := { s.time with move := none } }
  | some .holdOwn => if s.time.state = .locked then enterHoldover s 24414 false else { s with time := { s.time with move := none } }
  | some (.holdParent l) => if s.time.state = .locked then enterHoldover s l true else { s with time := { s.time with move := none } }
  | some .lose => if s.time.state = .holdover then enterLost s else { s with time := { s.time with move := none } }
  | some (.switchPort p) =>
    let s1 := { s with time := { s.time with move := none } }
    if s.time.state = .locked then (takePort s1 p).count Reg.ptpDiscardCnt_switchCnt 1 else s1

/-- Start the time unit where it may leave FREE (Table 7.5): a configured root at its enable (DEDUCED,
log entry 14), any other die once a map names its parent and no role conflict stands. -/
def timeStart (s : State) : State :=
  if s.time.state = .free ∧ s.ddlOn = true then
    if s.fld Reg.ddlCfg_timeRole = 2 then
      if s.fld Reg.secStatus_roleConflict = 1 then s else enterRoot s
    else if s.sec.map.isSome ∧ s.fld Reg.secStatus_roleConflict = 0 then enterAcquiring s
    else s
  else s

end Sys2Proof.Machine
end

