-- ==== Sys2Proof/Machine/RegOps.lean ====
section
/-! DEFINITION. Register accesses (chapter 16; Table 0.5): configuration writes and their refusal (R352),
enables (R353, Table 16.3) with what each starts and stops, read effects, bus errors (R348). -/

namespace Sys2Proof.Machine

/-! ### Bus errors (R348, Table 16.2) -/

/-- A bus error at a 46-bit local address: counted, and captured while BUS_ERR is 0; the control core's own
(source 2) also writes a fault record. -/
def busError (s : State) (addr : Nat) (write : Bool) (src : Nat) : State :=
  let s1 := if s.fld Reg.spwStatus_busErr = 0 then
      (s.setWord Reg.busErrLo_addrLo.reg (BitVec.ofNat 32 addr)).setWord Reg.busErrHi_write.reg
        (overlay 0 [(31, 1, b2n write), (29, 2, src), (0, 14, addr / 2 ^ 32)])
    else s
  let s2 := (s1.setFld Reg.spwStatus_busErr 1).count Reg.busErrCnt_busErrors 1
  if src = 2 then recordFault s2 5 0x0501 0xFF 0 0 {} (leBytes 8 addr ++ leBytes 1 (b2n write)) else s2

/-! ### Blocks and their enables (Table 16.3) -/

/-- Enable bit of a block number; none for a block without one. -/
def enableOf (b : Nat) : Option Fld :=
  if b = 3 then some Reg.blockEnMisc_ddl
  else if b = 5 then some Reg.fabCfg_en
  else if b = 7 then some Reg.seqCfg_en
  else if b = 8 ∨ b = 9 then some (Reg.hbmCfg_en (b - 8))
  else if b = 10 then some Reg.blockEnMisc_power
  else if b = 11 then some Reg.blockEnMisc_sensor
  else if b = 12 then some Reg.blockEnMisc_fault
  else if 16 ≤ b ∧ b ≤ 28 then some (Reg.linkCfg_en (b - 16))
  else if 64 ≤ b ∧ b < 96 then some ⟨Reg.fieldEnLo_en.reg, b - 64, 1⟩
  else if 96 ≤ b ∧ b < 128 then some ⟨Reg.fieldEnHi_en.reg, b - 96, 1⟩
  else none

/-- The block is enabled. -/
def State.blockEn (s : State) (b : Nat) : Bool :=
  match enableOf b with
  | some x => s.fld x == 1
  | none => false

/-- Block number of enable bit `i` of the register at CSR offset `off`. -/
def enabledBlock (off i : Nat) : Option Nat :=
  if off = Reg.fieldEnLo_en.reg then some (64 + i)
  else if off = Reg.fieldEnHi_en.reg then some (96 + i)
  else if off = Reg.blockEnMisc_ddl.reg then if i = 0 then some 3 else if i < 4 then some (9 + i) else none
  else (enableOf (off / 0x10000)).bind (fun x => if x.reg = off ∧ x.lo = i then some (off / 0x10000) else none)

/-- Values of CAL_CFG in the 64 fields, gated fields from the store (R358). -/
def State.calCfgs (s : State) : List Word := (List.range 64).map (fun f => s.cfgWord (Reg.calCfg_driftTol f).reg)

/-- The agreement rule holds. -/
def State.agrees (s : State) : Bool := s.calCfgs.all (fun w => w == s.cfgWord (Reg.calCfg_driftTol 0).reg)

/-- Addresses of PMB_ADDR0 and PMB_ADDR1. -/
def State.pmbAddrs (s : State) : List Nat :=
  (List.range 4).map (fun i => fget (s.word Reg.pmbAddr0_addr0.reg) (8 * i) 7) ++
    (List.range 4).map (fun i => fget (s.word Reg.pmbAddr1_addr0.reg) (8 * i) 7)

/-- Every address lies in 0x08 to 0x77 and no two are equal. -/
def addrsOk : List Nat → Bool
  | [] => true
  | a :: l => decide (8 ≤ a) && decide (a ≤ 0x77) && !l.contains a && addrsOk l

/-- The die refuses link enables (R371, R394). -/
def State.linksShut (s : State) : Bool := s.dieState == .thermalShutdown || s.dieState == .outOfService

/-- The enable conditions of a block (Table 16.3); a field powered on again is enabled only once it has passed the steps of
R240 before the enable (R110, R125, R350). -/
def enableCond (s : State) (b : Nat) : Bool :=
  if b = 3 then
    s.fld Reg.ddlCfg_timeRole != 3 && !(s.fld Reg.ddlCfg_gmSource == 1 && s.fld Reg.ddlCfg_timeRole != 2)
  else if b = 7 then decide (8 ≤ s.fld Reg.seqCfg_grantLog2) && s.fld Reg.resultOff_off % 4096 == 0
  else if b = 10 then addrsOk s.pmbAddrs
  else if b = 11 then s.fld Reg.sensCfg_busGain != 0
  else if b = 12 then s.fld Reg.faultCfg_scrubHours != 0 && s.fld Reg.rackHealthLo_baseLo % 1024 == 0
  else if 16 ≤ b ∧ b ≤ 28 then
    let n := b - 16
    (s.fld (Reg.linkCfg_fpvMin n) == 1 || s.fld (Reg.linkCfg_fpvMin n) == 2) &&
      !(decide (n < 8) && s.fld (Reg.linkCfg_mode n) == 1 && s.fld (Reg.linkCfg_minLanesM1 n) == 2) &&
      (n == 12 || (!s.linksShut && !s.retiredDom (linkResetDomain n)))
  else if 64 ≤ b ∧ b < 128 then
    let f := b - 64
    s.powered f && sget zeroNat s.shard.bringUp f == 0 && s.agrees && (fieldTiles f).all (fun t => !cfgBadWord (s.word (Reg.tileCfg_rangeInit t).reg))
  else true

/-- A write of 1 to a clear enable bit is accepted (R353). -/
def enableOk (s : State) (b : Nat) : Bool :=
  s.fld Reg.spwStatus_refValid == 1 && s.fld Reg.spwStatus_match == 1 && s.fld Reg.spwStatus_clean == 1 && enableCond s b

/-- Unit indexes whose Nettle descriptor the installed image gives field `f`: every 16 bytes of its section from offset 0, at
most 64. The spec does not say what follows the descriptors, or where (R105; DESIGN CHOICE, log entry 91). -/
def State.nidxs (s : State) (f : Nat) : List Nat := List.range (min 64 ((s.section 9 f).length / 16))

/-- TQ and its window start again for every unit of a field (R95). -/
def initTq (s : State) (f : Nat) : State :=
  (s.nidxs f).foldl (fun t u =>
    (updTq t f u (fun _ => {})).setFld (Reg.nettleUnitStat_tqCur f u) (bits (t.ndesc f u 0) 0 12)) s

/-- The range loops of a field start at RANGE_INIT (R48). That a partial window, its counts and the count of fine windows start
again too is the model's (R47; DESIGN CHOICE, log entry 90). -/
def initRanges (s : State) (f : Nat) : State :=
  (fieldTiles f).foldl (fun a t =>
    (a.updTile t (fun x => { x with rangeNext := none, winConv := 0, winSat := 0, winNear := 0, closed := [], fine := 0 })).setFld
      (Reg.tileStatus_rangeCur t) (a.fld (Reg.tileCfg_rangeInit t))) s

/-- Domains to be powered on, in ascending number. -/
def requestPower (s : State) (ds : List Nat) : State :=
  { s with pow := { s.pow with
      pdReq := (ds.filter (fun d => !s.powered d)).foldl (fun l d => if l.contains d then l else (d :: l).mergeSort (fun a b => a ≤ b)) s.pow.pdReq } }

/-- What an accepted enable starts: Dandelion leaves FREE where it may (Table 7.5); the power block's rails 3
to 5 come up in the next round (R422); an HBM stack is trained at RATE (R262); a link trains, once its domain
is powered (R182, R364); a field's range and threshold loops start afresh (R48, R95). -/
def onEnable (s : State) (b : Nat) : State :=
  let s0 := { s with spw := { s.spw with integ := s.spw.integ.filter (fun x => x != b) } }
  if b = 3 then timeStart s0
  else if b = 8 ∨ b = 9 then s0.setFld (Reg.hbmStatus_ready (b - 8)) 0
  else if b = 10 then { s0 with pow := { s0.pow with railsUp := true } }
  else if 16 ≤ b ∧ b ≤ 28 then
    if s0.powered (linkDomain (b - 16)) then startTraining s0 (b - 16) else requestPower s0 [linkDomain (b - 16)]
  else if 64 ≤ b ∧ b < 128 then initTq (initRanges s0 (b - 64)) (b - 64)
  else s0

/-- What clearing an enable stops at once: a link goes to DISABLED (R183). Every other block's steps fail as
they come to use it (R354). -/
def onDisable (s : State) (b : Nat) : State := if 16 ≤ b ∧ b ≤ 28 then disableLink s (b - 16) else s

/-- Set a block's enable bit, whatever R353 says of it. -/
def setEnable (s : State) (b : Nat) : State :=
  match enableOf b with
  | some x => onEnable (s.setFld x 1) b
  | none => s

/-- Clear a block's enable bit: always accepted (R353). -/
def clearEnable (s : State) (b : Nat) : State :=
  match enableOf b with
  | some x => if s.fld x = 1 then onDisable (s.setFld x 0) b else s
  | none => s

/-- A refused enable of the register at `off` (R353). -/
def refuseEnable (s : State) (off : Nat) : State :=
  let s1 := if s.fld Reg.spwStatus_enRefused = 0 then s.setFld Reg.cfgEnrAddr_offset off else s
  (s1.setFld Reg.spwStatus_enRefused 1).count Reg.cfgEventCnt_enRefused 1

/-- A write of `v` to a block's enable bit, in the register at `off` (R353). -/
def writeEnable (s : State) (off b v : Nat) : State :=
  if v = 0 then clearEnable s b
  else if s.blockEn b then s
  else if enableOk s b then setEnable s b
  else refuseEnable s off

/-! ### Configuration writes (R352) -/

/-- Configuration registers outside the field blocks, ascending (R355). -/
def cfgLow : List Nat :=
  [0x30000, 0x30040, 0x30044, 0x30048, 0x3004C, 0x30050, 0x30054, 0x30058, 0x3005C, 0x3007C, 0x50000,
    0x70000, 0x70004, 0x70008, 0x7000C, 0x70010, 0x70014, 0x70018, 0x80000, 0x90000, 0xA0000, 0xA0004, 0xA0008,
    0xB0000, 0xC0000, 0xC0004, 0xC0008] ++ (List.range 13).map linkBase

/-- Configuration registers of field `f`, ascending. -/
def cfgField (f : Nat) : List Nat :=
  [fieldBase f + 0x200, fieldBase f + 0x240] ++ (List.range 128).map (fun i => fieldBase f + 0x4000 + 0x40 * i)

/-- Every configuration register, ascending: 8,360 (R355). -/
def cfgOffsets : List Nat := cfgLow ++ (List.range 64).flatMap cfgField

/-- Position of a configuration register in a pass (R355). -/
def cfgPosition (off : Nat) : Nat :=
  match offField off with
  | none => (cfgLow.findIdx? (fun x => x == off)).getD 0
  | some f =>
    let o := off % 0x10000
    40 + 130 * f + (if o = 0x200 then 0 else if o = 0x240 then 1 else 2 + o / 0x40 - 256)

/-- No value kept. -/
def noWord (_ : Nat) : Option Word := none

/-- A write stored into configuration fields: the register, or the gated store, takes `w`; CLEAN ends, and the
running pass keeps what it has already read of the register (R352, R355, R356). -/
def storeCfg (s : State) (off : Nat) (w : Word) : State :=
  let old := s.cfgWord off
  let s1 := if s.gatedAt off then { s with gated := sset regReset s.gated off w } else s.setWord off w
  let read := decide (s.spw.start + 16 * cfgPosition off ≤ s.clk)
  let s2 := s1.setFld Reg.spwStatus_clean 0
  { s2 with spw := { s2.spw with
      written := true, writes := s2.spw.writes + 1
      seen := if read && (sget noWord s2.spw.seen off).isNone then sset noWord s2.spw.seen off (some old) else s2.spw.seen } }

/-- Merge the bits of `v` under `mask` into `w`. -/
def mergeBits (w v : Word) (mask : Nat) : Word :=
  (w &&& ~~~(BitVec.ofNat 32 mask)) ||| (v &&& BitVec.ofNat 32 mask)

/-- The configuration part of a write to the register at `off` (R352): nothing where the fields keep their
value, ignored and flagged while the block is enabled. -/
def writeCfg (s : State) (off mask : Nat) (v : Word) : State :=
  let old := s.cfgWord off
  let new := mergeBits old v mask
  if new = old then s
  else if s.blockEn (off / 0x10000) then
    let s1 := if s.fld Reg.spwStatus_wrBlocked = 0 then s.setFld Reg.cfgWweAddr_offset off else s
    (s1.setFld Reg.spwStatus_wrBlocked 1).count Reg.cfgEventCnt_wrBlocked 1
  else storeCfg s off new

/-! ### Register writes and reads -/

/-- The enable bits of a write, each judged in its own right (R362). -/
def writeEnables (s : State) (off mask : Nat) (v : Word) : State :=
  (List.range 32).foldl (fun t i =>
    if hasBit mask i then
      match enabledBlock off i with
      | some b => writeEnable t off b (bits v.toNat i 1)
      | none => t
    else t) s

/-- A write to INT_MASK sends a message for each bit it newly enables that INT_STATUS holds (R308). -/
def maskWritten (s : State) (old : Word) : State :=
  (List.range 32).foldl (fun t b =>
    if hasBit (t.word 0x10018).toNat b && !hasBit old.toNat b && hasBit (t.word 0x10014).toNat b then intCause t b else t) s

/-- Write a register (Table 0.5, R349 to R353). A gated field takes only configuration fields, into its store
(R350). -/
def writeReg (s : State) (off : Nat) (v : Word) : State :=
  match regSpec off with
  | none => s
  | some r =>
    let s1 := writeCfg s off r.cfgMask v
    if s.gatedAt off && off % 0x10000 != 0x100 then s1
    else
      let old := s1.word off
      let w1 := mergeBits old v (r.maskOf [.rw, .rws])
      let w2 := w1 &&& ~~~(v &&& BitVec.ofNat 32 (r.maskOf [.w1c]))
      let s2 := s1.setWord off w2
      let s3 := writeEnables s2 off (r.maskOf [.en]) v
      if off = 0x10018 then maskWritten s3 old else s3

/-- The effects of a read: RC fields clear, a lowest value goes to all ones (R6), and FT_NS_LO latches the rest
of fabric time (R150). -/
def readEffects (s : State) (off : Nat) : State :=
  match regSpec off with
  | none => s
  | some r =>
    if s.gatedAt off && off % 0x10000 != 0x100 then s
    else
      let w1 := mergeBits (s.word off) 0 (r.maskOf [.rc])
      let s1 := s.setWord off (mergeBits w1 (BitVec.allOnes 32) (r.maskOf [.rcMin]))
      if off = Reg.ftNsLo_nsLo.reg then
        (s1.setWord Reg.ftNsHi_nsHi.reg (BitVec.ofNat 32 (s.ns / 2 ^ 32))).setWord Reg.ftFrac_frac.reg (BitVec.ofNat 32 s.frac)
      else s1

end Sys2Proof.Machine
end

