-- ==== Sys2Proof/Machine/IntegrityOps.lean ====
section
/-! DEFINITION. Speedwell's CRCs, the snapshot of CFG_COMMIT, and configuration registers that change without a
write of the host: gating, power-on and domain resets (R350, R355 to R357, R360). -/

namespace Sys2Proof.Machine

/-- What a register contributes to a pass: its value with every other field 0. -/
def passValue (off : Nat) (w : Word) : Word := w &&& BitVec.ofNat 32 (cfgMaskAt off)

/-- The 8 bytes of a register in a running CRC. -/
def passEntry (g : Nat → Word) (off : Nat) : List Byte := leBytes 4 off ++ leBytes 4 (passValue off (g off)).toNat

/-- CRC over configuration registers that hold the values `g`. -/
def passCrc (g : Nat → Word) (offs : List Nat) : Word := crc32c (offs.flatMap (passEntry g))

/-- Configuration registers of block `k`, ascending. -/
def blockCfg (k : Nat) : List Nat :=
  if 64 ≤ k ∧ k < 128 then cfgField (k - 64) else cfgLow.filter (fun o => o / 0x10000 == k)

/-- The shadow's value of a register that no snapshot lists: its configuration fields at reset. -/
def shadowDef (off : Nat) : Word := passValue off (regReset off)

/-- The snapshot of a CFG_COMMIT (R357): references of every block, the shadow, and REF_VALID. -/
def snapshot (s : State) : State :=
  let s1 := (s.setWord Reg.cfgCrcRef_ref.reg (passCrc s.cfgWord cfgOffsets)).setFld Reg.spwStatus_refValid 1
  let s2 := (List.range 128).foldl (fun t k => t.setWord (Reg.cfgBlkRef_ref k).reg (passCrc s.cfgWord (blockCfg k))) s1
  { s2 with shadow := cfgOffsets.filterMap (fun o =>
      if passValue o (s.cfgWord o) = shadowDef o then none else some (o, passValue o (s.cfgWord o))) }

/-- A configuration register is about to change without a write: the running pass keeps what it has read. -/
def keepSeen (s : State) (off : Nat) : State :=
  if s.spw.start + 16 * cfgPosition off ≤ s.clk ∧ (sget noWord s.spw.seen off).isNone = true then
    { s with spw := { s.spw with seen := sset noWord s.spw.seen off (some (s.cfgWord off)) } }
  else s

/-- The control core writes configuration fields of registers: what `g` gives, each a configuration write where it
changes the register (R352, R360). -/
def writeCfgs (s : State) (g : Nat → Word) (offs : List Nat) : State :=
  offs.foldl (fun t o =>
    let new := mergeBits (t.cfgWord o) (g o) (cfgMaskAt o)
    if new = t.cfgWord o then t else storeCfg t o new) s

/-- The value that the shadow holds of a register. -/
def State.shadowWord (s : State) (off : Nat) : Word := sget shadowDef s.shadow off

/-- Registers of field `f`'s block lose their values; ROUTER_STAT keeps its own (R347). -/
def resetField (s : State) (f : Nat) : State :=
  let r := s.word (Reg.routerStat_routerOk f).reg
  (resetRegs s (fieldBase f) (fieldBase f + 0x10000)).setWord (Reg.routerStat_routerOk f).reg r

/-- Copy a field's configuration registers into the gated store (R350). -/
def storeGated (s : State) (f : Nat) : State :=
  { s with gated := (cfgField f).foldl (fun m o => sset regReset m o (s.word o)) s.gated }

/-- Forget a field's part of the gated store. -/
def clearGated (s : State) (f : Nat) : State :=
  { s with gated := (cfgField f).foldl (fun m o => sset regReset m o (regReset o)) s.gated }

/-- A powered field takes its configuration registers from the gated store (R360): configuration writes where the
values are not the reset values. -/
def loadGated (s : State) (f : Nat) : State :=
  let s1 := (cfgField f).foldl (fun t o => t.setWord o (mergeBits (t.word o) (t.gatedWord o) (cfgMaskAt o))) s
  let wrote := (cfgField f).any (fun o => s.gatedWord o != regReset o)
  clearGated (if wrote then { s1.setFld Reg.spwStatus_clean 0 with spw := { s1.spw with written := true, writes := s1.spw.writes + 1 } } else s1) f

end Sys2Proof.Machine
end

