-- ==== Sys2Proof/Machine/RouterOps.lean ====
section
/-! DEFINITION. Routers and stations (R20, R26, R158, R159, R162): router-table entries, what an input gives,
and what an output does with it; station buffers and vector positions taken from frames (R165, R167, R168). -/

namespace Sys2Proof.Machine

/-! ### Stations (Table 2.1) -/

/-- A station: HBM of a side, link n, or the control core. -/
inductive Station where
  | hbm (side : Nat) | link (n : Nat) | core
  deriving DecidableEq, Repr

/-- The field to which a link's station is attached. -/
def linkField (n : Nat) : Nat := getAt 64 [57, 58, 61, 62, 1, 2, 5, 6, 59, 60, 3, 4, 56] n

/-- The stations of a field, in ascending station index. -/
def stationsOf (f : Nat) : List Station :=
  (if f % 8 = 0 then [.hbm 0] else if f % 8 = 7 then [.hbm 1] else []) ++
    ((List.range 13).filter (fun n => linkField n == f)).map .link ++ (if f = 7 then [.core] else [])

/-- The router of a field is available (R27, R28). -/
def State.routerOk (s : State) (f : Nat) : Bool := s.fld (Reg.routerStat_routerOk f) == 1

/-- Neighbour of router f through mesh port p (0 N, 1 E, 2 S, 3 W), and the port a flit arrives at there. -/
def neighbour (f p : Nat) : Option (Nat × Nat) :=
  match p with
  | 0 => if f / 8 < 7 then some (f + 8, 2) else none
  | 1 => if f % 8 < 7 then some (f + 1, 3) else none
  | 2 => if 0 < f / 8 then some (f - 8, 0) else none
  | 3 => if 0 < f % 8 then some (f - 1, 1) else none
  | _ => none

/-! ### Router-table entries (Table 8.8) -/

/-- Entry idx of a field's router table. -/
def State.routerEntry (s : State) (f idx : Nat) : Option Nat :=
  let d := s.section 5 f
  if idx < d.length / 8 then some (fieldAt d (8 * idx) 8) else none

/-- Fields of an entry. -/
def reBeat (e : Nat) : Nat := bits e 58 6
def reSlot (e : Nat) : Nat := bits e 52 6
def reCycle (e : Nat) : Nat := bits e 45 7
def reFlits (e : Nat) : Nat := bits e 38 7 + 1
def reIn (e : Nat) : Nat := bits e 35 3
def reOut (e : Nat) : Nat := bits e 28 7
def reTag (e : Nat) : Nat := bits e 20 8
def reKind (e : Nat) : Nat := bits e 18 2
def reAddr (e : Nat) : Nat := bits e 0 18

/-- Move the clock forward to a cycle of a slot. -/
def State.atCycle (s : State) (k c : Nat) : State := s.toCycle (min 5119 (k * 80 + c))

/-- The vector whose data an entry moves, from the field's own actions: what a missing frame should have
carried (none known: 256). -/
def State.vecAt (s : State) (f e : Nat) : Nat :=
  let q := reBeat e * 64 + reSlot e
  let pick (p : Nat → Bool) (le : Nat → Nat → Bool) : Nat :=
    match ((s.actions f).filter p).foldl (fun (o : Option Nat) a => match o with
      | none => some a
      | some b => if le b a then some a else o) none with
    | some a => faVec a
    | none => 256
  match reKind e with
  | 0 => pick (fun a => faAct a == 1 && decide (faAddr a ≤ reAddr e * 8)) (fun b a => decide (faAddr b ≤ faAddr a))
  | 1 => pick (fun a => faAct a == 4 && decide (faFirst a ≤ q) && decide (s.laneLo f (faUidx a) ≤ reAddr e % 65536)
      && decide (reAddr e % 65536 < s.laneLo f (faUidx a) + s.laneCnt f (faUidx a))) (fun b a => decide (faFirst b ≤ faFirst a))
  | _ => pick (fun a => faAct a == 1 && faUidx a == reAddr e % 64 && decide (faFirst a ≤ q)) (fun b a => decide (faFirst b ≤ faFirst a))

/-- How many lanes, from lane l on, n flits carry for a vector: whole 6-byte values, within the unit whose
lanes the vector opens there, and within the field's 65,536 lanes. The spec does not say how values fill flits (DESIGN
CHOICE, log entry 78). -/
def State.partialLanes (s : State) (f v l n : Nat) : Nat :=
  min (65536 - l) (match (List.range 64).find? (fun u => s.hasAction f 4 u v && decide (s.laneLo f u ≤ l) && decide (l < s.laneLo f u + s.laneCnt f u)) with
  | some u => min (128 * n / 6) (s.laneLo f u + s.laneCnt f u - l)
  | none => 128 * n / 6)

/-! ### Inputs -/

/-- An empty batch. -/
def emptyBatch (kind vec src n : Nat) : Batch :=
  { valid := false, kind := kind, vec := vec, src := src, data := List.replicate (128 * n) 0, pos := none, scan := none }

/-- Flits from the field's own SRAM, lanes or control words. Lane partials close the field's part of the lanes: an
unknown row not fetched by then is LATE (R93). -/
def localInput (s : State) (f e : Nat) : State × Batch :=
  let v := reTag e
  let b := { emptyBatch (reKind e) v f (reFlits e) with pos := s.posOf f v }
  if !s.fieldRuns f || !s.live f v then (s, b)
  else match reKind e with
  | 0 =>
    match sramFault s f v (reAddr e * 8) (128 * reFlits e) with
    | some t => (t, b)
    | none => (s, { b with valid := true, data := s.sram f (reAddr e * 8) (128 * reFlits e) })
  | 1 =>
    let s1 := match s.scan f v with
      | some x => if x.g.isSome then nettleOnly s f v x else s
      | none => s
    let l := reAddr e % 65536
    let unfetched := match s1.scan f v with
      | some x => x.g.isSome && !fetchDone s1 f x
      | none => false
    if unfetched then (lateField s1 f v 6 s1.slot, b)
    else
    let bs := (List.range (s1.partialLanes f v l (reFlits e))).flatMap (fun i => leBytes 6 (ofSigned 48 (s1.lane f (l + i))))
    (s1, { b with valid := s1.live f v, data := slice bs 0 (128 * reFlits e), pos := s1.posOf f v })
  | _ =>
    let s1 := match s.scan f v with
      | some x => formH s f v x
      | none => s
    (s1, { b with
      valid := (s1.scan f v).isSome, scan := s1.scan f v
      data := slice (((s1.scan f v).map wordBytes).getD []) 0 (128 * reFlits e) })

/-- Key of a station buffer. -/
def bufKey (n b : Nat) : Nat := n * 64 + b

/-- An empty buffer. -/
def noFrame (_ : Nat) : Option Buf := none

/-- Set a station buffer. -/
def setBuf (s : State) (k : Nat) (f : Option Buf) : State :=
  { s with sched := { s.sched with bufs := sset noFrame s.sched.bufs k f } }

/-- Number a frame. -/
def nextFrame (s : State) : State := { s with sched := { s.sched with frames := s.sched.frames + 1 } }

/-- Note a station buffer counted LATE for a vector: the frame that is missing gets a number (R162, R167). -/
def markBuf (s : State) (k v : Nat) (frame : Bool) : State :=
  nextFrame { s with sched := { s.sched with bufMark := s.sched.bufMark ++ [{ buf := k, vec := v, frame := frame, no := s.sched.frames }] } }

/-- A mark of a buffer for a vector; 256 stands for a vector not known. -/
def BufMark.fits (m : BufMark) (k v : Nat) : Bool := m.buf == k && (m.vec == v || m.vec == 256 || v == 256)

/-- What is left of a frame once its first n flits are drained; none when it is empty. -/
def Buf.rest (b : Buf) (n : Nat) : Option Buf :=
  let d := b.fr.data.drop (128 * n)
  if d.isEmpty then none else some { b with fr := { b.fr with data := d } }

/-- Drain flits of a station buffer of link n (R162); flits that the frame does not have are invalid. A buffer that holds
no frame gives invalid flits, and the missing frame is counted LATE once (R167). -/
def stationInput (s : State) (f n e : Nat) : State × Batch :=
  let k := bufKey n (reTag e % 64)
  match sget noFrame s.sched.bufs k with
  | some x =>
    let fr := x.fr
    let b := { emptyBatch (reKind e) fr.vec (64 + n) (reFlits e) with
      valid := !fr.isNull && !fr.isFail && decide (128 * reFlits e ≤ (fr.data.length + 127) / 128 * 128)
      pos := some { ctx := fr.ctx, null := fr.isNull, failed := fr.isFail }
      data := slice fr.data 0 (128 * reFlits e), frame := x.no }
    (setBuf s k (x.rest (reFlits e)), b)
  | none =>
    let v := s.vecAt f e
    let b := emptyBatch (reKind e) v (64 + n) (reFlits e)
    match s.sched.bufMark.find? (fun m => m.fits k v) with
    | some m => (s, { b with frame := m.no })
    | none => (markBuf (s.count (Reg.linkSched_lateCnt n) 1) k v false, { b with frame := s.sched.frames })

/-- Unknown rows of vector v, or weights of its Nettle-only unit, still to be fetched by some field. -/
def rowsWanted (s : State) (v : Nat) : Bool :=
  (List.range 64).any (fun g => match s.scan g v with
    | some x => s.live g v && !fetchDone s g x
    | none => false)

/-- Reads that arrive from an HBM station (R93, R103, R159, R246): flits of weights while some field still
wants them (source 80 + side), otherwise the next flits of the vector's attention output (82 + side), and nothing where
there is neither (84). -/
def hbmInput (s : State) (f side e : Nat) : State × Batch :=
  let v := reTag e
  let n := reFlits e
  if rowsWanted s v then (s, { emptyBatch 0 v (80 + side) n with valid := s.stackServes side })
  else match s.windowFor side v (reSlot e) with
    | none => (s, emptyBatch 0 v 84 n)
    | some w =>
      let u := s.attUnit (winUnit w)
      let off := sget zeroNat (s.side side).fetch v
      let a := auExch u + (v - winVecLo w) * outPitch u + off
      (s.updSide side (fun d => { d with fetch := sset zeroNat d.fetch v (off + 128 * n) }),
        { emptyBatch 0 v (82 + side) n with
          valid := s.stackServes side && s.live (winField w) v, data := s.read a (128 * n), pos := s.posOf (winField w) v })

/-- Flits of a batch. -/
def Batch.flits (b : Batch) : Nat := (b.data.length + 127) / 128

/-- Take up to n flits waiting at a mesh input from the batches sent there, oldest first; what is left stays. -/
def takeFlits (k : Nat) : Nat → List (Nat × Batch) → List (Nat × Batch) × Option Batch
  | _, [] => ([], none)
  | n, x :: l =>
    if x.1 ≠ k then
      let r := takeFlits k n l
      (x :: r.1, r.2)
    else if n < x.2.flits then
      ((k, { x.2 with data := x.2.data.drop (128 * n) }) :: l, some { x.2 with data := x.2.data.take (128 * n) })
    else if n = x.2.flits then (l, some x.2)
    else
      let r := takeFlits k (n - x.2.flits) l
      (r.1, match r.2 with
        | some y => some { x.2 with data := x.2.data ++ y.data, valid := x.2.valid && y.valid }
        | none => some { x.2 with valid := false })

/-- Flits waiting at a mesh input. -/
def meshInput (s : State) (f p e : Nat) : State × Batch :=
  let r := takeFlits (f * 8 + p) (reFlits e) s.grid.mesh
  ({ s with grid := { s.grid with mesh := r.1 } },
    match r.2 with
    | some b => { b with data := slice b.data 0 (128 * reFlits e), valid := b.valid && decide (reFlits e ≤ b.flits) }
    | none => emptyBatch (reKind e) (reTag e) f (reFlits e))

/-- The input of an entry. -/
def routerInput (s : State) (f e : Nat) : State × Batch :=
  if reIn e < 4 then meshInput s f (reIn e) e
  else if reIn e = 4 then localInput s f e
  else match getAt Station.core (stationsOf f) (reIn e - 5) with
  | .hbm side => hbmInput s f side e
  | .link n => stationInput s f n e
  | .core => (s, emptyBatch (reKind e) (reTag e) f (reFlits e))

/-! ### Outputs -/

/-- The loss or context mismatch of a frame is recorded: each frame has one record, whatever fields it reaches. -/
def tellFrame (s : State) (no : Nat) : State := { s with sched := { s.sched with told := (no :: s.sched.told).take 1024 } }

/-- A frame of link n whose sequence ID differs from the position's: counted once (R165). -/
def ctxMismatch (s : State) (f n : Nat) (b : Batch) (p : Pos) : State :=
  if s.sched.told.contains b.frame then failMb s f b.vec
  else tellFrame (failStepIn (s.count (Reg.linkSched_ctxMismatch n) 1) (linkResetDomain n) f b.vec 0x0102 3 n (leBytes 4 p.ctx.seqId)) b.frame

/-- The frame that should have brought a position is missing (R168). -/
def frameMissing (s : State) (f n : Nat) (b : Batch) : State :=
  if s.sched.told.contains b.frame then failMb s f b.vec
  else tellFrame (failStepIn s (linkResetDomain n) f b.vec 0x0101 3 n (leBytes 1 0 ++ leBytes 1 s.slot)) b.frame

/-- Take a position from the first batch that reaches it, and compare the later ones (R165, R168). A position that comes
after its micro-batch has failed is failed. -/
def takePos (s : State) (f : Nat) (b : Batch) : State :=
  let v := b.vec
  let link := b.src - 64
  let station := decide (64 ≤ b.src) && decide (b.src < 80)
  match b.pos, s.posOf f v with
  | some p, none =>
    let s1 := s.setPos f v (some { p with failed := s.mbFailed f (s.mbOf f v), seen := false, got := none })
    if p.failed then failMb s1 f v else s1
  | some p, some q =>
    if p.failed then failMb s f v
    else if station then
      if p.ctx.seqId = q.ctx.seqId then s else ctxMismatch s f link b p
    else if p.null && !q.null && !q.failed then s.setPos f v (some { q with null := true })
    else s
  | none, _ =>
    if b.valid || 80 ≤ b.src then s
    else if 256 ≤ v then s
    else if station then frameMissing s f link b
    else if b.kind = 0 && s.live f v then lateField s f v 0 s.slot
    else s

/-- Union of adapter partials by row block. -/
def mergeParts (a b : List (Nat × List Nat)) : List (Nat × List Nat) :=
  a ++ b.filter (fun p => !a.any (fun q => q.1 == p.1))

/-- Arrivals that control words bring in slot `q`: adapter words where partials or h are new, and a select word. -/
def wordArrivals (x y : Scan) (q : Nat) : List (Nat × Nat) :=
  (if y.parts.any (fun p => !x.parts.any (fun r => r.1 == p.1)) || (x.h.isNone && y.h.isSome) then [(4, q)] else []) ++
    (if y.sel.isSome then [(7, q)] else [])

/-- Control words that another field sent, in this die or in another (R70, R101, R277). -/
def mergeWords (s : State) (f u : Nat) (b : Batch) (y : Scan) : State :=
  let q := s.stepSlot f s.slot
  let own := s.isOwner f u
  updScan s f b.vec u (fun x => { x with
    words := x.words ++ [(b.src, y.word, q)]
    g := if x.g.isSome || own then x.g else y.g.map (fun w => (w.1, q))
    parts := mergeParts x.parts y.parts
    h := if x.h.isSome then x.h else y.h
    sels := match y.sel with
      | some w => x.sels ++ [(b.src, w)]
      | none => x.sels
    arr := x.arr ++ wordArrivals x y q })

/-- Flits of fetched weights reach a field that still wants some (R93, R103). -/
def takeFetched (s : State) (f e : Nat) (b : Batch) : State :=
  if !b.valid then stackFail s (b.src - 80) f b.vec
  else match s.scan f b.vec with
  | some x =>
    if fetchDone s f x then s
    else setScan s f b.vec (some { x with fetched := x.fetched + reFlits e, arr := x.arr ++ [(6, s.stepSlot f s.slot)] })
  | none => s

/-- Unit index whose lanes vector `v` opens at lane `l` of field `f`. -/
def State.laneUnit (s : State) (f v l : Nat) : Nat :=
  ((List.range 64).find? (fun u => s.hasAction f 4 u v && decide (s.laneLo f u ≤ l) && decide (l < s.laneLo f u + s.laneCnt f u))).getD 0

/-- Lane partials reach a field (R76): added to the lanes; after the lanes have closed they are LATE and discarded. -/
def takePartials (s : State) (f e : Nat) (b : Batch) : State :=
  let l := reAddr e % 65536
  let u := s.laneUnit f b.vec l
  if ((s.scan f b.vec).map (fun x => x.closed)).getD false then lateField s f b.vec 3 s.slot
  else if !b.valid then updScan s f b.vec u (fun x => { x with missing := x.missing ++ [3] })
  else
    updScan (addLanes s f 8192 b.vec ((List.range (s.partialLanes f b.vec l (reFlits e))).map (fun i =>
      (l + i, toSigned 48 (fieldAt b.data (6 * i) 6))))) f b.vec u (fun x => { x with arr := x.arr ++ [(3, s.stepSlot f s.slot)] })

/-- Payload reaches a field's SRAM. Attention outputs are noted with their slot (R246); from a stack that does not serve
they fail the vector (R262). -/
def takePayload (s : State) (f e : Nat) (b : Batch) : State :=
  let att := decide (82 ≤ b.src) && decide (b.src < 84)
  if att && !s.stackServes (b.src - 82) then stackFail s (b.src - 82) f b.vec
  else if !b.valid then lateField s f b.vec 0 s.slot
  else
    let s1 := s.putSram f (reAddr e * 8) b.data
    if att then
      s1.setPos f b.vec ((s1.posOf f b.vec).map (fun p => { p with got := some (s1.stepSlot f s1.slot) }))
    else s1

/-- Control words reach a field. -/
def takeWords (s : State) (f e : Nat) (b : Batch) : State :=
  let u := reAddr e % 64
  if !b.valid then updScan s f b.vec u (fun x => { x with missing := x.missing ++ [2, 7] })
  else mergeWords s f u b (b.scan.getD (readWords u b.data))

/-- Deliver a batch to a field's local port, under the KIND of the entry there. A gated field discards and counts (R27), a
field in reset loses its flits, and a field that is disabled fails the vector (R354). -/
def deliverLocal (s : State) (f e : Nat) (b : Batch) : State :=
  if !s.powered f then s.count (Reg.routerStat_discardCnt f) (reFlits e)
  else if s.inReset f then s
  else
    let s1 := takePos s f b
    if !s1.live f b.vec then s1
    else if !s1.fieldRuns f then fieldDown s1 f b.vec
    else if b.src = 84 then s1
    else if 80 ≤ b.src && b.src < 82 then takeFetched s1 f e b
    else match reKind e with
    | 0 => takePayload s1 f e b
    | 1 => takePartials s1 f e b
    | _ => takeWords s1 f e b

/-- Input of an attention complex (R245): flits for a position, in the order they come. Those too late for their window are
lost. -/
def takeInput (s : State) (side : Nat) (b : Batch) : State :=
  let keep := b.valid && !s.inWindow side b.vec s.slot 1
  let seen := b.valid && !s.inWindow side b.vec s.slot 0
  s.updSide side (fun d => { d with
    attIn := if keep then sset noBytes d.attIn b.vec (sget noBytes d.attIn b.vec ++ b.data) else d.attIn
    attSeen := if seen then d.attSeen ++ [b.vec] else d.attSeen })

/-- Send a batch to output p of a router: the local port, a mesh neighbour, or a station (R26). A flit
towards a missing or unavailable neighbour is lost. Port and core stations take nothing from a router entry:
departures read their payload themselves. -/
def deliver (s : State) (f e : Nat) (b : Batch) (p : Nat) : State :=
  if p = 4 then deliverLocal s f e b
  else if p < 4 then
    match neighbour f p with
    | some (g, q) =>
      if s.routerOk g then { s with grid := { s.grid with mesh := s.grid.mesh ++ [(g * 8 + q, b)] } } else s
    | none => s
  else match getAt Station.core (stationsOf f) (p - 5) with
  | .hbm side => if reKind e = 0 then takeInput s side b else s
  | _ => s

/-! ### Departure-table entries (Table 8.9) -/

/-- Entry idx of a link's departure table, 128 bits, word 0 lowest. -/
def State.departureEntry (s : State) (n idx : Nat) : Option Nat :=
  let d := s.section 7 n
  if idx < d.length / 16 then some (fieldAt d (16 * idx) 16) else none

/-- Fields of an entry. -/
def deBeat (e : Nat) : Nat := bits e 58 6
def deSlot (e : Nat) : Nat := bits e 52 6
def deCycle (e : Nat) : Nat := bits e 45 7
def deFlits (e : Nat) : Nat := bits e 38 7 + 1
def deVec (e : Nat) : Nat := bits e 30 8
def deBuf (e : Nat) : Nat := bits e 24 6
def deSrc (e : Nat) : Nat := bits e 0 18 * 8
def deDest (e : Nat) : Nat := bits e 64 18

/-- Cycles for which a frame of n flits holds a port on c lanes (R192). -/
def portHold (n c : Nat) : Nat := (128 * n + 10 * c - 1) / (10 * c) + 16

/-- Cycles for which a frame of `n` flits holds link `l` (R161, R192). -/
def State.frameHold (s : State) (l n : Nat) : Nat :=
  if l < 8 then portHold n (max 1 (popCount (s.lanes l) 4)) else (5 * n + 3) / 4 + 16

/-- Every CLOSE and SELECT that writes into the payload is complete before slot q − 1 (R167). -/
def payloadReady (s : State) (f v src n q : Nat) : Bool :=
  (s.actions f).all (fun a =>
    !(faAct a == 5 && faVec a == v && decide (src ≤ faAddr a) && decide (faAddr a < src + 128 * n)) ||
      (match s.scan f v with
        | some x => x.uidx != faUidx a || (x.closed && decide (x.outEnd + 2 ≤ q))
        | none => false))

end Sys2Proof.Machine
end

