-- ==== Sys2Proof/Machine/Frames.lean ====
section
/-! DEFINITION. Frames of the die's own kind on the wire (R196 to R202), and the queue of unscheduled frames of each link
(R205 to R207). -/

namespace Sys2Proof.Machine

/-! ### Wire form (Tables 10.2 to 10.7) -/

/-- `n` bytes of `v`, most significant first. -/
def beBytes (n v : Nat) : List Byte := (leBytes n v).reverse

/-- MAC address of a die (R196): 02-B5-A1 and the die ID. -/
def macOf (d : Nat) : List Byte := [0x02, 0xB5, 0xA1] ++ beBytes 3 d

/-- The Voxvi EtherType. -/
def etherType : Nat := 0x9A57

/-- The link-local destination (R197). -/
def linkLocal : Nat := 0x3FFFF

/-- Common header (Table 10.2). -/
def commonHdr (typ flags fpv ttl dst src gen : Nat) : List Byte :=
  leBytes 1 typ ++ leBytes 1 flags ++ leBytes 1 fpv ++ leBytes 1 ttl ++ leBytes 4 dst ++ leBytes 4 src ++ leBytes 4 gen

/-- Addresses, EtherType and common header, before the rest of a frame. -/
def frameOf (typ flags fpv ttl dst src gen : Nat) (rest : List Byte) : List Byte :=
  macOf dst ++ macOf src ++ beBytes 2 etherType ++ commonHdr typ flags fpv ttl dst src gen ++ rest

/-- Bytes 16 to 63 of a request header (Table 10.5). -/
def reqBytes (r : ReqHdr) : List Byte :=
  leBytes 1 r.op ++ leBytes 1 0 ++ leBytes 2 r.tag ++ leBytes 2 r.dgen ++ leBytes 2 0 ++ leBytes 4 r.issueBeat ++ leBytes 4 r.len
    ++ leBytes 8 r.addr ++ leBytes 8 r.opnd1 ++ leBytes 8 r.opnd2 ++ leBytes 4 r.stopBeat ++ leBytes 4 0

/-- Bytes 16 to 47 of a response header (Table 10.7). -/
def respBytes (r : RespHdr) : List Byte :=
  leBytes 1 r.op ++ leBytes 1 r.status ++ leBytes 2 r.tag ++ leBytes 2 r.dgen ++ leBytes 2 0 ++ leBytes 4 r.applyBeat
    ++ leBytes 4 r.len ++ leBytes 8 r.old ++ leBytes 8 0

/-- The context of a SCHED frame (Table 10.4). -/
def ctxBytes (f : SchedFrame) : List Byte :=
  leBytes 4 f.ctx.seqId ++ leBytes 2 f.ctx.seqGen ++ leBytes 2 f.ctx.adapter
    ++ leBytes 4 (f.ctx.tenant % 2 ^ 20 + 2 ^ 20 * (f.ctx.cls % 4) + 2 ^ 22 * (f.ctx.prio % 4)) ++ leBytes 1 f.vec
    ++ leBytes 1 (f.destBuf % 64) ++ leBytes 1 ((f.data.length / 128 - 1) % 64) ++ leBytes 1 0 ++ leBytes 4 f.beat ++ leBytes 4 f.ctx.tokenIdx

/-- The frames, from the destination address up to the frame check sequence, which is not part of them. -/
def wireReq (r : ReqHdr) (data : List Byte) : List Byte := frameOf 3 0 r.fpv r.ttl r.dst r.src 0 (reqBytes r ++ data)
def wireResp (r : RespHdr) (data : List Byte) : List Byte := frameOf 4 0 r.fpv r.ttl r.dst r.src 0 (respBytes r ++ data)
def wireSched (f : SchedFrame) : List Byte :=
  frameOf 1 (b2n f.isNull + 2 * b2n f.isFail) f.fpv f.ttl f.dst f.src f.ctx.modelGen (ctxBytes f ++ f.data)
def wireTransit (t : TransitHdr) : List Byte := frameOf t.typ 0 t.fpv t.ttl t.dst t.src 0 t.body
def wireCtrl (h : CtrlHdr) (payload : List Byte) : List Byte := frameOf 2 0 h.fpv h.ttl h.dst h.src 0 payload

/-- An unscheduled frame's bytes; none for what is no such frame. -/
def Msg.frame (m : Msg) : List Byte :=
  match m with
  | .req _ h d => wireReq h d
  | .resp _ h d => wireResp h d
  | .transit _ t => wireTransit t
  | .ctrl _ h p => wireCtrl h p
  | _ => []

/-- Length from destination address to frame check sequence inclusive (R196); of a READ request, Ethernet, IP, UDP, BTH, RETH,
ICRC and frame check sequence (log entry 89). -/
def Msg.size (m : Msg) : Nat :=
  match m with
  | .roceRead _ h _ _ _ => 14 + (if h.family = 6 then 40 else 20) + 8 + 12 + 16 + 4 + 4
  | x => x.frame.length + 4

/-- The revision in force on the link, as the frame leaves. -/
def Msg.stamp (v : Nat) (m : Msg) : Msg :=
  match m with
  | .req l h d => .req l { h with fpv := v } d
  | .resp l h d => .resp l { h with fpv := v } d
  | .transit l t => .transit l { t with fpv := v }
  | .ctrl l h p => .ctrl l { h with fpv := v } p
  | x => x

/-! ### What the receiving port discards (R178, R196, R199, R209, R220) -/

/-- A received frame that is discarded for its form, with its count: an uncorrectable codeword, a tag or an excessive
length, or for an unscheduled frame a full ingress buffer. `rest`: bytes after the EtherType. -/
def rxDiscard (s : State) (n : Nat) (x : RxIn) (rest : Nat) (sched : Bool) : Option State :=
  let len := 14 + rest + 4
  if x.bad then some (s.count (Reg.fecUncorr_uncorr n) 1)
  else if x.tagged || decide (8250 < len) then some (s.count Reg.fabRxCnt_rxBad 1)
  else if !sched && decide (262144 < x.backlog + len) then some (s.count Reg.fabRxCnt_rxDrop 1)
  else none

/-- KIND of a CTRL frame is none of Table 10.3. -/
def ctrlReserved (k : Nat) : Bool := !(k == 1 || k == 2 || k == 0x10 || (decide (0x20 ≤ k) && decide (k ≤ 0x2F)))

/-- A frame from the other half that may not cross (R220): `first` is KIND of a CTRL frame, OP of a request or response. -/
def crossBad (s : State) (typ src first : Nat) : Bool :=
  dieHalf src != dieHalf s.myId &&
    !((typ == 2 && decide (0x20 ≤ first) && decide (first ≤ 0x2F)) || ((typ == 3 || typ == 4) && first == 6))

/-! ### The queue of a link (R207) -/

/-- Cycles of this beat that the departures of link `n` hold, as first and end, in the order of its table (R161, R192). -/
def State.heldSpans (s : State) (n : Nat) : List (Nat × Nat) :=
  let d := s.section 7 n
  if !s.firing then [] else (List.range (d.length / 16)).filterMap (fun i =>
    let e := fieldAt d (16 * i) 16
    let t := deSlot e * 80 + deCycle e
    if deBeat e = s.stepBeat (64 + n) then some (t, t + s.frameHold n (deFlits e)) else none)

/-- The first cycle from `t` on from which `hold` cycles meet none of the spans. -/
def firstFree (spans : List (Nat × Nat)) (t hold : Nat) : Nat :=
  spans.foldl (fun t x => if t < x.2 ∧ x.1 < t + hold then x.2 else t) t

/-- Flits that a frame's bytes fill (DEDUCED, log entry 81). -/
def Msg.flits (m : Msg) : Nat := (m.size + 127) / 128

/-- The cycle of this beat in which a frame of the queue may begin: after cycle 15, clear of every scheduled departure, and
ended before the next beat; none where this beat has no such cycle left. -/
def State.startOf (s : State) (n : Nat) (m : Msg) : Option Nat :=
  let hold := s.frameHold n m.flits
  let t := firstFree (s.heldSpans n) (max 16 (s.lnk n).freeAt) hold
  if t + hold ≤ 5120 then some t else none

/-- Frames of link `n` that begin by cycle `lim` leave, in the order they were queued. -/
def drainLink (n lim : Nat) : Nat → State → State
  | 0, s => s
  | k + 1, s =>
    if s.linkUp n then
      match (s.lnk n).queue with
      | [] => s
      | m :: rest =>
        match s.startOf n m with
        | none => s
        | some t =>
          if lim < t then s
          else drainLink n lim k ((s.updLnk n (fun l => { l with queue := rest, freeAt := t + s.frameHold n m.flits })).emit
            (m.stamp (s.fld (Reg.linkStatus_fpv n))))
    else s

/-- What link `n` can send by cycle `lim` of this beat. -/
def drain (s : State) (n lim : Nat) : State := drainLink n lim (s.lnk n).queue.length s

/-- Queue an unscheduled frame on its link. -/
def sendUns (s : State) (n : Nat) (m : Msg) : State :=
  let s1 := drain s n s.cyc
  let s2 := s1.updLnk n (fun l => { l with freeAt := if l.queue.isEmpty then max l.freeAt s.cyc else l.freeAt, queue := l.queue ++ [m] })
  drain s2 n s.cyc

/-- Every link sends what it can by cycle `lim`. -/
def drainAll (s : State) (lim : Nat) : State := (List.range 12).foldl (fun t n => drain t n lim) s

/-- Bytes queued on a link. -/
def State.queued (s : State) (n : Nat) : Nat := ((s.lnk n).queue.map Msg.size).sum

end Sys2Proof.Machine
end

