-- ==== Sys2Proof/Machine/MbxOps.lean ====
section
/-! DEFINITION. The mailbox pages (Tables 14.3, 14.4, 14.8) and accesses to CSR space as a whole. -/

namespace Sys2Proof.Machine

/-- Offset `o` of a mailbox page is reserved (Table 14.3). -/
def mbxReserved (o : Nat) : Bool := (decide (0x10 ≤ o) && decide (o < 0x100)) || decide (0x400 ≤ o)

/-- JOBS_BUSY. -/
def Mailbox.busy (b : Mailbox) : Nat :=
  (b.jobs.zipIdx).foldl (fun n e => if e.1.state == .free then n else setBit n e.2) 0

/-- MBX_STATUS. -/
def Mailbox.status (b : Mailbox) : Nat :=
  b.busy * 256 + 128 * b2n b.hostWrite + 64 * b2n b.overrun + b.state.code

/-- The word at an offset of a mailbox page. -/
def mbxWord (s : State) (m o : Nat) : Word :=
  let b := s.mb m
  if o = 4 then BitVec.ofNat 32 b.status
  else if o = 0xC then BitVec.ofNat 32 (b.commands * 65536 + b.overruns)
  else if 0x100 ≤ o ∧ o < 0x200 then BitVec.ofNat 32 (fieldAt b.cmd (o - 0x100) 4)
  else if 0x200 ≤ o ∧ o < 0x300 then BitVec.ofNat 32 (fieldAt b.resp (o - 0x200) 4)
  else if 0x300 ≤ o ∧ o < 0x400 then BitVec.ofNat 32 (fieldAt (b.jobs.flatMap Job.bytes) (o - 0x300) 4)
  else 0

/-- A read of MBX_CNT clears it. -/
def mbxReadEffects (s : State) (m o : Nat) : State :=
  if o = 0xC then s.updMb m (fun b => { b with commands := 0, overruns := 0 }) else s

/-- A write to a RUNNING mailbox is ignored and flagged (Table 14.4). -/
def Mailbox.flagged (b : Mailbox) : Mailbox := { b with overrun := true, overruns := min 0xFFFF (b.overruns + 1) }

/-- GO (R303): the command area is submitted and the submitter recorded (none: the host). -/
def mbxGo (s : State) (m : Nat) (src : Option Nat) : State :=
  s.updMb m (fun b =>
    if b.state = .running then b.flagged
    else { b with state := .running, resp := List.replicate 256 0, submitter := src })

/-- Bytes written to the command area at `off`, one 32-bit register. -/
def mbxCmd (s : State) (m off : Nat) (v : List Byte) : State :=
  s.updMb m (fun b => if b.state = .running then b.flagged else { b with cmd := patchAt b.cmd off v })

/-- JOB_ACK frees the DONE job that it names exactly (R307). -/
def mbxAck (s : State) (m jobNo : Nat) : State :=
  s.updMb m (fun b => { b with jobs := b.jobs.map (fun j =>
    if j.state = .done ∧ j.jobNo = jobNo then { state := .free, gen := j.gen } else j) })

/-- A write of one register of a mailbox page. -/
def mbxWrite (s : State) (m o : Nat) (v : Word) (src : Option Nat) : State :=
  if o = 0 then if hasBit v.toNat 0 then mbxGo s m src else s
  else if o = 4 then
    s.updMb m (fun b => { b with
      hostWrite := b.hostWrite && !hasBit v.toNat 7, overrun := b.overrun && !hasBit v.toNat 6 })
  else if o = 8 then mbxAck s m (bits v.toNat 0 16)
  else if 0x100 ≤ o ∧ o < 0x200 then mbxCmd s m (o - 0x100) (leBytes 4 v.toNat)
  else s

/-! ### CSR space -/

/-- The CSR offset lies in the mailbox pages. -/
def isMbx (off : Nat) : Bool := decide (0x20000 ≤ off) && decide (off < 0x28000)

/-- The CSR offset lies in the page of MBX7. -/
def isMbx7 (off : Nat) : Bool := decide (0x27000 ≤ off) && decide (off < 0x28000)

/-- No register lies at a word-aligned CSR offset (R346). -/
def csrReserved (off : Nat) : Bool := if isMbx off then mbxReserved (off % 0x1000) else (regSpec off).isNone

/-- What a CSR read returns. -/
def csrWord (s : State) (off : Nat) : Word :=
  if isMbx off then mbxWord s (off / 0x1000 - 32) (off % 0x1000) else s.regWord off

/-- A CSR read's effects. -/
def csrReadEffects (s : State) (off : Nat) : State :=
  if isMbx off then mbxReadEffects s (off / 0x1000 - 32) (off % 0x1000) else readEffects s off

/-- Read `n` registers upwards, each with its effects. -/
def csrRead (s : State) (off : Nat) : Nat → State × List Byte
  | 0 => (s, [])
  | n + 1 =>
    let r := csrRead (csrReadEffects s off) (off + 4) n
    (r.1, leBytes 4 (csrWord s off).toNat ++ r.2)

/-- A CSR write's effects. -/
def csrWrite1 (s : State) (off : Nat) (v : Word) (src : Option Nat) : State :=
  if isMbx off then mbxWrite s (off / 0x1000 - 32) (off % 0x1000) v src else writeReg s off v

/-- Write registers upwards from bytes, `n` words. -/
def csrWriteAll (s : State) (off : Nat) (bs : List Byte) (src : Option Nat) : Nat → State
  | 0 => s
  | n + 1 => csrWriteAll (csrWrite1 s off (BitVec.ofNat 32 (fieldAt bs 0 4)) src) (off + 4) (bs.drop 4) src n

/-- The first of `n` registers from `off` that is a bus error to the host (R348): any reserved offset, but for
writes into the page of MBX7. -/
def firstReserved (off : Nat) (write : Bool) (n : Nat) : Option Nat :=
  ((List.range n).map (fun i => off + 4 * i)).find? (fun a => csrReserved a && !(write && isMbx7 a))

/-- A host write into the page of MBX7: ignored and flagged (Table 14.3). -/
def hostDenied (s : State) : State := s.updMb 7 (fun b => { b with hostWrite := true })

/-- A write of one register by the host (R302, R348). -/
def hostWrite (s : State) (off : Nat) (v : Word) : State :=
  if s.dieState = .off then s
  else if isMbx7 off then hostDenied s
  else if off % 4 ≠ 0 ∨ csrReserved off = true then busError s (csrBase + off) true 0
  else csrWrite1 s off v none

/-- A read of one register by the host: the value goes to the reader. -/
def hostRead (s : State) (off : Nat) : State :=
  if s.dieState = .off then s
  else if off % 4 ≠ 0 ∨ csrReserved off = true then busError s (csrBase + off) false 0
  else (csrReadEffects s off).emit (.regRead off (csrWord s off))

/-- LEN and ADDR follow R212 for a LOAD or STORE. -/
def loadOk (addr len : Nat) : Bool :=
  decide (8 ≤ len) && decide (len ≤ 4096) && len % 8 == 0 && addr % 8 == 0 &&
    decide (addr / 4096 = (addr + (len - 1)) / 4096)

/-- Region of a local address (Table 10.1): 0 HBM, 1 SRAM, 2 CSR space, 3 none. -/
def region (addr : Nat) : Nat :=
  if addr < hbmEnd then 0
  else if sramBase ≤ addr ∧ addr < sramEnd then 1
  else if csrBase ≤ addr ∧ addr < csrEnd then 2
  else 3

/-- A write leaves part of an uncorrectable granule in place (R219). -/
def State.uePartial (s : State) (a len : Nat) : Bool :=
  s.sue.any (fun g => decide (g * 8 < a + len) && decide (a < g * 8 + 8) && !(decide (a ≤ g * 8) && decide (g * 8 + 8 ≤ a + len))) ||
  s.ue.any (fun g => decide (g * 32 < a + len) && decide (a < g * 32 + 32) && !(decide (a ≤ g * 32) && decide (g * 32 + 32 ≤ a + len)))

/-- Bus-error address of a host access: none where the access is legal (R309, R348). -/
def u4Fault (addr len : Nat) (write : Bool) : Option Nat :=
  match region addr with
  | 2 =>
    if addr % 4 ≠ 0 ∨ len < 4 ∨ 256 < len ∨ len % 4 ≠ 0 then some addr
    else if csrEnd < addr + len then some csrEnd
    else (firstReserved (csrOff addr) write (len / 4)).map (fun o => csrBase + o)
  | 3 => some addr
  | _ => if loadOk addr len then none else some addr

end Sys2Proof.Machine
end

