-- ==== Sys2Proof/Machine/MeshOps.lean ====
section
/-! DEFINITION. Unscheduled routes over the mesh (R23, R25, R33): X first, then Y first; the HBM station of an
access; and the distance table (R32 to R34). -/

namespace Sys2Proof.Machine

/-- Field of a column and row. -/
def fieldXY (x y : Nat) : Nat := 8 * y + x

/-- Integers from `a` to `b`, both included, whichever is lower. -/
def between (a b : Nat) : List Nat := (List.range (max a b - min a b + 1)).map (fun i => min a b + i)

/-- Routers of the X-first path, ends included. -/
def xFirst (a b : Nat) : List Nat :=
  (between (a % 8) (b % 8)).map (fun x => fieldXY x (a / 8)) ++ (between (a / 8) (b / 8)).map (fun y => fieldXY (b % 8) y)

/-- Routers of the Y-first path, ends included. -/
def yFirst (a b : Nat) : List Nat :=
  (between (a / 8) (b / 8)).map (fun y => fieldXY (a % 8) y) ++ (between (a % 8) (b % 8)).map (fun x => fieldXY x (b / 8))

/-- Router hops of either path. -/
def hopsOf (a b : Nat) : Nat :=
  (max (a % 8) (b % 8) - min (a % 8) (b % 8)) + (max (a / 8) (b / 8) - min (a / 8) (b / 8))

/-- The route of unscheduled traffic (R25): false for X first, true for Y first, none where unreachable. -/
def State.route (s : State) (a b : Nat) : Option Bool :=
  if (xFirst a b).all s.routerOk then some false
  else if (yFirst a b).all s.routerOk then some true
  else none

/-- The field of the HBM station of stack `side` that a source field uses: its own row's, or the available one
nearest by hops, the lower row on a tie (R25). -/
def State.hbmField (s : State) (a side : Nat) : Option Nat :=
  let own := fieldXY (7 * side) (a / 8)
  if s.routerOk own then some own
  else (((List.range 8).map (fun y => fieldXY (7 * side) y)).filter s.routerOk).foldl (fun o f => match o with
    | some g => if hopsOf a f < hopsOf a g then some f else o
    | none => some f) none

/-- The field at which an access from field `a` to HBM or SRAM leaves the mesh. -/
def State.exitField (s : State) (a addr : Nat) : Option Nat :=
  if addr < hbmEnd then s.hbmField a (hbmSide addr) else some (sramField addr)

/-- An access from field `a` reaches its target; none where it does not. -/
def State.reach (s : State) (a addr : Nat) : Option Bool := (s.exitField a addr).bind (s.route a)

/-- Note a Y-first route at the source router (R25, Table 2.2). -/
def noteRoute (s : State) (a : Nat) (y : Bool) : State := if y then s.setFld (Reg.routerStat_altUsed a) 1 else s

/-- Field of the control core's station (Table 2.1). -/
def coreField : Nat := 7

/-- Unscheduled flits cross the mesh from field `a` to field `b`; none where `b` is unreachable (R25, R28). -/
def crossMesh (s : State) (a b : Nat) : Option State := (s.route a b).map (noteRoute s a)

/-- Unscheduled flits go from field `a` to the memory at an address; none where it is unreachable (R25). -/
def meshTo (s : State) (a addr : Nat) : Option State := (s.exitField a addr).bind (crossMesh s a)

/-! ### The distance table (Tables 2.3 to 2.5) -/

/-- A path entry. -/
def pathEntry (s : State) (a : Nat) (b : Option Nat) : Nat :=
  match b.bind (fun f => (s.route a f).map (fun y => (f, y))) with
  | some (f, y) => (4 * hopsOf a f + 4) * 256 + 32 * b2n y + hopsOf a f
  | none => 0xFF * 256 + 2 * 32 + 0x1F

/-- Field of a station index (Table 2.1); an HBM station is the one R25 selects. -/
def State.stationField (s : State) (a i : Nat) : Option Nat :=
  if i < 2 then s.hbmField a i else if i = 15 then some 7 else some (linkField (i - 2))

/-- Sections A, B and C. -/
def distBody (s : State) : List Byte :=
  ((List.range 64).flatMap (fun a => (List.range 64).flatMap (fun b => leBytes 2 (pathEntry s a (some b)))))
    ++ ((List.range 64).flatMap (fun a => (List.range 16).flatMap (fun i => leBytes 2 (pathEntry s a (s.stationField a i)))))
    ++ ((List.range 64).flatMap (fun f => leBytes 2
      (s.tilesUsable f * 256 + 8 * b2n (s.routerOk f) + 4 * b2n (s.retiredDom f) + 2 * b2n (s.powered f))))

/-- The 10,384 bytes of the table. -/
def distTable (s : State) : List Byte :=
  let b := distBody s
  leBytes 2 1 ++ leBytes 2 16 ++ leBytes 4 s.myId ++ leBytes 4 s.grid.change ++ leBytes 4 (crc32c b).toNat ++ b

end Sys2Proof.Machine
end

