-- ==== Sys2Proof/Machine/FabricOps.lean ====
section
/-! DEFINITION. The fabric (chapter 10): die IDs, paths (R203 to R205), remote operations as the target applies
them (R212 to R216, R219), copies, requests of this die and their completion. -/

namespace Sys2Proof.Machine

/-! ### Die IDs (Table 1.1) -/

/-- Rack of a die ID. -/
def dieRack (d : Nat) : Nat := bits d 8 9
def dieTray (d : Nat) : Nat := bits d 4 4
def diePkg (d : Nat) : Nat := bits d 2 2
def dieQpos (d : Nat) : Nat := bits d 0 2

/-- The die ID does not name a reserved rack (R9). -/
def dieValid (d : Nat) : Bool := decide (d < 2 ^ 18) && decide (dieRack d < 488)

/-- Fabric address of a local address on a die (R195). -/
def fabAddr (d a : Nat) : Nat := d * 2 ^ 46 + a

/-- Die and local address of a fabric address. -/
def fabDie (a : Nat) : Nat := a / 2 ^ 46 % 2 ^ 18
def fabLocal (a : Nat) : Nat := a % 2 ^ 46

/-! ### Paths (Table 10.9, R204, R205) -/

/-- h of R205; a frame without TAG or ADDR counts them as 0. -/
def pathHash (s : State) (dst tag addr : Nat) : Nat :=
  (Config.sip24 s.sec.pathKey (leBytes 4 dst ++ leBytes 2 tag ++ leBytes 2 0 ++ leBytes 8 (addr / 4096 % 2 ^ 34))).toNat

/-- Element h mod c of the candidates. -/
def pick (h : Nat) (l : List Nat) : Option Nat := if l.isEmpty then none else l[h % l.length]?

/-- Steps 3 and 4 of R205, which keep the bound of R206: element h mod c of the candidates, or the least-queued, the lowest on a tie, where the element
has over 64 KiB more queued; `w`: bytes queued for a candidate. -/
def pickLeast (w : Nat → Nat) (h : Nat) (l : List Nat) : Option Nat :=
  (pick h l).map (fun x =>
    let m := l.foldl (fun m y => if w y < w m then y else m) (l.headD x)
    if w m + 65536 < w x then m else x)

/-- The switch port of plane `k` is live as its last HELLO reported (R205). -/
def State.switchLive (s : State) (k : Nat) : Bool :=
  match (s.lnk k).peer with
  | some h => h.peerOk && !h.quar
  | none => true

/-- The rack plane that a frame takes. -/
def planePath (s : State) (h : Nat) : Option Nat :=
  pickLeast s.queued h ((List.range 6).filter (fun k => s.linkUp k && s.switchLive k))

/-- Modules of a ring direction (0 towards neighbour A, 1 towards B) that are up. -/
def ringMods (s : State) (dir : Nat) : List Nat := [8 + 2 * dir, 9 + 2 * dir].filter s.linkUp

/-- One hop in a ring direction. -/
def ringHop (s : State) (h dir : Nat) : Option Nat := pickLeast s.queued (h / 256) (ringMods s dir)

/-- Ring hops between two positions. -/
def ringDist (a b : Nat) : Nat := let d := (b + 4 - a) % 4; min d (4 - d)

/-- The ring path towards another position: the direction of an adjacent die, or either of two. -/
def ringPath (s : State) (h q : Nat) : Option Nat :=
  let d := (q + 4 - dieQpos s.myId) % 4
  if d = 1 then ringHop s h 0
  else if d = 3 then ringHop s h 1
  else (pickLeast (fun x => s.queued (8 + 2 * x) + s.queued (9 + 2 * x)) h
    ([0, 1].filter (fun x => !(ringMods s x).isEmpty))).bind (ringHop s h)

/-- Exit position of the tray path (R204). -/
def trayExit (q pd qd : Nat) : Nat :=
  let c := if pd = 1 then (0, 2) else (1, 3)
  if ringDist q c.2 + ringDist c.2 qd < ringDist q c.1 + ringDist c.1 qd then c.2 else c.1

/-- A hop without candidate falls back on a rack plane (R205). -/
def orPlane (s : State) (h : Nat) (p : Option Nat) : Option Nat :=
  match p with
  | some l => some l
  | none => planePath s h

/-- The link by which an unscheduled frame to another die leaves; none where no path has a candidate. -/
def pathTo (s : State) (dst tag addr : Nat) : Option Nat :=
  let me := s.myId
  let h := pathHash s dst tag addr
  if dst / 256 ≠ me / 256 then if s.linkUp 7 then some 7 else none
  else if dieTray dst = dieTray me then
    let x := diePkg dst ^^^ diePkg me
    if x = 0 then orPlane s h (ringPath s h (dieQpos dst))
    else if x = 3 then planePath s h
    else
      let e := trayExit (dieQpos me) x (dieQpos dst)
      orPlane s h (if e = dieQpos me then (if s.linkUp 6 then some 6 else none) else ringPath s h e)
  else planePath s h

/-! ### A remote operation at its target -/

/-- Answer of an operation: status, LEN, OLD, data. -/
structure Ans where
  status : Nat
  len    : Nat := 0
  old    : Nat := 0
  data   : List Byte := []
  deriving DecidableEq, Repr

/-- The operation breaks R212 (LOAD, STORE, FAA64, CAS64, COPY, KVX). -/
def badReq (op addr len opnd1 : Nat) : Bool :=
  if op = 1 ∨ op = 2 then !loadOk addr len
  else if op = 3 ∨ op = 4 then addr % 8 != 0
  else if op = 5 ∨ op = 6 then
    !(decide (64 ≤ len) && decide (len ≤ 2 ^ 26) && len % 64 == 0 && addr % 64 == 0 && opnd1 % 64 == 0) ||
      (decide (opnd1 < addr + len) && decide (addr < opnd1 + len))
  else true

/-- Bytes that an operation touches at ADDR. -/
def opLen (op len : Nat) : Nat := if op = 3 ∨ op = 4 then 8 else len

/-- A request reaches its target after its deadline boundary: three beats in the rack, nine elsewhere in the half
(R216). -/
def lateApply (s : State) (src op issue : Nat) : Bool :=
  let d := (s.beat + 2 ^ 32 - issue % 2 ^ 32) % 2 ^ 32
  let lim := if src / 256 = s.myId / 256 then 3 else 9
  decide (2 ≤ op) && decide (op ≤ 4) && decide (lim ≤ d) && decide (d < 2 ^ 31)

/-- Count a DENIED answer. -/
def denied (s : State) : State × Ans := (s.count Reg.fabDenyCnt_denied 1, { status := 4 })

/-- An operation on CSR space (R195, R302, R310), come to field `fr` and crossing to the control core's station: the obeyed
manager loads and stores in the MBX7 window, a reserved offset is UNMAPPED and a bus error, everything else is denied. -/
def applyCsr (s : State) (fr src op a len : Nat) (data : List Byte) : State × Ans :=
  let off := csrOff a
  if !isMbx7 off || !isMbx7 (off + (opLen op len - 1)) || s.manager != some src || decide (2 < op) then denied s
  else match (List.range (len / 4)).find? (fun i => csrReserved (off + 4 * i)) with
  | some i => (busError s (a + 4 * i) (op == 2) 1, { status := 2 })
  | none =>
    match crossMesh s fr coreField with
    | none => (s, { status := 1 })
    | some t =>
      if op = 1 then
        let r := csrRead t off (len / 4)
        (r.1, { status := 0, len := len, data := r.2 })
      else (csrWriteAll t off data (some src) (len / 4), { status := 0 })

/-- LOAD, STORE, FAA64 and CAS64 at this die, reaching it at field `fr` (R25, R212, R215, R216, R219). -/
def applyWord (s : State) (fr src op a len opnd1 opnd2 issue : Nat) (data : List Byte) : State × Ans :=
  let n := opLen op len
  if s.fld Reg.fabCfg_en = 0 then denied s
  else if badReq op a len opnd1 || decide (4 < op) then (s, { status := 3 })
  else if region a = 3 then (s, { status := 2 })
  else if lateApply s src op issue then (s.count Reg.fabReqCnt_lateApply 1, { status := 7 })
  else if region a = 2 then applyCsr s fr src op a len data
  else if op ≠ 1 ∧ s.protHit (List.range 16) a n = true then denied s
  else if !s.rangePresent a n then (s, { status := 1 })
  else match meshTo s fr a with
  | none => (s, { status := 1 })
  | some t =>
    if op = 1 then
      if t.ueIn a n then (readUe t a n 4, { status := 5 }) else (t, { status := 0, len := n, data := t.read a n })
    else if op = 2 then
      if t.uePartial a n then (readUe t a n 4, { status := 5 }) else (t.write a (slice data 0 n), { status := 0 })
    else if t.ueIn a 8 then (readUe t a 8 4, { status := 5 })
    else
      let old := leNat (t.read a 8)
      let new := if op = 3 then (old + opnd1) % 2 ^ 64 else if old = opnd1 then opnd2 else old
      (t.write a (leBytes 8 new), { status := 0, old := old })

/-! ### Requests of this die (R211, R218) -/

/-- Wait for a place; the request is issued no earlier than its `issue` beat. -/
def enqueue (s : State) (r : OutReq) : State := { s with fab := { s.fab with waiting := s.fab.waiting ++ [r] } }

/-- REQ_TIMEOUT, at least 16. -/
def State.reqTimeout (s : State) : Nat := max 16 (s.fld Reg.fabCfg_reqTimeout)

/-- The header of a request. -/
def reqHdr (s : State) (r : OutReq) : ReqHdr :=
  { src := s.myId, dst := fabDie r.addr, ttl := 4, op := r.op, tag := r.tag, dgen := s.ev.hdr.dieGen
    issueBeat := s.beat % 2 ^ 32, len := r.len, addr := r.addr, opnd1 := r.opnd1, opnd2 := r.opnd2, stopBeat := r.stop }

/-- Answer of a request that is refused before it is sent: the fabric is off, the die ID is invalid, or the target
lies in the other half (R220). -/
def refuseIssue (s : State) (r : OutReq) : Option (State × Ans) :=
  if s.fld Reg.fabCfg_en = 0 then some (s, { status := 4 })
  else if !dieValid (fabDie r.addr) then some (s, { status := 2 })
  else if r.op ≠ 6 ∧ dieHalf (fabDie r.addr) ≠ dieHalf s.myId then
    some (s.count Reg.fabDenyCnt_crossHalf 1, { status := 6 })
  else none

/-- A tag that no outstanding request holds, from `t` on. -/
def freeTag (l : List OutReq) (t : Nat) : Nat → Nat
  | 0 => t
  | n + 1 => if l.any (fun r => r.tag == t % 65536) then freeTag l (t + 1) n else t % 65536

/-- Keep a request outstanding under a fresh tag. -/
def keepReq (s : State) (r : OutReq) : State × OutReq :=
  let t := freeTag s.fab.reqs s.fab.nextTag 1024
  let stop := if r.op = 5 then (s.beat + s.reqTimeout - 10) % 2 ^ 32 else 0
  let r1 := { r with tag := t, issue := s.beat, stop := stop }
  ({ s with fab := { s.fab with reqs := s.fab.reqs ++ [r1], nextTag := (t + 1) % 65536 } }, r1)

/-! ### COPY and KVX at the die that holds the source (R214, R221) -/

/-- Parts of a copy as offset and length, cut at 4 KiB boundaries of the destination (log entry 20). -/
def copyParts (dst len : Nat) : Nat → Nat → List (Nat × Nat)
  | _, 0 => []
  | o, n + 1 =>
    if len ≤ o then []
    else
      let l := min (len - o) (4096 - (dst + o) % 4096)
      (o, l) :: copyParts dst len (o + l) n

/-- Why a copy cannot run here: an answer at once, none where it runs. -/
def copyRefused (s : State) (h : ReqHdr) : Option (State × Ans) :=
  let a := fabLocal h.addr
  let d := fabLocal h.opnd1
  let mine := fabDie h.opnd1 == s.myId
  if s.fld Reg.fabCfg_en = 0 then some (denied s)
  else if badReq h.op h.addr h.len h.opnd1 then some (s, { status := 3 })
  else if region a = 3 ∨ region (a + (h.len - 1)) = 3 ∨ (!dieValid (fabDie h.opnd1)) = true then some (s, { status := 2 })
  else if region a = 2 ∨ (h.op = 6 ∧ dieHalf (fabDie h.opnd1) = dieHalf s.myId) then some (denied s)
  else if mine && (region d == 2 || s.protHit (List.range 16) d h.len) then some (denied s)
  else if mine && (region d == 3 || region (d + (h.len - 1)) == 3) then some (s, { status := 2 })
  else if !s.rangePresent a h.len then some (s, { status := 1 })
  else none

/-- Note the outcome of a part of a copy (R214). -/
def partDone (s : State) (src tag off : Nat) (ok : Bool) : State :=
  { s with fab := { s.fab with copies := s.fab.copies.map (fun c =>
      if c.hdr.src == src && c.hdr.tag == tag then
        { c with left := c.left - 1, fail := if ok then c.fail else some (match c.fail with
            | some x => min x off
            | none => off) }
      else c) } }

/-- The beat is later than STOP_BEAT (R214); `stop` is its low 32 bits. -/
def State.pastStop (s : State) (stop : Nat) : Bool :=
  let d := (s.beat + 2 ^ 32 - stop % 2 ^ 32) % 2 ^ 32
  decide (1 ≤ d) && decide (d < 2 ^ 31)

/-- One part, moved by the control core (R387, log entry 82): read here, then written here or sent to its die. A part whose
source is uncorrectable or out of reach, whose destination here is absent or out of reach, or that comes after STOP_BEAT is
not applied. -/
def runPart (h : ReqHdr) (s : State) (p : Nat × Nat) : State :=
  let a := fabLocal h.addr + p.1
  let dst := h.opnd1 + p.1
  if h.op = 5 ∧ s.pastStop h.stopBeat = true then partDone s h.src h.tag p.1 false
  else match meshTo s coreField a with
  | none => partDone s h.src h.tag p.1 false
  | some s =>
    if s.ueIn a p.2 then partDone (readUe s a p.2 4) h.src h.tag p.1 false
    else if fabDie dst = s.myId ∧ h.op = 5 then
      match meshTo s coreField (fabLocal dst) with
      | none => partDone s h.src h.tag p.1 false
      | some t =>
        let ok := t.rangePresent (fabLocal dst) p.2 && !t.uePartial (fabLocal dst) p.2
        partDone (if ok then t.write (fabLocal dst) (t.read a p.2) else t) h.src h.tag p.1 ok
    else enqueue s { op := if h.op = 5 then 2 else 6, addr := dst, len := p.2, data := s.read a p.2, issue := s.beat
                     stop := h.stopBeat, why := .part h.src h.tag p.1 }

/-- Take a COPY or KVX: every part is read and put on its way (R214, R221). -/
def startCopy (s : State) (link : Nat) (h : ReqHdr) : State :=
  let ps := copyParts h.opnd1 h.len 0 (h.len / 64 + 1)
  let s1 := { s with fab := { s.fab with copies := s.fab.copies ++ [{ link := link, hdr := h, left := ps.length }] } }
  ps.foldl (runPart h) s1

/-- The answer of a copy whose parts are all done. -/
def CopyRun.ans (c : CopyRun) : Ans :=
  match c.fail with
  | none => { status := 0, len := c.hdr.len }
  | some o => { status := 9, len := o }

/-! ### Answers and transit -/

/-- Send a frame from field `fr` to link `l` over the mesh and queue it there; none where the link's router is out of reach
(R25). A link's own station needs no mesh. -/
def sendFrom (s : State) (fr l : Nat) (m : Msg) : Option State :=
  if fr = linkField l then some (sendUns s l m) else (crossMesh s fr (linkField l)).map (fun t => sendUns t l m)

/-- Send a response from field `fr` to its requester by Table 10.9; without a path it is lost (R209). -/
def respond10 (s : State) (fr : Nat) (h : ReqHdr) (a : Ans) : State :=
  let applied := a.status == 0 || a.status == 9
  let r : RespHdr := { src := s.myId, dst := h.src, op := h.op, status := a.status, tag := h.tag, dgen := h.dgen
                       applyBeat := if applied then s.beat % 2 ^ 32 else 0, len := a.len, old := a.old }
  match pathTo s h.src h.tag 0 with
  | some l => (sendFrom s fr l (.resp l r a.data)).getD s
  | none => s

/-- A frame in transit that has no way on (R25, R205): a request is answered NOT_PRESENT, anything else is lost (DEDUCED, log
entry 83). -/
def transitStuck (s : State) (fr : Nat) (t : TransitHdr) : State :=
  if t.typ = 3 then
    respond10 s fr
      { src := t.src, dst := t.dst, ttl := 0, op := fieldAt t.body 0 1, tag := t.tag, dgen := fieldAt t.body 4 2, issueBeat := 0, len := 0
        addr := t.addr, opnd1 := 0, opnd2 := 0, stopBeat := 0 } { status := 1 }
  else s

/-- A frame for another die (R197, R200, R208): forwarded over the mesh from the ring and P6 while its TTL lasts, discarded
from every other port; SCHED frames are never forwarded, and a link-local frame ends here. -/
def transit (s : State) (link : Nat) (t : TransitHdr) : State :=
  if t.dst = linkLocal then s
  else if t.typ = 1 ∨ link < 6 ∨ link = 7 then s.count Reg.fabRouteCnt_misroute 1
  else if t.ttl = 0 then s.count Reg.fabRouteCnt_ttlExpire 1
  else match (pathTo s t.dst t.tag t.addr).bind (fun l => sendFrom s (linkField link) l (.transit l { t with ttl := t.ttl - 1 })) with
  | some u => u.count Reg.transitCnt_transit 1
  | none => transitStuck s (linkField link) t

/-- A request frame that arrives on a link: frames discarded for their form, frames that may not cross the halves, and frames
for other dies are dealt with here (R196, R208, R209, R220); the rest is this die's to answer. -/
def reqFrame (s : State) (link : Nat) (r : ReqHdr) (data : List Byte) (body : State → State) : State :=
  if !(decide (link < 12) && s.linkUp link) then s
  else match rxDiscard s link r.rx (64 + data.length) false with
  | some t => t
  | none =>
    if crossBad s 3 r.src r.op then s.count Reg.fabDenyCnt_crossHalf 1
    else if r.dst ≠ s.myId then
      transit s link { typ := 3, dst := r.dst, src := r.src, ttl := r.ttl, tag := r.tag, addr := r.addr, body := reqBytes r ++ data }
    else body s

/-- A reserved operation: DENIED while the block is off, BAD_REQ otherwise (R201). -/
def badOp (s : State) (link : Nat) (r : ReqHdr) : State :=
  let x : State × Ans := if s.fld Reg.fabCfg_en = 0 then denied s else (s, { status := 3 })
  respond10 x.1 (linkField link) r x.2

/-- The field from which the answer of a word operation leaves: that of its memory or of the control core. -/
def State.answerField (s : State) (fr a : Nat) : Nat := if region a = 2 then coreField else (s.exitField fr a).getD fr

/-- A request of operation `op` that this die answers at once; a reserved operation is BAD_REQ (R201). -/
def reqWord (s : State) (link op : Nat) (r : ReqHdr) (data : List Byte) : State :=
  reqFrame s link r data (fun t =>
    let fr := linkField link
    if r.op = 0 ∨ 6 < r.op then badOp t link r
    else if r.op ≠ op then t
    else if t.fld Reg.fabCfg_en = 1 ∧ fabDie r.addr ≠ t.myId then respond10 t fr r { status := 2 }
    else
      let x := applyWord t fr r.src op (fabLocal r.addr) r.len r.opnd1 r.opnd2 r.issueBeat data
      respond10 x.1 (if x.2.status = 0 ∨ x.2.status = 5 then t.answerField fr (fabLocal r.addr) else fr) r x.2)

/-- A COPY or KVX request. -/
def reqCopyKvx (s : State) (link op : Nat) (r : ReqHdr) : State :=
  reqFrame s link r [] (fun t =>
    if r.op = 0 ∨ 6 < r.op then badOp t link r
    else if r.op ≠ op then t
    else match copyRefused t r with
    | some x => respond10 x.1 (linkField link) r x.2
    | none => startCopy t link r)

/-! ### Protected ranges (R215) -/

/-- Place protected range `n`, or invalidate it. -/
def setProt (s : State) (n : Nat) (r : Option (Nat × Nat)) : State :=
  match r with
  | some (b, l) =>
    ((s.setWord (Reg.protBase_base n).reg (BitVec.ofNat 32 (b / 64))).setWord (Reg.protLimit_limit n).reg (BitVec.ofNat 32 (l / 64))).setFld
      Reg.protValid_valid (setBit (s.fld Reg.protValid_valid) n)
  | none =>
    ((s.setWord (Reg.protBase_base n).reg 0).setWord (Reg.protLimit_limit n).reg 0).setFld
      Reg.protValid_valid (clrBit (s.fld Reg.protValid_valid) n)

end Sys2Proof.Machine
end

