-- ==== Sys2Proof/Machine/MapOps.lean ====
section
/-! DEFINITION. Signed objects (R408) and topology maps: reading, the checks of Table 19.11, preference (R19),
and the verified map that waits to be obeyed (R409 to R413). -/

namespace Sys2Proof.Machine

/-! ### Signatures -/

/-- SHA-256 of a byte string as bytes. -/
def sha (bs : List Byte) : List Byte := leBytes 32 (Config.sha256 bs).toNat

/-- A signature verifies over the digest of the signed bytes (R408). -/
def sigOk (key signed sig : List Byte) : Bool := Config.verify192 key (sha signed) sig

/-- An operator key hashes to a non-empty fuse slot. -/
def operatorKey (s : State) (slot : Nat) (key : List Byte) : Bool :=
  let h := getAt 0 s.sec.fuses.opHash slot
  h != 0 && (Config.sha256 key).toNat == h

/-- A failed signature or key hash (R408). -/
def sigFail (s : State) : State := s.count Reg.secCnt_sigFail 1

/-- All bytes are zero. -/
def allZero (bs : List Byte) : Bool := bs.all (fun b => b == 0)

/-- Outcome of a check: passed, failed, or failed with SIG_FAIL. -/
inductive Check where
  | ok | bad | badSig
  deriving DecidableEq, Repr

/-- Length of an endorsement and of a signature. -/
def endorseLen : Nat := 16352
def sigLen : Nat := 16224

/-- Fields of an endorsement (Table 19.10). -/
def enSlot (e : List Byte) : Nat := fieldAt e 6 1
def enMgr (e : List Byte) : Nat := fieldAt e 12 4
def enKey (e : List Byte) : List Byte := slice e 16 48
def enMapPub (e : List Byte) : List Byte := slice e 64 48

/-- The endorsement verifies (Tables 19.6, 19.10). -/
def endorseCheck (s : State) (e : List Byte) : Check :=
  if fieldAt e 0 4 ≠ 0x5654454E ∨ fieldAt e 4 2 ≠ 1 ∨ 3 < enSlot e ∨ (!allZero (slice e 7 5)) = true ∨ (!allZero (slice e 112 16)) = true then .bad
  else if operatorKey s (enSlot e) (enKey e) && sigOk (enKey e) (slice e 0 128) (slice e 128 sigLen) then .ok
  else .badSig

/-! ### Maps (R409) -/

/-- Fields of a map's header and entries (Tables 19.8, 19.9). -/
def mpDies (b : List Byte) : Nat := fieldAt b 6 2
def mpEntry (b : List Byte) (k : Nat) : List Byte := slice b (64 + 64 * k) 64

/-- ENDORSE_OFF and SIG_OFF for a number of entries. -/
def endorseOff (dies : Nat) : Nat := 64 + 64 * dies
def mapSigOff (dies : Nat) : Nat := endorseOff dies + endorseLen

/-- One die entry. -/
def mapDie (e : List Byte) : MapDie :=
  { dieId := fieldAt e 0 4, time := fieldAt e 4 4, parent := fieldAt e 8 4, alt := fieldAt e 60 4
    links := (List.range 12).map (fun n => fieldAt e (12 + 4 * n) 4) }

/-- The map that a byte string spells, lying at `addr`. -/
def mapOf (b : List Byte) (addr : Nat) : TopoMap :=
  let n := mpDies b
  { epoch := fieldAt b 8 4, rack := fieldAt b 12 4, primary := fieldAt b 16 4, standby := fieldAt b 20 4
    root := fieldAt b 24 4, signer := fieldAt b 28 4, dies := (List.range n).map (fun k => mapDie (mpEntry b k))
    endorse := slice b (endorseOff n) endorseLen, digest := sha (b.take (mapSigOff n)), addr := addr, len := mapSigOff n + sigLen }

/-- Bytes of a die entry. -/
def MapDie.bytes (e : MapDie) : List Byte :=
  leBytes 4 e.dieId ++ leBytes 4 e.time ++ leBytes 4 e.parent ++ slice (e.links.flatMap (fun l => leBytes 4 l)) 0 48 ++ leBytes 4 e.alt

/-- Bytes 0 to SIG_OFF − 1 of a map. -/
def TopoMap.body (t : TopoMap) : List Byte :=
  leBytes 4 0x56544D50 ++ leBytes 2 1 ++ leBytes 2 t.dies.length ++ leBytes 4 t.epoch ++ leBytes 4 t.rack
    ++ leBytes 4 t.primary ++ leBytes 4 t.standby ++ leBytes 4 t.root ++ leBytes 4 t.signer
    ++ leBytes 4 (endorseOff t.dies.length) ++ leBytes 4 (mapSigOff t.dies.length) ++ List.replicate 24 0
    ++ t.dies.flatMap MapDie.bytes ++ slice t.endorse 0 endorseLen

/-- Die IDs rise strictly. -/
def rising : List Nat → Bool
  | [] => true
  | [_] => true
  | a :: b :: l => decide (a < b) && rising (b :: l)

/-- A die entry keeps its reserved fields 0. -/
def mapDieOk (e : MapDie) : Bool :=
  decide (e.dieId < 2 ^ 18) && decide (e.time < 4) && decide (e.parent < 2 ^ 18) && bits e.alt 18 13 == 0 &&
    e.links.all (fun l => bits l 23 6 == 0 && decide (entryType l < 4))

/-- Check 1 of Table 19.11, of a map of `len` bytes whose body ends at SIG_OFF. -/
def mapFormat (b : List Byte) (t : TopoMap) : Bool :=
  fieldAt b 0 4 == 0x56544D50 && fieldAt b 4 2 == 1 && decide (1 ≤ mpDies b) && decide (mpDies b ≤ 256) && t.epoch != 0 &&
    bits t.rack 0 8 == 0 && decide (t.rack < 2 ^ 18) && decide (t.primary < 2 ^ 18) && decide (t.standby < 2 ^ 18) &&
    decide (t.root < 2 ^ 18) && decide (t.signer < 2 ^ 18) && fieldAt b 32 4 == endorseOff (mpDies b) &&
    fieldAt b 36 4 == mapSigOff (mpDies b) && allZero (slice b 40 24) && rising (t.dies.map (fun e => e.dieId)) &&
    t.dies.all mapDieOk

/-- The ring and tray links that R11 and R13 give a die: link, expected die, expected far link. -/
def wiredLinks (d : Nat) : List (Nat × Nat × Nat) :=
  let q := dieQpos d
  let a := d - q + (q + 1) % 4
  let b := d - q + (q + 3) % 4
  let peer := (d / 16 * 16) + ((diePkg d ^^^ (if q % 2 = 0 then 1 else 2)) * 4 + q)
  [(6, peer, 6), (8, a, 10), (9, a, 11), (10, b, 8), (11, b, 9)]

/-- Check 6: the wired links of every die are those, or UNUSED. -/
def mapWired (t : TopoMap) : Bool :=
  t.dies.all (fun e => (wiredLinks e.dieId).all (fun w =>
    let l := getAt 0 e.links w.1
    entryType l == 0 || l == 2 ^ 29 + w.2.2 * 2 ^ 18 + w.2.1))

/-- Check 7: a SWITCH entry of link k names plane k. -/
def mapPlanes (t : TopoMap) : Bool :=
  t.dies.all (fun e => (List.range 12).all (fun k =>
    let l := getAt 0 e.links k
    entryType l != 2 || (decide (k < 6) && bits l 18 5 == 16 + k)))

/-- R19 prefers `t` to the map obeyed. -/
def State.prefers (s : State) (epoch signer : Nat) : Bool :=
  match s.sec.map with
  | none => true
  | some m => decide (m.epoch < epoch) || (m.epoch == epoch && decide (signer < m.signer))

/-- Checks 4 to 7 of Table 19.11. -/
def mapPlaced (s : State) (t : TopoMap) : Bool :=
  (t.signer == t.primary || t.signer == t.standby) && (t.entryOf t.primary).isSome && (t.entryOf t.standby).isSome &&
    bits t.rack 8 10 == bits s.myId 8 10 && (t.entryOf s.myId).isSome && mapWired t && mapPlanes t

/-- The checks of Table 19.11 on a signed map, in order: status (0, SIG_INVALID or EPOCH_STALE) and whether
SIG_FAIL counts. -/
def mapStatus (s : State) (b : List Byte) (t : TopoMap) : Nat × Bool :=
  if b.length ≠ t.len ∨ (!mapFormat b t) = true then (0x46, false)
  else match endorseCheck s t.endorse with
  | .bad => (0x46, false)
  | .badSig => (0x46, true)
  | .ok =>
    if enMgr t.endorse ≠ t.signer then (0x46, false)
    else if !sigOk (enMapPub t.endorse) (b.take (mapSigOff (mpDies b))) (b.drop (mapSigOff (mpDies b))) then (0x46, true)
    else if !mapPlaced s t then (0x46, false)
    else if !s.prefers t.epoch t.signer then (0x47, false)
    else (0, false)

/-- A verified map waits for the next beat boundary; of two that wait, the preferred one stays and the other's
job ends EPOCH_STALE. -/
def awaitMap (s : State) (t : TopoMap) (job : Option (Nat × Nat)) : State :=
  match s.sec.mapPend with
  | none => { s with sec := { s.sec with mapPend := some (t, job) } }
  | some (p, j) =>
    if p.epoch < t.epoch ∨ (p.epoch = t.epoch ∧ t.signer < p.signer) then
      finish { s with sec := { s.sec with mapPend := some (t, job) } } j 0x47 []
    else finish s job 0x47 []

/-- Check a signed map and let it wait; a failure ends the job, if there is one. -/
def takeMap (s : State) (b : List Byte) (addr : Nat) (job : Option (Nat × Nat)) : State :=
  let t := mapOf b addr
  let r := mapStatus s b t
  if r.1 = 0 then awaitMap s t job
  else finish (if r.2 then sigFail s else s) job r.1 []

/-! ### Reading a noticed map (R413) -/

/-- The next LOAD of the map being read. -/
def mapLoad (s : State) : State :=
  match s.sec.mapRead with
  | none => s
  | some (_, _, len, addr, _) =>
    let o := s.sec.mapBytes.length
    enqueue s { op := 1, addr := addr + o, len := min (len - o) (4096 - (addr + o) % 4096), issue := s.beat, why := .mapRead o }

/-- Forget the map being read. -/
def mapReadStop (s : State) : State := { s with sec := { s.sec with mapRead := none, mapBytes := [] } }

/-- A LOAD of a noticed map is answered: the next part is read, or the map is checked against the notice's
digest and R410. -/
def mapReadDone (s : State) (off status : Nat) (data : List Byte) : State :=
  match s.sec.mapRead with
  | none => s
  | some (_, _, len, addr, digest) =>
    if off ≠ s.sec.mapBytes.length then s
    else if status ≠ 0 then mapReadStop s
    else
      let b := s.sec.mapBytes ++ data
      if b.length < len then mapLoad { s with sec := { s.sec with mapBytes := b } }
      else
        let s1 := mapReadStop s
        if (mapOf b addr).digest = slice digest 0 32 then takeMap s1 b addr none else s1

end Sys2Proof.Machine
end

