-- ==== Sys2Proof/Machine/KvOps.lean ====
section
/-! DEFINITION. KV frames, page lists and the directory as the attention die's own control core keeps them
(R257 to R261, R281 to R283, R286), and moving pages between frames and dies. -/

namespace Sys2Proof.Machine

/-! ### Frames (log entry 18) -/

/-- The lowest frame from `f` on that is not in `used`. -/
def lowestFree (used : List Nat) (f : Nat) : Nat → Nat
  | 0 => f
  | n + 1 => if used.contains f then lowestFree used (f + 1) n else f

/-- A free frame of a side's pool; `keep` more must stay free. -/
def freeFrame (s : State) (side keep : Nat) : Option Nat :=
  let d := s.side side
  let f := lowestFree d.used d.poolLo (d.used.length + 1)
  if d.used.length + keep < d.poolHi - d.poolLo ∧ f < d.poolHi then some f else none

/-- Note a frame as allocated. -/
def useFrame (s : State) (side f : Nat) : State := s.updSide side (fun d => { d with used := d.used ++ [f] })

/-- Return a frame to its pool. -/
def returnFrame (s : State) (side f : Nat) : State :=
  s.updSide side (fun d => { d with used := d.used.filter (fun x => x != f), marked := d.marked.filter (fun x => x != f) })

/-- The lowest start, from `f` on, of `n` frames that are all free. -/
def lowestRun (used : List Nat) (n f : Nat) : Nat → Nat
  | 0 => f
  | k + 1 => if used.any (fun x => decide (f ≤ x) && decide (x < f + n)) then lowestRun used n (f + 1) k else f

/-- `n` contiguous free frames of a side's pool, `keep` more staying free. -/
def freeRun (s : State) (side n keep : Nat) : Option Nat :=
  let d := s.side side
  let f := lowestRun d.used n d.poolLo (d.poolHi - d.poolLo)
  if d.used.length + n + keep ≤ d.poolHi - d.poolLo ∧ f + n ≤ d.poolHi then some f else none

/-- Frames that the placement loop keeps free (R266). -/
def poolReserve : Nat := 64

/-- Note `n` frames from `f` as allocated. -/
def useRun (s : State) (side f n : Nat) : State := (List.range n).foldl (fun t i => useFrame t side (f + i)) s

/-- Return `n` frames. -/
def returnRun (s : State) (side f n : Nat) : State := (List.range n).foldl (fun t i => returnFrame t side (f + i)) s

/-- The next page nonce: the die ID and a counter (R259). -/
def pageNonce (s : State) : Nat := s.myId % 2 ^ 18 * 2 ^ 46 + s.att.nonce % 2 ^ 46

/-- Count a page allocated. -/
def nextNonce (s : State) : State := { s with att := { s.att with nonce := (s.att.nonce + 1) % 2 ^ 46 } }

/-! ### Page lists and the directory -/

/-- Local address of the 32 page-list addresses of directory index `i` (log entry 18). -/
def listArray (i : Nat) : Nat := 0x900000000 + 256 * i

/-- Attention units of KIND 0 of the installed image. -/
def State.kvUnits (s : State) : List Nat := (List.range s.attUnits).filter (fun u => auKind (s.attUnit u) == 0)

/-- Context limit of a unit in tokens. -/
def auLimit (u : List Byte) : Nat := auPph u * auTpp u

/-- Descriptors of a page list. -/
def auDescs (u : List Byte) : Nat := auHkv u * auPph u

/-- Frames that a page list takes. -/
def listFrames (u : List Byte) : Nat := (64 + 16 * auDescs u + 65535) / 65536

/-- Lowest key slot that holds a tenant and, where given, a KEY_ID. -/
def State.slotOf (s : State) (tenant : Nat) (keyId : Option Nat) : Option (Nat × KeySlot) :=
  s.sec.keySlots.findSome? (fun e => match e.2 with
    | some k => if k.tenant = tenant ∧ (keyId.isNone = true ∨ keyId = some k.keyId) then some (e.1, k) else none
    | none => none)

/-- Address of a directory entry on this die. -/
def State.dirAddr (s : State) (i : Nat) : Nat := s.dirBase + 32 * i

/-- Set the STATUS word of a directory entry. -/
def setDirStatus (s : State) (i v : Nat) : State := s.write (s.dirAddr i + 24) (leBytes 4 v)

/-- Write page descriptor `d` (its address): FRAME, VALID, KEY_SLOT, NONCE (Table 12.7). -/
def writeDesc (s : State) (d frame : Nat) (valid : Bool) (slot nonce : Nat) : State :=
  s.write d (leBytes 4 (frame % 2 ^ 22 + 2 ^ 31 * b2n valid) ++ leBytes 2 slot ++ leBytes 2 0 ++ leBytes 8 nonce)

/-- Descriptor addresses of a page list. -/
def descAddrs (l n : Nat) : List Nat := (List.range n).map (fun i => l + 64 + 16 * i)

/-- The page list of directory index `i` for unit `u`; none where there is none. -/
def State.listOf (s : State) (i u : Nat) : Option Nat :=
  let l := s.hbm (deLists (s.dirEntry i) + 8 * u) 8
  if l = 0 then none else some l

/-- The page lists of a bound entry with their units. -/
def State.listsOf (s : State) (i : Nat) : List (Nat × Nat) :=
  s.kvUnits.filterMap (fun u => (s.listOf i u).map (fun l => (u, l)))

/-- Write one unit's page list: header and descriptors without pages; none where the pool has no room. -/
def makeList (s : State) (i u tenant keyId : Nat) : State :=
  let d := s.attUnit u
  match freeRun s (auSide d) (listFrames d) poolReserve with
  | none => s
  | some f =>
    let l := f * 65536
    ((useRun s (auSide d) f (listFrames d)).write l
      (leBytes 4 tenant ++ leBytes 4 keyId ++ leBytes 4 s.modelGen ++ List.replicate (52 + 16 * auDescs d) 0)).write
      (listArray i + 8 * u) (leBytes 8 l)

/-- A bind has landed (R282): the tenant's key slot is looked up and the lists are written, or KEYLESS is set. -/
def bindEntry (s : State) (i : Nat) : State :=
  let e := s.dirEntry i
  match s.slotOf (deTenant e) none with
  | none => setDirStatus s i 4
  | some k =>
    let s1 := (s.write (listArray i) (List.replicate 256 0)).write (s.dirAddr i + 16) (leBytes 8 (listArray i))
    setDirStatus (s1.kvUnits.foldl (fun t u => makeList t i u (deTenant e) k.2.keyId) s1) i 3

/-- Give a descriptor a page if it has none (R283): a frame, the next nonce and the tenant's key slot. Parked
pages keep their descriptors. -/
def givePage (side slot : Nat) (s : State) (d : Nat) : State :=
  if hasBit (s.hbm d 4) 31 || s.att.parked.any (fun p => p.2.1 == d) then s
  else match freeFrame s side poolReserve with
  | none => s
  | some f => nextNonce (writeDesc (useFrame s side f) d f true slot (pageNonce s))

/-- Keep valid pages up to token COMMIT_LEN + 511 in every list of a bound entry (R283). -/
def allocatePages (s : State) (i : Nat) : State :=
  let len := deLen (s.dirEntry i)
  (s.listsOf i).foldl (fun t p =>
    let u := t.attUnit p.1
    match t.slotOf (t.hbm p.2 4 % 2 ^ 20) (some (t.hbm (p.2 + 4) 4)) with
    | none => t
    | some k =>
      let pages := (min (len + 511) (auLimit u - 1)) / auTpp u + 1
      (List.range (auHkv u)).foldl (fun a h =>
        (List.range pages).foldl (fun b j => givePage (auSide u) k.1 b (p.2 + 64 + 16 * (h * auPph u + j))) a) t) s

/-- Free a page: its frame returns, unless it is parked, and the descriptor is cleared. -/
def dropPage (side : Nat) (s : State) (d : Nat) : State :=
  let s1 := if hasBit (s.hbm d 4) 31 then returnFrame s side (bits (s.hbm d 4) 0 22) else s
  let s2 := { s1 with att := { s1.att with parked := s1.att.parked.filter (fun p => p.2.1 != d) } }
  writeDesc s2 d 0 false 0 0

/-- A release has landed: frames and lists are freed and BOUND is cleared (R282). -/
def releaseEntry (s : State) (i : Nat) : State :=
  let s1 := (s.listsOf i).foldl (fun t p =>
    let u := t.attUnit p.1
    let t1 := (descAddrs p.2 (auDescs u)).foldl (dropPage (auSide u)) t
    returnRun t1 (auSide u) (p.2 / 65536) (listFrames u)) s
  let s2 := { s1 with att := { s1.att with parking := s1.att.parking.filter (fun p => p.1 != i) } }
  setDirStatus (s2.write (s2.dirAddr i + 16) (leBytes 8 0)) i 0

/-! ### Parking (R286) -/

/-- Ring neighbour A (R11). -/
def State.ringA (s : State) : Nat := s.myId / 4 * 4 + (s.myId + 1) % 4

/-- A free frame of the park area on the neighbour. -/
def parkSlot (s : State) : Option Nat :=
  (List.range s.seqs.parkCap).find? (fun n => !s.att.parked.any (fun p => p.2.2 == n))

/-- Fabric address of a frame of the park area. -/
def State.parkAddr (s : State) (n : Nat) : Nat := fabAddr s.ringA (s.seqs.parkTo + 65536 * n)

/-- A COPY of one frame for the parking of directory index `i`. -/
def frameCopy (s : State) (src dst : Nat) (why : ReqWhy) : State :=
  enqueue s { op := 5, addr := src, len := 65536, opnd1 := dst, issue := s.beat, why := why }

/-- Valid pages of an entry as descriptor addresses, with their side. -/
def State.validPages (s : State) (i : Nat) : List (Nat × Nat) :=
  (s.listsOf i).flatMap (fun p =>
    ((descAddrs p.2 (auDescs (s.attUnit p.1))).filter (fun d => hasBit (s.hbm d 4) 31)).map (fun d => (d, auSide (s.attUnit p.1))))

/-- Whether copies of an index's parking or return are under way. -/
def State.parkingOf (s : State) (i : Nat) : Bool := s.att.parking.any (fun p => p.1 == i)

/-- Whether requests for an index's parking are outstanding or waiting. -/
def State.parkReqs (s : State) (i : Nat) : Bool :=
  (s.fab.reqs ++ s.fab.waiting).any (fun r => match r.why with
    | .park j _ _ => j == i
    | .unpark j _ _ => j == i
    | _ => false)

/-- Copies of an index are all answered: HOME is cleared after parking, and set after a return that left
nothing in the park area. -/
def parkSettled (s : State) (i : Nat) : State :=
  if s.parkReqs i then s
  else match s.att.parking.find? (fun p => p.1 == i) with
  | none => s
  | some p =>
    let s1 := { s with att := { s.att with parking := s.att.parking.filter (fun q => q.1 != i) } }
    if p.2 then setDirStatus s1 i 1
    else if s1.att.parked.any (fun q => q.1 == i) then s1
    else setDirStatus s1 i 3

/-- PARK = 1 has landed: every valid frame is copied to the park area while it has room. -/
def startPark (s : State) (i : Nat) : State :=
  let s0 := { s with att := { s.att with parking := s.att.parking ++ [(i, true)] } }
  parkSettled ((s0.validPages i).foldl (fun t d =>
    match parkSlot t with
    | none => t
    | some n =>
      let t1 := { t with att := { t.att with parked := t.att.parked ++ [(i, d.1, n)] } }
      frameCopy t1 (fabAddr t.myId (bits (t.hbm d.1 4) 0 22 * 65536)) (t.parkAddr n) (.park i d.1 n)) s0) i

/-- A parked frame's place in the park area becomes free. -/
def unparkMark (s : State) (d : Nat) : State :=
  { s with att := { s.att with parked := s.att.parked.filter (fun p => p.2.1 != d) } }

/-- Side of a local HBM frame number. -/
def frameSide (f : Nat) : Nat := hbmSide (f * 65536)

/-- A parking COPY is answered: after OK the descriptor is invalid and the frame free; otherwise the frame stays
local and valid. -/
def parkDone (s : State) (i d : Nat) (ok : Bool) : State :=
  let w := s.hbm d 4
  let f := bits w 0 22
  let s1 := if ok && hasBit w 31 then returnFrame (s.write d (leBytes 4 f)) (frameSide f) f else unparkMark s d
  parkSettled s1 i

/-- PARK = 0 has landed: the parked frames are copied back into frames of the pool. -/
def startUnpark (s : State) (i : Nat) : State :=
  let s0 := { s with att := { s.att with parking := s.att.parking ++ [(i, false)] } }
  parkSettled ((s0.att.parked.filter (fun p => p.1 == i)).foldl (fun t p =>
    let side := hbmSide p.2.1
    match freeFrame t side poolReserve with
    | none => t
    | some f => frameCopy (useFrame t side f) (t.parkAddr p.2.2) (fabAddr t.myId (f * 65536)) (.unpark i p.2.1 f)) s0) i

/-- A returning COPY is answered: after OK the descriptor names the new frame with its nonce and a key slot of the
list's tenant and KEY_ID; without one it stays invalid (R286). -/
def unparkDone (s : State) (i d f : Nat) (ok : Bool) : State :=
  let list := (s.listsOf i).find? (fun p => (descAddrs p.2 (auDescs (s.attUnit p.1))).contains d)
  let s1 := if !ok || list.isNone then returnFrame s (frameSide f) f
    else
      let l := (list.getD (0, 0)).2
      match s.slotOf (s.hbm l 4 % 2 ^ 20) (some (s.hbm (l + 4) 4)) with
      | some k => unparkMark (writeDesc s d f true k.1 (s.hbm (d + 8) 8)) d
      | none => unparkMark (returnFrame s (frameSide f) f) d
  parkSettled s1 i

end Sys2Proof.Machine
end

