-- ==== Sys2Proof/Machine/SeqOps.lean ====
section
/-! DEFINITION. The sequence table and what the entry die's control core does with an entry (chapter 13): directory
stores and polls (R282), pausing and parking (R285, R286), charging (R288 to R290), ending and freeing (R271, R272). -/

namespace Sys2Proof.Machine

/-! ### The table -/

/-- Entry `i` of the sequence table. -/
def State.seq (s : State) (i : Nat) : SeqE := sget noSeq s.seqs.table i

/-- Change entry `i`. -/
def State.updSeq (s : State) (i : Nat) (g : SeqE → SeqE) : State :=
  { s with seqs := { s.seqs with table := sset noSeq s.seqs.table i (g (s.seq i)) } }

/-- Indexes of entries that are not FREE, ascending. -/
def State.liveSeqs (s : State) : List Nat := (s.seqs.table.filter (fun e => e.2.st != 0)).map (fun e => e.1)

/-- The entry is in PREFILL, DECODE, PAUSED or HELD. -/
def SeqE.alive (e : SeqE) : Bool := decide (1 ≤ e.st) && decide (e.st ≤ 4)

/-- Sequence ID of a local number (R270). -/
def State.seqId (s : State) (i : Nat) : Nat := s.myId * 2 ^ 14 + i

/-- The 64 bytes of an entry (Table 13.1). -/
def seqBytes (s : State) (i : Nat) : List Byte :=
  let e := s.seq i
  leBytes 4 (s.seqId i) ++ leBytes 2 e.gen ++ leBytes 1 e.st ++ leBytes 1 e.cause
    ++ leBytes 4 (e.tenant + 2 ^ 20 * e.prio + 2 ^ 22 * b2n e.contLate + 2 ^ 23 * b2n e.rerun + 2 ^ 24 * e.spec
      + 2 ^ 27 * b2n e.pHost + 2 ^ 28 * b2n e.pBudget + 2 ^ 29 * b2n e.pGoal + 2 ^ 30 * b2n e.pCap + 2 ^ 31 * b2n e.freePrompt)
    ++ leBytes 2 e.adapter ++ leBytes 2 e.failRun ++ leBytes 4 e.len ++ leBytes 4 e.promptLen ++ leBytes 4 e.maxNew
    ++ leBytes 4 e.newCount ++ leBytes 8 e.deadline ++ leBytes 8 e.tokbuf ++ leBytes 4 e.modelGen ++ leBytes 4 e.stop
    ++ leBytes 4 e.lastCommit ++ leBytes 4 e.order

/-- Token-buffer record `k` of an entry (Table 13.5). -/
def State.tokRec (s : State) (i k : Nat) : Nat := s.hbm ((s.seq i).tokbuf + 8 * k) 8

/-- Write token-buffer record `k`: TOKEN, GENERATED, LATE, END, CAUSE and the commit beat. -/
def writeTok (s : State) (i k token : Nat) (gen late : Bool) (ends : Option Nat) : State :=
  s.write ((s.seq i).tokbuf + 8 * k) (leBytes 8 (token + 2 ^ 32 * b2n gen + 2 ^ 33 * b2n late
    + (match ends with
      | some c => 2 ^ 34 + 2 ^ 35 * c
      | none => 0) + 2 ^ 40 * (s.beat % 2 ^ 24)))

/-! ### The pipeline's attention dies -/

/-- Directories of a pipeline as die and local address of the directory. -/
def State.attDies (s : State) : List (Nat × Nat) :=
  (if s.attUnits = 0 then [] else [(s.myId, s.dirBase)]) ++ s.seqs.peers.map (fun p => (p.die, p.dirBase))

/-- Context limit of the pipeline (R273); 2^32 where no unit limits it. -/
def State.ctxLimit (s : State) : Nat :=
  (s.kvUnits.map (fun u => auLimit (s.attUnit u)) ++ s.seqs.peers.map (fun p => p.limit)).foldl min (2 ^ 32)

/-- Beats from a commit to the deadline boundary of its length stores (R216, R282). -/
def State.storeLag (s : State) : Nat :=
  if s.attDies.all (fun d => d.1 / 256 == s.myId / 256) then 3 else 9

/-! ### Directory stores and polls (R281, R282) -/

/-- Change the directory of die `d` of entry `i`. -/
def updDir (s : State) (i d : Nat) (g : DirSt → DirSt) : State :=
  s.updSeq i (fun e => { e with dirs := e.dirs.map (fun x => if x.die == d then g x else x) })

/-- A store of 8 bytes at offset `o` of the directory entry, issued at `beat`. -/
def dirStore (s : State) (i : Nat) (d : DirSt) (o v beat : Nat) (why : ReqWhy) : State :=
  enqueue s { op := 2, addr := fabAddr d.die (d.base + 32 * i + o), len := 8, data := leBytes 8 v, issue := beat, why := why }

/-- The LENGTH word of an entry (Table 13.6). -/
def SeqE.lengthWord (e : SeqE) (release : Bool) : Nat :=
  e.len % 2 ^ 20 + 2 ^ 20 * b2n (e.park && !release) + 2 ^ 21 * b2n release + 2 ^ 48 * e.gen

/-- Issue a bind store. -/
def storeBind (s : State) (i : Nat) (d : DirSt) (beat : Nat) : State :=
  dirStore s i d 0 (s.seqId i + 2 ^ 32 * (s.seq i).tenant) beat (.bind i (s.seq i).gen d.die)

/-- Issue a length store to one directory. -/
def storeLen (s : State) (i : Nat) (d : DirSt) (beat : Nat) : State :=
  dirStore s i d 8 ((s.seq i).lengthWord false) beat (.length i (s.seq i).gen d.die)

/-- Issue a release store. -/
def storeRelease (s : State) (i : Nat) (d : DirSt) (beat : Nat) : State :=
  dirStore (updDir s i d.die (fun x => { x with rel := 1 })) i d 8 ((s.seq i).lengthWord true) beat (.release i (s.seq i).gen d.die)

/-- Poll a STATUS word by LOAD. -/
def pollDir (s : State) (i : Nat) (d : DirSt) (beat : Nat) : State :=
  enqueue s { op := 1, addr := fabAddr d.die (d.base + 32 * i + 24), len := 8, issue := beat, why := .poll i (s.seq i).gen d.die }

/-- Store the length word to every bound directory in this beat; maps wait for the deadline boundary (R282). -/
def storeLength (s : State) (i : Nat) : State :=
  let s0 := s.updSeq i (fun e => { e with ready := max e.ready (s.beat + s.storeLag) })
  ((s.seq i).dirs.filter (fun d => d.phase == 3)).foldl (fun t d =>
    storeLen (updDir t i d.die (fun x => { x with unans := x.unans + 1 })) i d t.beat) s0

/-! ### Pausing, parking, resuming (R272, R285, R286) -/

/-- A pause cause of the entry is set. -/
def SeqE.paused (e : SeqE) : Bool := e.pHost || e.pBudget || e.pGoal || e.pCap

/-- A cause was set: PREFILL and DECODE become PAUSED. -/
def pauseCheck (s : State) (i : Nat) : State :=
  let e := s.seq i
  if (e.st = 1 ∨ e.st = 2) ∧ e.paused = true then
    (s.updSeq i (fun e => { e with st := 3 })).count Reg.pauseCnt_paused 1
  else s

/-- Every directory entry reports HOME. -/
def SeqE.allHome (e : SeqE) : Bool := e.dirs.all (fun d => d.phase != 3 || d.home)

/-- A cause was cleared, or HOME returned: PAUSED becomes PREFILL or DECODE. -/
def resumeCheck (s : State) (i : Nat) : State :=
  let e := s.seq i
  if e.st = 3 ∧ e.paused = false ∧ e.allHome = true then
    (s.updSeq i (fun e => { e with st := if e.len < e.promptLen then 1 else 2 })).count Reg.pauseCnt_resumed 1
  else s

/-- Park: LENGTH with PARK = 1 to every directory. -/
def parkSeq (s : State) (i : Nat) : State :=
  storeLength (s.updSeq i (fun e => { e with park := true, dirs := e.dirs.map (fun d => { d with home := false }) })) i

/-- Unpark: LENGTH with PARK = 0; HOME is polled once the stores are answered. -/
def unparkSeq (s : State) (i : Nat) : State :=
  if (s.seq i).park then storeLength (s.updSeq i (fun e => { e with park := false })) i else s

/-! ### Budgets (R288 to R290) -/

/-- GRANT. -/
def State.grant (s : State) : Nat := 2 ^ s.fld Reg.seqCfg_grantLog2

/-- Lowest priority number that a budget pauses. -/
def State.budgetClass (s : State) : Nat := max 1 (s.fld Reg.seqCfg_budgetClass)

/-- The slot of a tenant. -/
def State.budget (s : State) (t : Nat) : Option Budget := s.seqs.budgets.find? (fun b => b.tenant == t)

/-- Change a tenant's slot. -/
def updBudget (s : State) (t : Nat) (g : Budget → Budget) : State :=
  { s with seqs := { s.seqs with budgets := s.seqs.budgets.map (fun b => if b.tenant == t then g b else b) } }

/-- Charge a tenant. -/
def charge (s : State) (t units : Nat) : State :=
  if units = 0 then s
  else updBudget s t (fun b => { b with beta := b.beta - units, empty := b.empty || decide (b.beta - units ≤ 0) })

/-- Set P_BUDGET on the sequences of EMPTY tenants from BUDGET_CLASS on (R290). -/
def budgetPauses (s : State) : State :=
  s.liveSeqs.foldl (fun t i =>
    let e := t.seq i
    match t.budget e.tenant with
    | some b => if b.empty && e.alive && decide (t.budgetClass ≤ e.prio) && !e.pBudget then
        pauseCheck (t.updSeq i (fun e => { e with pBudget := true })) i else t
    | none => t) s

/-- Units granted to a tenant; it leaves EMPTY at GRANT / 2 (R290). -/
def takeGrant (s : State) (t units : Nat) : State :=
  let s1 := updBudget s t (fun b =>
    { b with beta := b.beta + units, waits := false, empty := b.empty && decide (b.beta + units < (s.grant / 2 : Nat)) })
  match s1.budget t with
  | some b =>
    if b.empty then s1
    else s1.liveSeqs.foldl (fun a i =>
      let e := a.seq i
      if e.tenant = t ∧ e.pBudget = true then resumeCheck (a.updSeq i (fun e => { e with pBudget := false })) i else a) s1
  | none => s1

/-! ### Capacity (R274) -/

/-- Order two entries by a key. -/
def sortBy (s : State) (k : SeqE → Nat) (l : List Nat) : List Nat := l.mergeSort (fun a b => k (s.seq a) ≤ k (s.seq b))

/-- Sequences with P_CAP resume where their reservation fits, highest priority first and earliest parked first. -/
def capResume (s : State) : State :=
  (sortBy s (fun e => e.prio * 2 ^ 64 + e.parkAt) (s.liveSeqs.filter (fun i => (s.seq i).pCap && (s.seq i).alive))).foldl (fun t i =>
    let e := t.seq i
    if e.need ≤ t.kvFree then
      let t1 := t.updSeq i (fun e => { e with pCap := false, reserve := e.need })
      resumeCheck (if e.pHost then t1 else unparkSeq t1 i) i
    else t) s

/-! ### Ending (R271, R272, R292) -/

/-- The last entry of a tenant that is not FREE is gone: its budget slot is released (R289). -/
def releaseBudget (s : State) (t : Nat) : State :=
  if s.liveSeqs.any (fun i => (s.seq i).tenant == t) then s
  else { s with seqs := { s.seqs with budgets := s.seqs.budgets.filter (fun b => b.tenant != t) } }

/-- The entry becomes FREE; SEQ_NOTIFY counts the end for its mailbox (R338). -/
def freeSeq (s : State) (i : Nat) : State :=
  let e := s.seq i
  let s1 := s.updSeq i (fun e => { e with st := 0, reserve := 0, dirs := [], job := none, park := false, pCap := false })
  capResume (releaseBudget (s1.updMb e.mbx (fun b => { b with ended := b.ended + 1 })) e.tenant)

/-- DONE becomes FREE once every release is answered or failed. -/
def freeCheck (s : State) (i : Nat) : State :=
  let e := s.seq i
  if e.st = 5 ∧ (e.dirs.all (fun d => d.phase == 4 || d.rel == 2)) = true then freeSeq s i else s

/-- Release the directories of an ended entry that have no store under way; the others follow when theirs is
answered. -/
def releaseDirs (s : State) (i : Nat) : State :=
  ((s.seq i).dirs.filter (fun d => (d.phase == 2 || d.phase == 3) && d.unans == 0 && d.rel == 0)).foldl (fun t d =>
    storeRelease t i d t.beat) s

/-- Index of the end record (R271). -/
def SeqE.endIndex (e : SeqE) : Nat := if e.len < e.promptLen then e.promptLen else e.len + 1

/-- A sequence ends with a cause: end record, DONE, releases; its places are forgotten and an unfinished
submit job is abandoned. -/
def endSeq (s : State) (i cause : Nat) : State :=
  let e := s.seq i
  if !e.alive then s
  else
    let s1 := writeTok s i e.endIndex 0 false false (some cause)
    let s2 := s1.updSeq i (fun e => { e with st := 5, cause := cause, job := none, expire := false })
    let s3 := { s2 with seqs := { s2.seqs with places := s2.seqs.places.filter (fun p => p.idx != i) } }
    freeCheck (releaseDirs (finish s3 e.job 0x08 []) i) i

/-- A submit job ends with a status and the sequence with NOT_BOUND (R273). -/
def bindFailed (s : State) (i status : Nat) : State :=
  let e := s.seq i
  endSeq (finish (s.updSeq i (fun e => { e with job := none })) e.job status (leBytes 4 (s.seqId i))) i 6

/-! ### Answers of directory stores and polls (R282) -/

/-- The entry and directory that a request of generation `g` still concerns. -/
def dirOf (s : State) (i g die : Nat) : Option DirSt :=
  let e := s.seq i
  if e.st = 0 ∨ e.gen ≠ g then none else e.dirs.find? (fun d => d.die == die)

/-- The store is issued again: LATE_APPLY and TIMEOUT. -/
def again (status : Nat) : Bool := status == 7 || status == 8

/-- A directory gets nothing more. -/
def dropDir (s : State) (i die : Nat) : State := freeCheck (updDir s i die (fun x => { x with phase := 4 })) i

/-- A bind store is answered. -/
def bindDone (s : State) (i g die status : Nat) : State :=
  match dirOf s i g die with
  | none => s
  | some d =>
    if (s.seq i).st = 5 then dropDir s i die
    else if status = 0 then storeLen (updDir s i die (fun x => { x with phase := 1, unans := 1 })) i d s.beat
    else if again status then storeBind s i d (s.beat + 1)
    else bindFailed (updDir s i die (fun x => { x with phase := 4 })) i 0x6D

/-- A length store is answered. -/
def lengthDone (s : State) (i g die status : Nat) : State :=
  match dirOf s i g die with
  | none => s
  | some d =>
    let ended := (s.seq i).st == 5
    if status = 0 ∨ (ended && again status) = true then
      let s1 := updDir s i die (fun x => { x with unans := x.unans - 1, phase := if x.phase = 1 then 2 else x.phase })
      if ended then releaseDirs s1 i
      else if d.phase = 1 ∨ (!d.home && !(s.seq i).park) = true then pollDir s1 i d (if d.phase = 1 then s.beat else s.beat + 1)
      else s1
    else if again status then storeLen (s.count Reg.storeRetry_retries 1) i d (s.beat + 1)
    else
      let s1 := updDir s i die (fun x => { x with unans := x.unans - 1, phase := if x.phase = 1 then 4 else x.phase })
      if ended then freeCheck (releaseDirs s1 i) i
      else if d.phase = 1 then bindFailed s1 i 0x6D
      else s1.updSeq i (fun e => { e with expire := true })

/-- A release store is answered. -/
def releaseDone (s : State) (i g die status : Nat) : State :=
  match dirOf s i g die with
  | none => s
  | some d =>
    if again status then storeRelease s i d (s.beat + 1)
    else freeCheck (updDir s i die (fun x => { x with rel := 2 })) i

/-- Every directory is bound: the submit job ends OK. -/
def boundCheck (s : State) (i : Nat) : State :=
  let e := s.seq i
  if e.dirs.all (fun d => d.phase == 3) then finish (s.updSeq i (fun e => { e with job := none })) e.job 0 (leBytes 4 (s.seqId i))
  else s

/-- A poll of STATUS is answered. -/
def pollDone (s : State) (i g die status : Nat) (data : List Byte) : State :=
  match dirOf s i g die with
  | none => s
  | some d =>
    let w := fieldAt data 0 4
    if !(s.seq i).alive then s
    else if status ≠ 0 then pollDir s i d (s.beat + 1)
    else if d.phase = 2 then
      if hasBit w 2 then bindFailed (updDir s i die (fun x => { x with phase := 4 })) i 0x63
      else if hasBit w 0 then
        let s1 := boundCheck (updDir s i die (fun x => { x with phase := 3, home := hasBit w 1 })) i
        if (s.seq i).park then parkSeq s1 i else s1
      else pollDir s i d (s.beat + 1)
    else if (s.seq i).park then s
    else if hasBit w 1 then resumeCheck (updDir s i die (fun x => { x with home := true })) i
    else pollDir s i d (s.beat + 1)

/-! ### Model swap (R280, R287, Table 13.2) -/

/-- A HELD sequence returns to its state before: the swap was aborted. -/
def unhold (s : State) : State :=
  s.liveSeqs.foldl (fun t i =>
    if (t.seq i).st = 4 then pauseCheck (t.updSeq i (fun e => { e with st := e.before })) i else t) s

/-- SWAP_POLICY of every live sequence at the swap commit. -/
def swapSeqs (s : State) : State :=
  s.liveSeqs.foldl (fun t i =>
    let e := t.seq i
    if !e.alive then t
    else if !e.rerun then endSeq t i 4
    else
      let t1 := if e.st = 3 ∧ e.paused = false then t.count Reg.pauseCnt_resumed 1
        else if e.st = 4 ∧ e.paused = true then t.count Reg.pauseCnt_paused 1 else t
      t1.updSeq i (fun e =>
      { e with
        promptLen := if e.st = 2 ∨ ((e.st = 3 ∨ e.st = 4) ∧ e.promptLen ≤ e.len) then e.len + 1 else e.promptLen
        len := 0, modelGen := t.modelGen, freePrompt := true, st := if e.paused then 3 else 1 })) s

end Sys2Proof.Machine
end

