-- ==== Sys2Proof/Machine/FabricRun.lean ====
section
/-! DEFINITION. Requests of this die as they run: issue in order while places are free (R211), operations on this
die itself, answers, and what each answer completes (R202, R214, R218, R326). -/

namespace Sys2Proof.Machine

/-! ### REMOTE_OP (R326) -/

/-- DETAIL of a REMOTE_OP job: OLD for an atomic that was applied, else FSTATUS and FLEN (Table 15.5). -/
def remoteDetail (r : OutReq) (a : Ans) : List Byte :=
  if a.status = 0 ∧ (r.op = 3 ∨ r.op = 4) then leBytes 8 a.old
  else leBytes 1 a.status ++ List.replicate 3 0 ++ leBytes 4 a.len

/-- A REMOTE_OP is answered: the data of a LOAD goes to DATA_BUF, unless its memory was lost (R314). -/
def remoteDone (s : State) (m slot : Nat) (r : OutReq) (a : Ans) : State :=
  let buf := fieldAt (s.job m slot).args 32 8
  if a.status ≠ 0 then jobDone s m slot 0x4B (remoteDetail r a)
  else if r.op = 1 then
    if s.rangePresent buf r.len then jobDone (s.write buf (slice a.data 0 r.len)) m slot 0 (remoteDetail r a)
    else jobDone s m slot 0x08 []
  else jobDone s m slot 0 (remoteDetail r a)

/-! ### Completion -/

/-- What the answer of a request completes. -/
def complete (s : State) (r : OutReq) (a : Ans) : State :=
  match r.why with
  | .remoteOp m slot => remoteDone s m slot r a
  | .part src tag off => partDone s src tag off (a.status == 0)
  | .mapRead off => mapReadDone s off a.status a.data
  | .bind i g d => bindDone s i g d a.status
  | .length i g d => lengthDone s i g d a.status
  | .release i g d => releaseDone s i g d a.status
  | .poll i g d => pollDone s i g d a.status a.data
  | .park i d _ => parkDone s i d (a.status == 0)
  | .unpark i d f => unparkDone s i d f (a.status == 0)

/-- Take the outstanding request with a tag out of the list. -/
def dropReq (s : State) (tag : Nat) : State :=
  { s with fab := { s.fab with reqs := s.fab.reqs.filter (fun r => r.tag != tag) } }

/-- Complete the outstanding request with a tag. -/
def answerTag (s : State) (tag : Nat) (a : Ans) : State :=
  match s.fab.reqs.find? (fun r => r.tag == tag) with
  | some r => complete (dropReq s tag) r a
  | none => s

/-! ### Issue (R211, R216, R218, R220) -/

/-- A directory word of this die, which its own control core writes or reads without a request (R281). -/
def OutReq.isLocalWord (r : OutReq) : Bool :=
  match r.why with
  | .bind _ _ _ => true
  | .length _ _ _ => true
  | .release _ _ _ => true
  | .poll _ _ _ => true
  | _ => false

/-- A request on this die itself: a directory word is accessed directly, a bus error where no region lies
there (R348), an operation is applied as a target
applies it, and a COPY or KVX starts here. -/
def issueHere (s : State) (r : OutReq) : State :=
  let a := fabLocal r.addr
  if r.isLocalWord then
    if region a = 3 then complete (busError s a (r.op == 2) 2) r { status := 2 }
    else if !s.rangePresent a r.len then complete s r { status := 1 }
    else match meshTo s coreField a with
    | none => complete s r { status := 1 }
    | some t =>
      if r.op = 1 then complete t r { status := 0, len := r.len, data := t.read a r.len }
      else complete (t.write a r.data) r { status := 0 }
  else if r.op = 5 ∨ r.op = 6 then
    let k := keepReq s r
    let h := reqHdr k.1 k.2
    match copyRefused k.1 h with
    | some x => answerTag x.1 k.2.tag x.2
    | none => startCopy k.1 0 h
  else
    let x := applyWord s coreField s.myId r.op a r.len r.opnd1 r.opnd2 (s.beat % 2 ^ 32) r.data
    complete x.1 r x.2

/-- A part of a COPY may not be issued after STOP_BEAT (R214). -/
def lateIssue (s : State) (r : OutReq) : Bool :=
  match r.why with
  | .part _ _ _ => r.op == 2 && s.pastStop r.stop
  | _ => false

/-- Issue one request. -/
def issueReq (s : State) (r : OutReq) : State :=
  if lateIssue s r then complete s r { status := 9 }
  else if fabDie r.addr = s.myId ∧ r.isLocalWord = true then issueHere s r
  else match refuseIssue s r with
  | some x => complete x.1 r x.2
  | none =>
    if fabDie r.addr = s.myId then issueHere s r
    else
      let k := keepReq s r
      match (pathTo s (fabDie r.addr) k.2.tag (fabLocal r.addr)).bind (fun l => sendFrom k.1 coreField l (.req l (reqHdr k.1 k.2) r.data)) with
      | none => complete (dropReq k.1 k.2.tag) k.2 { status := 1 }
      | some t => t

/-- The first waiting request whose beat of issue has come, and the others in order. -/
def nextIssue (beat : Nat) : List OutReq → Option (OutReq × List OutReq)
  | [] => none
  | r :: l =>
    if r.issue ≤ beat then some (r, l)
    else match nextIssue beat l with
    | some (x, rest) => some (x, r :: rest)
    | none => none

/-- Issue waiting requests while fewer than 1,024 are outstanding (R211). -/
def pump : Nat → State → State
  | 0, s => s
  | n + 1, s =>
    if 1024 ≤ s.fab.reqs.length then s
    else match nextIssue s.beat s.fab.waiting with
    | none => s
    | some (r, rest) => pump n (issueReq { s with fab := { s.fab with waiting := rest } } r)

/-- Issue all that can be issued now. -/
def pumpAll (s : State) : State := pump 1048576 s

/-- A manager message takes the path of Table 10.9 to its die's link (R203); without one it is lost, and one for this die
makes no frame. -/
def sendManager (s : State) (e : Nat × List Byte) : State :=
  if e.1 = s.myId then s
  else match (pathTo s e.1 0 0).bind (fun l => sendFrom s coreField l (.ctrl l { dst := e.1, src := s.myId } e.2)) with
  | some t => t
  | none => s

/-- What the links can send by cycle `lim`: manager messages handed over are queued first. -/
def flushLinks (s : State) (lim : Nat) : State :=
  drainAll (s.fab.ctrlOut.foldl sendManager { s with fab := { s.fab with ctrlOut := [] } }) lim

end Sys2Proof.Machine
end

