-- ==== Sys2Proof/Machine/ManagerOps.lean ====
section
/-! DEFINITION. What boot and managers share: the map key, patch bundles (Table 19.7), takeover maps (R414), the
first join (R123, R404), and manager messages (R413). -/

namespace Sys2Proof.Machine

/-- The control core runs its firmware. -/
def State.coreAwake (s : State) : Bool := s.coreUp && s.dieState != .off && s.dieState != .romBoot

/-- The core takes a manager message that a link brings. -/
def State.hears (s : State) : Bool := s.coreAwake && s.anyLink

/-- The die's map public key; zeros on a die without the fuse (R416). -/
def State.mapPub (s : State) : List Byte :=
  if s.sec.fuses.roleMgr then leBytes 48 (Config.mapPub s.sec.fuses.deviceSeed).toNat else List.replicate 48 0

/-! ### Patch bundles -/

/-- Record `k` of a bundle. -/
def bundleRec (b : List Byte) (k : Nat) : List Byte := slice b (128 + 16 * k) 16

/-- Code ranges overlap. -/
def codeOverlap (b : List Byte) (i j : Nat) : Bool :=
  let x := bundleRec b i
  let y := bundleRec b j
  decide (fieldAt x 4 4 < fieldAt y 4 4 + fieldAt y 8 4) && decide (fieldAt y 4 4 < fieldAt x 4 4 + fieldAt x 8 4)

/-- Fields of the header and the record table agree with Table 19.7. -/
def bundleFormat (b : List Byte) : Bool :=
  let n := fieldAt b 6 2
  let sig := fieldAt b 16 4
  fieldAt b 0 4 == 0x56504154 && fieldAt b 4 2 == 1 && decide (n ≤ 128) && fieldAt b 12 4 != 0 && fieldAt b 20 4 == b.length &&
    decide (b.length ≤ 262144) && sig + sigLen == b.length && decide (128 + 16 * n ≤ sig) && allZero (slice b 24 40) && allZero (slice b 112 16) &&
    (List.range n).all (fun k =>
      let r := bundleRec b k
      fieldAt r 2 2 == 0 && fieldAt r 12 4 == 0 && decide (128 + 16 * n ≤ fieldAt r 4 4) && decide (fieldAt r 4 4 + fieldAt r 8 4 ≤ sig) &&
        (List.range k).all (fun j => !codeOverlap b j k))

/-- A bundle verifies (R408): key hash, signature, format and ROM_REV. -/
def bundleCheck (s : State) (b : List Byte) : Check :=
  let sig := fieldAt b 16 4
  if !bundleFormat b then .bad
  else if (Config.sha256 (slice b 64 48)).toNat ≠ s.sec.fuses.rootHash ∨ (!sigOk (slice b 64 48) (b.take sig) (b.drop sig)) = true then .badSig
  else if fieldAt b 8 4 ≠ Config.romRev.toNat then .bad
  else .ok

/-! ### Takeover maps (R414) -/

/-- The changes of a takeover map in one die entry. -/
def takeoverDie (me old : Nat) (root : Bool) (e : MapDie) : MapDie :=
  if root && e.dieId == me then { e with time := 2, parent := 0, alt := 0 }
  else if root && e.dieId == old then { e with time := 1, parent := me }
  else if e.parent = old ∧ e.time ≠ 2 then { e with parent := me }
  else e

/-- The takeover map of die `me` from the map it obeys. -/
def takeoverMap (me addr : Nat) (endorse : List Byte) (t : TopoMap) : TopoMap :=
  let old := t.primary
  let u : TopoMap :=
    { t with epoch := t.epoch + 1, primary := me, signer := me, standby := old, root := if t.root = old then me else t.root
             dies := t.dies.map (takeoverDie me old (t.root == old)), endorse := endorse, addr := addr, len := mapSigOff t.dies.length + sigLen }
  { u with digest := sha u.body }

/-- Discard the takeover map, and start a new one where the three conditions hold. -/
def prepareTakeover (s : State) : State :=
  let s1 := s.setFld Reg.secStatus_takeoverReady 0
  match s.sec.map, s.sec.endorsement with
  | some t, some e =>
    if s.fld Reg.secRole_manager = 1 ∧ t.standby = s.myId then
      { s1 with sec := { s1.sec with takeover := some (takeoverMap s.myId (fabAddr s.myId s.sec.takeoverBuf) e t) } }
    else { s1 with sec := { s1.sec with takeover := none } }
  | _, _ => { s1 with sec := { s1.sec with takeover := none } }

/-- The signature of a map under the die's map key. -/
def mapSignature (s : State) (t : TopoMap) : List Byte := leBytes sigLen (Config.sign192 s.sec.fuses.deviceSeed (sha t.body))

/-! ### Joining (R123, R404) -/

/-- A tile's age charged for the time since its record was saved (R123, which names each tile, so a retired one as well:
DESIGN CHOICE, log entry 93). -/
def ageTile (ns : Nat) (x : Tile) : Tile :=
  let r := x.live
  let age := if r.saveTime = 0 ∨ ns < r.saveTime then 2592000 else min 0x3FFFFF (r.age + 180 * ((ns - r.saveTime) / 10 ^ 9))
  { x with live := { r with age := age } }

/-- The refresh of a tile is pending once its record is loaded or aged (R119). -/
def pendByAge (s : State) (t : Nat) : State :=
  if (s.tile t).live.retired = false ∧ 1944000 ≤ (s.tile t).live.age ∧ s.powered (tileField t) = true then
    s.setFld (Reg.driftStat_pending t) 1
  else s

/-- Charge every tile at the first join after power-up. -/
def ageTiles (s : State) : State :=
  let s1 := { s with aged := true, grid := { s.grid with
      tiles := (List.range 8192).filterMap (fun t =>
        let x := ageTile s.ns (s.tile t)
        if x = noTile t then none else some (t, x)) } }
  (List.range 8192).foldl pendByAge s1

/-- CONFIGURED becomes JOINED once a map is obeyed and time is locked (Table 19.4). -/
def joinCheck (s : State) : State :=
  if s.dieState = .configured ∧ s.sec.map.isSome ∧ (s.time.state = .locked ∨ s.time.state = .root) then
    enterState (if s.aged then s else ageTiles s) .joined
  else s

/-! ### Manager messages (R18, R413) -/

/-- The manager position that the obeyed map gives (R17, R411); the position given with the role stands before the
first map. -/
def takePosition (s : State) : State :=
  match s.sec.map with
  | none => s
  | some t => s.setFld Reg.secRole_role
      (if s.fld Reg.secRole_manager = 0 then 0 else if t.primary = s.myId then 1 else if t.standby = s.myId then 2 else 0)

/-- MAP_NOTICE (Table 19.12). -/
def noticeBytes (t : TopoMap) : List Byte :=
  leBytes 1 0x21 ++ leBytes 3 0 ++ leBytes 4 t.epoch ++ leBytes 4 t.len ++ leBytes 4 0 ++ leBytes 8 t.addr ++ slice t.digest 0 32

/-- Send MAP_NOTICE to every other die of a map. -/
def sendNotices (s : State) (t : TopoMap) : State :=
  (t.dies.filter (fun e => e.dieId != s.myId)).foldl (fun a e => a.sendCtrl e.dieId (noticeBytes t)) s

/-- MANAGER_ALIVE (Table 19.12). -/
def aliveBytes (s : State) : List Byte := leBytes 1 0x20 ++ leBytes 3 0 ++ leBytes 4 s.epoch ++ leBytes 8 s.ns

/-- Write the signed map where it lies, if its memory is there. -/
def writeSignedMap (s : State) (t : TopoMap) : State :=
  if s.rangePresent (fabLocal t.addr) t.len then s.write (fabLocal t.addr) (t.body ++ mapSignature s t) else s

end Sys2Proof.Machine
end

