-- ==== Sys2Proof/Machine/BootCmds.lean ====
section
/-! DEFINITION. Boot, identity and configuration commands of Table 15.4 (R9, R10, R17, R319 to R323, R357, R408 to R418). -/

namespace Sys2Proof.Machine

/-! ### Identity and role (R319) -/

/-- DIE_ID refused: invalid, or its position differs from the strapped one. -/
def dieIdRefused (a : List Byte) (s : State) : Option (Nat × List Byte) :=
  if !dieValid (fieldAt a 0 4) then some (0x40, [])
  else if dieQpos (fieldAt a 0 4) ≠ s.qpos then some (0x41, [])
  else none

/-- SET_DIE_ID. -/
def execSetDieId (m : Nat) (s : State) : Host.Outcome State Fault Refusal :=
  .next (takeCommand m 0x0101 never (fun a _ => decide (2 ^ 18 ≤ fieldAt a 0 4)) dieIdRefused
    (.now (fun a t => ({ t with sec := { t.sec with dieId := some (fieldAt a 0 4) } }, []))) s)

/-- SET_ROLE (R17). -/
def execSetRole (m : Nat) (s : State) : Host.Outcome State Fault Refusal :=
  .next (takeCommand m 0x0102 never (fun a _ => decide (2 < fieldAt a 0 1) || fieldAt a 1 3 != 0)
    (fun a t => if fieldAt a 0 1 ≠ 0 ∧ t.sec.fuses.roleMgr = false then some (0x42, []) else none)
    (.now (fun a t =>
      (takePosition ((t.setFld Reg.secRole_role (fieldAt a 0 1)).setFld Reg.secRole_manager (b2n (fieldAt a 0 1 != 0))), []))) s)

/-- TIME_ROOT. -/
def execTimeRoot (m : Nat) (s : State) : Host.Outcome State Fault Refusal :=
  .next (takeCommand m 0x0103 (fun _ t => t.time.state != .free) never accepted
    (.now (fun a t => ({ t with sec := { t.sec with startNs := fieldAt a 0 8 } }, []))) s)

/-! ### Configuration (R320, R357) -/

/-- CFG_COMMIT: the snapshot; the job remembers the cycle of its acceptance, and the configuration writes before it. -/
def execCfgCommit (m : Nat) (s : State) : Host.Outcome State Fault Refusal :=
  .next (takeCommand m 0x0104 never never accepted
    (.job (fun _ k t => (snapshot t).updJob m k (fun j => { j with args := leBytes 16 t.clk ++ leBytes 8 t.spw.writes }))) s)

/-- MISSING of CONFIGURE. -/
def missing (s : State) : Nat :=
  b2n s.sec.dieId.isNone + 2 * b2n (s.fld Reg.spwStatus_refValid == 0) +
    4 * b2n (s.fld Reg.spwStatus_match == 0 || s.word Reg.cfgCrcLast_last.reg != s.word Reg.cfgCrcRef_ref.reg)

/-- CONFIGURE: IDENTIFIED becomes CONFIGURED. -/
def execConfigure (m : Nat) (s : State) : Host.Outcome State Fault Refusal :=
  .next (takeCommand m 0x0105 never never
    (fun _ t => if missing t = 0 then none else some (0x44, leBytes 1 (missing t)))
    (.now (fun _ t => (enterState t .configured, []))) s)

/-! ### Maps (R321, R410, R412) -/

/-- Argument fields of MAP_INSTALL and MAP_PUBLISH. -/
def mapBuf (a : List Byte) : Nat := fieldAt a 0 8
def mapLen (a : List Byte) : Nat := fieldAt a 8 4

/-- Length and reserved bytes outside their ranges. -/
def mapArgs (a : List Byte) : Bool := decide (mapLen a < 64) || decide (262144 < mapLen a) || fieldAt a 12 4 != 0

/-- Read a map for a job. -/
def installMap (m : Nat) (a : List Byte) (k : Nat) (s : State) : State :=
  if s.ueIn (mapBuf a) (mapLen a) then jobDone (readUe s (mapBuf a) (mapLen a) 6) m k 0x6C []
  else takeMap s (s.read (mapBuf a) (mapLen a)) (fabAddr s.myId (mapBuf a)) (some (m, k))

/-- MAP_INSTALL. -/
def execMapInstall (m : Nat) (s : State) : Host.Outcome State Fault Refusal :=
  .next (takeCommand m 0x0106 never (fun a t => mapArgs a || !bufOk t (mapBuf a) (mapLen a)) accepted (.job (installMap m)) s)

/-- The die may publish: a manager that its map names, or that obeys no map. -/
def State.mayPublish (s : State) : Bool :=
  s.fld Reg.secRole_manager == 1 && (match s.sec.map with
    | none => true
    | some t => t.primary == s.myId || t.standby == s.myId)

/-- The body with EPOCH, SIGNER and SIG_OFF as the die sets them. -/
def publishBody (s : State) (b : List Byte) : List Byte :=
  patchAt (patchAt (patchAt b 8 (leBytes 4 (s.epoch + 1))) 28 (leBytes 4 s.myId)) 36 (leBytes 4 b.length)

/-- The checks of Table 19.11 other than 3, and the manager's own map key. -/
def publishCheck (s : State) (b : List Byte) (t : TopoMap) : Check :=
  if b.length ≠ mapSigOff (mpDies b) ∨ (!mapFormat b t) = true then .bad
  else match endorseCheck s t.endorse with
  | .bad => .bad
  | .badSig => .badSig
  | .ok =>
    if enMgr t.endorse ≠ t.signer ∨ enMapPub t.endorse ≠ s.mapPub ∨ (!mapPlaced s t) = true ∨ (!s.prefers t.epoch t.signer) = true then .bad
    else .ok

/-- A failed object ends its job SIG_INVALID; a failed signature or key hash counts (R408). -/
def sigInvalid (s : State) (c : Check) (m k : Nat) : State := jobDone (if c = .badSig then sigFail s else s) m k 0x46 []

/-- Check the body and begin to sign it. -/
def publishMap (m : Nat) (a : List Byte) (k : Nat) (s : State) : State :=
  if s.ueIn (mapBuf a) (mapLen a) then jobDone (readUe s (mapBuf a) (mapLen a) 6) m k 0x6C []
  else
    let b := publishBody s (s.read (mapBuf a) (mapLen a))
    let t := mapOf b (fabAddr s.myId (mapBuf a))
    let c := publishCheck s b t
    if c = .ok then { s with sec := { s.sec with mapSign := s.sec.mapSign ++ [(t, some (m, k))] } } else sigInvalid s c m k

/-- MAP_PUBLISH. -/
def execMapPublish (m : Nat) (s : State) : Host.Outcome State Fault Refusal :=
  .next (takeCommand m 0x0107 never (fun a t => mapArgs a || !wbufOk t (mapBuf a) (mapLen a + sigLen))
    (fun _ t => if t.mayPublish then none else some (0x43, [])) (.job (publishMap m)) s)

/-! ### Key slots (R322, R418) -/

/-- Argument fields of KEY_SLOT_WRITE. -/
def kwSlot (a : List Byte) : Nat := fieldAt a 0 2
def kwTenant (a : List Byte) : Nat := fieldAt a 4 4
def kwKeyId (a : List Byte) : Nat := fieldAt a 8 4
def kwBlob (a : List Byte) : List Byte := slice a 12 96

/-- The key pair that a blob unwraps to, if it is accepted (R418). -/
def unwrapKey (s : State) (a : List Byte) : Option KeySlot :=
  match Config.unwrap s.sec.fuses.deviceSeed (slice (kwBlob a) 0 88) with
  | none => none
  | some p =>
    let b := leBytes 80 p.toNat
    if fieldAt b 64 4 = kwTenant a ∧ fieldAt b 68 4 = kwKeyId a ∧ allZero (slice b 72 8) = true ∧ allZero (slice (kwBlob a) 88 8) = true ∧
        fieldAt b 0 32 ≠ fieldAt b 32 32 then
      some { tenant := kwTenant a, keyId := kwKeyId a, key1 := fieldAt b 0 32, key2 := fieldAt b 32 32 }
    else none

/-- SLOT_MISMATCH, then KEY_INVALID. -/
def keyRefused (a : List Byte) (s : State) : Option (Nat × List Byte) :=
  let other := match s.keySlot (kwSlot a) with
    | some k => k.tenant != kwTenant a
    | none => false
  if other then some (0x49, []) else if (unwrapKey s a).isNone then some (0x48, []) else none

/-- A slot changes at the next beat boundary. -/
def keyLater (s : State) (n : Nat) (k : Option KeySlot) : State :=
  { s with sec := { s.sec with keyPend := s.sec.keyPend ++ [(n, k)] } }

/-- BAD_ARGS of KEY_SLOT_WRITE. -/
def keyArgs (a : List Byte) (_ : State) : Bool :=
  decide (4095 < kwSlot a) || fieldAt a 2 2 != 0 || decide (2 ^ 20 ≤ kwTenant a) || kwKeyId a == 0

/-- A KEY_SLOT_WRITE that ended KEY_INVALID counts. -/
def countInvalid (m : Nat) (s t : State) : State :=
  if refusal m 0x0108 keyArgs keyRefused s = some 0x48 then t.count Reg.secCnt_keyInvalid 1 else t

/-- KEY_SLOT_WRITE. -/
def execKeySlotWrite (m : Nat) (s : State) : Host.Outcome State Fault Refusal :=
  .next (countInvalid m s (takeCommand m 0x0108 never keyArgs keyRefused
    (.now (fun a t => (keyLater t (kwSlot a) (unwrapKey t a), []))) s))

/-- KEY_SLOT_CLEAR. -/
def execKeySlotClear (m : Nat) (s : State) : Host.Outcome State Fault Refusal :=
  .next (takeCommand m 0x0109 never (fun a _ => decide (4095 < fieldAt a 0 2) || fieldAt a 2 2 != 0) accepted
    (.now (fun a t => (keyLater t (fieldAt a 0 2) none, []))) s)

/-! ### Patches (R323, Table 19.7) -/

/-- PATCH_INSTALL: the bundle is verified before the store is written. -/
def installPatch (m : Nat) (a : List Byte) (k : Nat) (s : State) : State :=
  let buf := fieldAt a 0 8
  let n := fieldAt a 8 4
  if s.ueIn buf n then jobDone (readUe s buf n 6) m k 0x6C []
  else
    let b := s.read buf n
    let c := bundleCheck s b
    if c = .ok then jobDone { s with sec := { s.sec with patchStore := b } } m k 0 (leBytes 4 (fieldAt b 12 4))
    else sigInvalid s c m k

/-- PATCH_INSTALL. -/
def execPatchInstall (m : Nat) (s : State) : Host.Outcome State Fault Refusal :=
  .next (takeCommand m 0x010A never
    (fun a t => decide (fieldAt a 8 4 < 64) || decide (262144 < fieldAt a 8 4) || fieldAt a 12 4 != 0 || !bufOk t (fieldAt a 0 8) (fieldAt a 8 4))
    accepted (.job (installPatch m)) s)

/-! ### Attestation (R417) and identity -/

/-- ID_PUB. -/
def State.idPub (s : State) : List Byte := leBytes 32 (Config.idPub s.sec.fuses.deviceSeed).toNat

/-- FUSE_FLAGS of a report. -/
def fuseFlags (s : State) : Nat :=
  b2n s.sec.fuses.roleMgr + 2 * b2n s.sec.fuses.dbgKill +
    4 * (List.range 4).foldl (fun m n => if getAt 0 s.sec.fuses.opHash n = 0 then m else setBit m n) 0 +
    64 * s.fld Reg.coreStatus_patchReject

/-- Bytes 0 to 511 of a report (Table 19.14). -/
def reportBody (s : State) (nonce : List Byte) : List Byte :=
  leBytes 4 0x56525054 ++ leBytes 2 1 ++ leBytes 2 512 ++ leBytes 4 s.dieIdWord ++ leBytes 4 (s.word 0).toNat
    ++ leBytes 4 Config.romRev.toNat ++ leBytes 4 (s.fld Reg.patchLevel_level) ++ leBytes 2 (s.fld Reg.cmdset_version)
    ++ leBytes 1 s.dieState.code ++ leBytes 1 (s.fld Reg.secRole_role) ++ leBytes 4 (fuseFlags s) ++ slice nonce 0 32
    ++ leBytes 8 s.ns ++ leBytes 4 s.modelGen ++ leBytes 1 s.time.state.code ++ leBytes 1 (s.fld Reg.shardStatus_swapState)
    ++ leBytes 2 s.ev.hdr.dieGen ++ leBytes 32 s.sec.fuses.rootHash ++ (List.range 4).flatMap (fun n => leBytes 32 (getAt 0 s.sec.fuses.opHash n))
    ++ (if s.fld Reg.shardStatus_activeValid = 1 then s.shardDigest s.activeBase else List.replicate 32 0)
    ++ slice s.sched.digest 0 32 ++ slice s.sched.attDigest 0 32 ++ slice s.sec.patchDigest 0 32 ++ leBytes 4 s.epoch ++ leBytes 4 0
    ++ slice ((s.sec.map.map (fun t => t.digest)).getD []) 0 32 ++ s.idPub ++ s.mapPub ++ leBytes 16 s.ev.hdr.retired ++ leBytes 8 0

/-- The report and its signature. -/
def reportBytes (s : State) (nonce : List Byte) : List Byte :=
  reportBody s nonce ++ leBytes 17088 (Config.sign128 s.sec.fuses.deviceSeed (sha (reportBody s nonce)))

/-- ATTEST. -/
def execAttest (m : Nat) (s : State) : Host.Outcome State Fault Refusal :=
  .next (takeCommand m 0x010B never (fun a t => !wbufOk t (fieldAt a 32 8) 24576) accepted
    (.job (fun a k t =>
      jobDone ((t.write (fieldAt a 32 8) (reportBytes t (a.take 32))).count Reg.secCnt_attestCnt 1) m k 0 (leBytes 4 17600))) s)

/-- IDENTITY_READ. -/
def execIdentityRead (m : Nat) (s : State) : Host.Outcome State Fault Refusal :=
  .next (takeCommand m 0x010C never never accepted (.now (fun _ t => (t, t.idPub ++ leBytes 4 t.dieIdWord))) s)

/-! ### Endorsements (R321) -/

/-- Verify and keep an endorsement; a takeover map is prepared with it (R414). -/
def installEndorse (m : Nat) (a : List Byte) (k : Nat) (s : State) : State :=
  let buf := fieldAt a 0 8
  if s.ueIn buf endorseLen then jobDone (readUe s buf endorseLen 6) m k 0x6C []
  else
    let e := s.read buf endorseLen
    let c := endorseCheck s e
    if c ≠ .ok then sigInvalid s c m k
    else if enMgr e ≠ s.myId ∨ enMapPub e ≠ s.mapPub then jobDone s m k 0x46 []
    else jobDone (prepareTakeover { s with sec := { s.sec with endorsement := some e, takeoverBuf := fieldAt a 8 8 } }) m k 0 []

/-- ENDORSE_INSTALL. -/
def execEndorseInstall (m : Nat) (s : State) : Host.Outcome State Fault Refusal :=
  .next (takeCommand m 0x010D never
    (fun a t => !bufOk t (fieldAt a 0 8) endorseLen || !wbufOk t (fieldAt a 8 8) 262144)
    (fun _ t => if t.fld Reg.secRole_manager = 1 then none else some (0x43, [])) (.job (installEndorse m)) s)

end Sys2Proof.Machine
end

