-- ==== Sys2Proof/Machine/BootOps.lean ====
section
/-! DEFINITION. Step 2 of ROM_BOOT: the event-log header, DIE_GEN, ALIVE_S and the record of the boot, with the escalation of
counted resets (R377, R378, R387, R391, R393, R403). -/

namespace Sys2Proof.Machine

/-- The next generation of a domain or of the whole die (R387). -/
def nextDgen (g : Nat) : Nat := if g = 0xFFFF then 1 else g + 1

/-- The last two counted resets both lie within 3,600 s (R393). -/
def escalates (h : EvHdr) (alive : Nat) : Bool :=
  h.at0v && h.at1v && decide (alive < h.at0 + 3600) && decide (alive < h.at1 + 3600)

/-- The reset is counted: the reset input, or DOMAIN_RESET 0x0FF. -/
def State.counted (s : State) : Bool := !s.firstBoot && (s.fld Reg.resetCause_cause == 1 || s.fld Reg.resetCause_cause == 2)

/-- Level of the bundle that this boot installs; 0 where it installs none. -/
def State.bootLevel (s : State) : Nat :=
  if s.sec.patchStore.isEmpty = false ∧ s.sec.fuses.checkBad = false ∧ bundleCheck s s.sec.patchStore = .ok then fieldAt s.sec.patchStore 12 4 else 0

/-- The header is read, DIE_GEN advances, ALIVE_S resumes at the first entry after supply was applied, and the boot is
recorded; a counted reset enters escalation. -/
def bootLog (s : State) : State :=
  let h := s.ev.hdr
  let s1 : State := { s with
    ev := { s.ev with nextSeq := s.ev.scanSeq }
    aliveS := if s.firstBoot then h.aliveS + s.aliveS else s.aliveS }
  let g := nextDgen h.dieGen
  let s2 := if s.firstBoot then writeEvent s1 0x05 (leBytes 4 Config.romRev.toNat ++ leBytes 4 s.bootLevel)
    else writeEvent s1 0x10 (leBytes 1 (s.fld Reg.resetCause_cause) ++ leBytes 1 0 ++ leBytes 2 g ++ leBytes 4 0 ++ leBytes 8 s1.aliveS)
  let out := s.counted && escalates h s1.aliveS
  let s3 := if out then writeEvent s2 0x12 (leBytes 8 h.at0 ++ leBytes 8 h.at1 ++ leBytes 8 s1.aliveS) else s2
  let s4 := writeHeader s3 (fun h =>
    let h1 := { h with dieGen := g, oos := h.oos || out }
    if s.counted then { h1 with at0 := h1.at1, at0v := h1.at1v, at1 := s1.aliveS, at1v := true } else h1)
  { s4 with firstBoot := false }

/-- ROM_BOOT has not yet done its step 2. -/
def State.booting (s : State) : Bool := s.dieState == .romBoot && s.fld Reg.secStatus_fuseFail == 0

end Sys2Proof.Machine
end

