-- ==== Sys2Proof/Machine/FabricCmds.lean ====
section
/-! DEFINITION. Time, fabric and memory commands of Table 15.5: REJOIN, DIST_READ, REMOTE_OP, PROTECT_SET,
PROTECT_CLEAR, KV_RECV_OPEN, KV_RECV_CLOSE (R324 to R328). -/

namespace Sys2Proof.Machine

/-- REJOIN (R324): LOST becomes ACQUIRING; the job ends at the boundary at which the die leaves OUT_OF_STEP. -/
def execRejoin (m : Nat) (s : State) : Host.Outcome State Fault Refusal :=
  .next (takeCommand m 0x0201 never never accepted
    (.job (fun _ _ t => if t.time.state = .lost then enterAcquiring t else t)) s)

/-- DIST_READ (R32 to R34, R325): the table is written from one snapshot. -/
def execDistRead (m : Nat) (s : State) : Host.Outcome State Fault Refusal :=
  .next (takeCommand m 0x0202 never (fun a t => !wbufOk t (fieldAt a 0 8) 10384) accepted
    (.now (fun a t => (t.write (fieldAt a 0 8) (distTable t), leBytes 4 t.grid.change))) s)

/-! ### REMOTE_OP (R326) -/

/-- Argument fields of REMOTE_OP. -/
def roOp (a : List Byte) : Nat := fieldAt a 0 1
def roLen (a : List Byte) : Nat := fieldAt a 4 4
def roAddr (a : List Byte) : Nat := fieldAt a 8 8
def roOpnd1 (a : List Byte) : Nat := fieldAt a 16 8
def roOpnd2 (a : List Byte) : Nat := fieldAt a 24 8
def roBuf (a : List Byte) : Nat := fieldAt a 32 8

/-- Fields outside their ranges (R212, R313, Table 15.5). -/
def remoteArgs (a : List Byte) (s : State) : Bool :=
  let op := roOp a
  let n := roLen a
  fieldAt a 1 3 != 0 || op == 0 || decide (6 < op) ||
  (if op = 1 ∨ op = 2 then
     badReq op (fabLocal (roAddr a)) n 0 || roOpnd1 a != 0 || roOpnd2 a != 0 ||
       !(if op = 1 then wbufOk s (roBuf a) n else bufOk s (roBuf a) n)
   else if op = 3 ∨ op = 4 then
     n != 0 || roBuf a != 0 || badReq op (fabLocal (roAddr a)) n 0 || (op == 3 && roOpnd2 a != 0)
   else badReq op (roAddr a) n (roOpnd1 a) || roBuf a != 0 || roOpnd2 a != 0)

/-- The request of a REMOTE_OP: the data of a STORE is read from DATA_BUF, and the request is issued in the beat
after acceptance; with the fabric off the job ends at once. -/
def remoteStart (m : Nat) (a : List Byte) (k : Nat) (s : State) : State :=
  let r : OutReq := { op := roOp a, addr := roAddr a, len := roLen a, opnd1 := roOpnd1 a, opnd2 := roOpnd2 a
                      data := if roOp a = 2 then s.read (roBuf a) (roLen a) else [], issue := s.beat + 1, why := .remoteOp m k }
  if s.fld Reg.fabCfg_en = 0 then jobDone s m k 0x4B (remoteDetail r { status := 4 })
  else if roOp a = 2 ∧ s.ueIn (roBuf a) (roLen a) = true then jobDone (readUe s (roBuf a) (roLen a) 6) m k 0x6C []
  else enqueue s r

/-- REMOTE_OP. -/
def execRemoteOp (m : Nat) (s : State) : Host.Outcome State Fault Refusal :=
  .next (takeCommand m 0x0203 never remoteArgs accepted (.job (remoteStart m)) s)

/-! ### Protected ranges (R327) -/

/-- Ranges as they stand once the pending changes have taken effect. -/
def State.protSoon (s : State) (n : Nat) : Option (Nat × Nat) :=
  match s.fab.protNext.reverse.find? (fun e => e.1 == n) with
  | some e => e.2.map (fun r => (r.1, r.2 + 63))
  | none => s.protRange n

/-- A change of a range waits for the next beat boundary. -/
def protLater (s : State) (n : Nat) (r : Option (Nat × Nat)) : State :=
  { s with fab := { s.fab with protNext := s.fab.protNext ++ [(n, r)] } }

/-- Arguments of PROTECT_SET outside their ranges. -/
def protectArgs (a : List Byte) (_ : State) : Bool :=
  let b := fieldAt a 8 8
  let l := fieldAt a 16 8
  fieldAt a 1 7 != 0 || decide (fieldAt a 0 1 < 2) || decide (15 < fieldAt a 0 1) || b % 64 != 0 || l % 64 != 0 ||
    decide (l < b) || decide (hbmEnd < l + 64)

/-- The new range overlaps another valid one. -/
def protectClash (a : List Byte) (s : State) : Option (Nat × List Byte) :=
  if (List.range 16).any (fun n => n != fieldAt a 0 1 && (match s.protSoon n with
    | some (b, l) => decide (b < fieldAt a 16 8 + 64) && decide (fieldAt a 8 8 ≤ l)
    | none => false)) then some (0x4A, []) else none

/-- PROTECT_SET. -/
def execProtectSet (m : Nat) (s : State) : Host.Outcome State Fault Refusal :=
  .next (takeCommand m 0x0204 never protectArgs protectClash
    (.now (fun a t => (protLater t (fieldAt a 0 1) (some (fieldAt a 8 8, fieldAt a 16 8)), []))) s)

/-- PROTECT_CLEAR. -/
def execProtectClear (m : Nat) (s : State) : Host.Outcome State Fault Refusal :=
  .next (takeCommand m 0x0205 never
    (fun a _ => fieldAt a 1 3 != 0 || decide (fieldAt a 0 1 < 2) || decide (15 < fieldAt a 0 1)) accepted
    (.now (fun a t => (protLater t (fieldAt a 0 1) none, []))) s)

/-! ### Receiving pages (R328) -/

/-- Argument fields of KV_RECV_OPEN. -/
def koIdx (a : List Byte) : Nat := fieldAt a 0 2
def koGen (a : List Byte) : Nat := fieldAt a 2 2
def koUnit (a : List Byte) : Nat := fieldAt a 4 1
def koSlot (a : List Byte) : Nat := fieldAt a 6 2
def koBuf (a : List Byte) : Nat := fieldAt a 8 8
def koLen (a : List Byte) : Nat := fieldAt a 16 4

/-- Descriptors of the source's list. -/
def koCount (a : List Byte) : Nat := (koLen a - 64) / 16

/-- Arguments outside their ranges. -/
def openArgs (a : List Byte) (s : State) : Bool :=
  fieldAt a 5 1 != 0 || !allZero (slice a 20 12) || decide (16383 < koIdx a) || decide (31 < koUnit a) || decide (4095 < koSlot a) ||
    decide (koLen a < 80) || koLen a % 16 != 0 || !bufOk s (koBuf a) (koLen a)

/-- Lowest free handle. -/
def freeHandle (s : State) : Option Nat := (List.range 16).find? (fun h => !s.fab.recv.any (fun r => r.handle == h))

/-- The side that holds a unit's pages. -/
def State.unitSide (s : State) (u : Nat) : Nat := auSide (s.attUnit u)

/-- The four checks of R328 in their order, after the buffer's own. -/
def openRefused (a : List Byte) (s : State) : Option (Nat × List Byte) :=
  let e := s.dirEntry (koIdx a)
  let h := s.read (koBuf a) 64
  if s.ueIn (koBuf a) (koLen a) then some (0x6C, [])
  else if !deBound e || deGen e != koGen a || (s.listOf (koIdx a) (koUnit a)).isNone then some (0x64, [])
  else match s.keySlot (koSlot a) with
  | none => some (0x49, [])
  | some k =>
    if k.tenant ≠ fieldAt h 0 4 ∨ k.keyId ≠ fieldAt h 4 4 then some (0x49, [])
    else if (freeHandle s).isNone then some (0x4A, [])
    else if (freeRun s (s.unitSide (koUnit a)) (koCount a) poolReserve).isNone then some (0x62, [])
    else none

/-- Open the range: contiguous frames, and the source's nonces in the order of its descriptors. -/
def openRange (a : List Byte) (s : State) : State × List Byte :=
  match freeHandle s, freeRun s (s.unitSide (koUnit a)) (koCount a) poolReserve with
  | some h, some f =>
    let r : KvRange := { handle := h, side := s.unitSide (koUnit a), first := f, count := koCount a, idx := koIdx a, gen := koGen a
                         au := koUnit a, slot := koSlot a
                         nonces := (List.range (koCount a)).map (fun i => s.hbm (koBuf a + 64 + 16 * i + 8) 8) }
    let s1 := useRun s r.side f r.count
    ({ s1 with fab := { s1.fab with recv := s1.fab.recv ++ [r] } }, leBytes 1 h ++ List.replicate 7 0 ++ leBytes 8 (f * 65536))
  | _, _ => (s, [])

/-- A refused KV_RECV_OPEN records the uncorrectable granule that its read of the list found (R381). -/
def recordOpen (m : Nat) (s t : State) : State :=
  let a := cmdArgs (s.mb m).cmd
  if refusal m 0x0206 openArgs openRefused s = some 0x6C then readUe t (koBuf a) (koLen a) 6 else t

/-- KV_RECV_OPEN. A granule of the list that is uncorrectable is found first (R314). -/
def execKvRecvOpen (m : Nat) (s : State) : Host.Outcome State Fault Refusal :=
  .next (recordOpen m s (takeCommand m 0x0206 never openArgs openRefused (.now openRange) s))

/-- KV_RECV_CLOSE: the range stops receiving from the next beat boundary. -/
def execKvRecvClose (m : Nat) (s : State) : Host.Outcome State Fault Refusal :=
  .next (takeCommand m 0x0207 never (fun a _ => fieldAt a 1 3 != 0 || decide (15 < fieldAt a 0 1)) accepted
    (.now (fun a t => ({ t with fab := { t.fab with recv := t.fab.recv.map (fun r =>
      if r.handle == fieldAt a 0 1 then { r with closing := true } else r) } }, []))) s)

/-- A part of a frame is complete: 16 of them make the descriptor valid (R328). -/
def rangeFull (r : KvRange) (i : Nat) : Bool := (List.range 16).all (fun p => r.parts.contains (16 * i + p))

/-- At a beat boundary a closing range ends: its frames without a valid descriptor return to the pool. -/
def closeRanges (s : State) : State :=
  let s1 := (s.fab.recv.filter (fun r => r.closing)).foldl (fun t r =>
    (List.range r.count).foldl (fun u i => if rangeFull r i then u else returnFrame u r.side (r.first + i)) t) s
  { s1 with fab := { s1.fab with recv := s1.fab.recv.filter (fun r => !r.closing) } }

end Sys2Proof.Machine
end

