-- ==== Sys2Proof/Machine/FetchOps.lean ====
section
/-! DEFINITION. Fetching and repairing a shard over RoCEv2 (R228 to R232, R329, R330): the source table, reads in
flight, go-back-N recovery, arrival checks of the manifest, tile images and sections, and the end of a fetch. -/

namespace Sys2Proof.Machine

/-! ### The source table (Table 15.7) -/

/-- Entry `k` of a source table. -/
def srcEntry (b : List Byte) (k : Nat) : List Byte := slice b (64 * k) 64

/-- The entries are refused: a port outside P0 to P5, an unknown family, or a port named twice (R329). -/
def srcTableBad (b : List Byte) (n : Nat) : Bool :=
  (List.range n).any (fun k =>
    let e := srcEntry b k
    decide (5 < fieldAt e 0 1) || !(fieldAt e 1 1 == 4 || fieldAt e 1 1 == 6) ||
      (List.range k).any (fun j => fieldAt (srcEntry b j) 0 1 == fieldAt e 0 1))

/-- The sources of a table. -/
def srcsOf (b : List Byte) (n : Nat) : List Src :=
  (List.range n).map (fun k =>
    let e := srcEntry b k
    { port := fieldAt e 0 1, raddr := fieldAt e 16 8, entry := e, psn := fieldAt e 8 3 })

/-- Live sources. -/
def Fetch.live (f : Fetch) : List Nat :=
  (f.srcs.zipIdx).filterMap (fun e => if e.1.live then some e.2 else none)

/-- No source. -/
def noSrc : Src := { port := 0, raddr := 0, entry := [], psn := 0, live := false }

/-! ### Reads in flight (Table 11.5) -/

/-- Length in whole 4 KiB pages. -/
def pageUp (n : Nat) : Nat := (n + 4095) / 4096 * 4096

/-- The next read of an object, as offsets in it: at most 1 MiB from where the last request ended, or from the page
of the first missing byte. -/
def Obj.nextRead (o : Obj) : Option (Nat × Nat) :=
  let a := match o.reads.getLast? with
    | some e => e
    | none => o.got / 4096 * 4096
  if o.done || decide (pageUp o.len ≤ a) then none else some (a, min (a + 1048576) (pageUp o.len))

/-- Reads outstanding at a source. -/
def Fetch.outstanding (f : Fetch) (j : Nat) : Nat :=
  f.objs.foldl (fun n o => if o.src = j then n + o.reads.length else n) 0

/-- Headers of the reads of source j (Table 11.5, Table 15.7). -/
def roceHdr (s : State) (j : Nat) (e : List Byte) : RoceHdr :=
  let n := if fieldAt e 1 1 = 4 then 4 else 16
  { family := fieldAt e 1 1, srcMac := macOf s.myId, dstMac := slice e 24 6, srcIp := slice e 32 n, dstIp := slice e 48 n
    udpSrc := (Config.flowHash (0x100 + j)).toNat, localQp := 0x100 + j, targetQp := fieldAt e 4 3, rkey := fieldAt e 12 4 }

/-- Send one more read to source j, if it has one to send and fewer than 16 outstanding; it leaves as an unscheduled frame. -/
def sendRead (s : State) (j : Nat) : State :=
  match s.shard.fetch with
  | none => s
  | some f =>
    let x := getAt noSrc f.srcs j
    if !x.live || decide (16 ≤ f.outstanding j) then s
    else match (f.objs.zipIdx).find? (fun e => e.1.src == j && e.1.nextRead.isSome) with
    | none => s
    | some (o, i) =>
      match o.nextRead with
      | none => s
      | some (a, b) =>
        let f1 := { f with
          srcs := updAt f.srcs j (fun x => { x with psn := (x.psn + (b - a) / 4096) % 2 ^ 24, flight := x.flight ++ [i] })
          objs := updAt f.objs i (fun o => { o with reads := o.reads ++ [b] }) }
        sendUns { s with shard := { s.shard with fetch := some f1 } } x.port (.roceRead x.port (roceHdr s j x.entry) x.psn (x.raddr + o.off + a) (b - a))

/-- Send every read that the sources may have outstanding. -/
def sendReads (s : State) : State :=
  match s.shard.fetch with
  | none => s
  | some f => f.live.foldl (fun t j => (List.range 16).foldl (fun u _ => sendRead u j) t) s

/-- Pages requested of an object and not yet landed. -/
def Obj.pagesOut (o : Obj) : Nat :=
  match o.reads.getLast? with
  | some e => e / 4096 - o.got / 4096
  | none => 0

/-- Go back to the first missing PSN of source j and send its reads again (Table 11.5). -/
def goBack (s : State) (j : Nat) : State :=
  match s.shard.fetch with
  | none => s
  | some f =>
    let n := f.objs.foldl (fun n o => if o.src = j then n + o.pagesOut else n) 0
    let f1 := { f with
      srcs := updAt f.srcs j (fun x => { x with psn := (x.psn + 2 ^ 24 - n % 2 ^ 24) % 2 ^ 24, tries := x.tries + 1, flight := [] })
      objs := f.objs.map (fun o => if o.src = j then { o with reads := [] } else o) }
    sendReads ({ s with shard := { s.shard with fetch := some f1 } }.count Reg.roceCnt_retransmit 1)

/-- Give objects that wait to live sources, in their order, round-robin (R229). -/
def assignObjs (live : List Nat) (next : Nat) : List Obj → List Obj
  | [] => []
  | o :: l => { o with src := getAt 0 live (next % live.length), reads := [] } :: assignObjs live (next + 1) l

/-! ### The end of a fetch (R330) -/

/-- DETAIL of a fetch: pages landed, live sources, INFO. -/
def fetchDetail (s : State) (f : Fetch) (info : Nat) : List Byte :=
  leBytes 3 (s.fld Reg.fetchPages_pages + 2 ^ 21 * f.live.length) ++ leBytes 1 0 ++ leBytes 4 info

/-- The sources of the last fetch once `f` has ended: those of `f`, or, after a repair, the ones before, at the PSNs that a
repair from them has reached. -/
def lastSources (s : State) (f : Fetch) : List Src :=
  if !f.repair then f.srcs
  else if f.job.isSome then s.shard.lastSrc
  else s.shard.lastSrc.map (fun x => match f.srcs.find? (fun y => y.port == x.port) with
    | some y => { x with psn := y.psn }
    | none => x)

/-- The fetch ends with a status. -/
def endFetch (s : State) (f : Fetch) (status info : Nat) : State :=
  let s1 := { s with shard := { s.shard with fetch := none, lastSrc := lastSources s f } }
  finish s1 f.job status (fetchDetail s f info)

/-- INFO of OBJECT_BAD, as BAD_OBJ. -/
def objInfo (o : Obj) : Nat := if o.kind = 3 then 2 ^ 15 + o.idx else o.idx

/-- Key of an object in the list of bad objects. -/
def Obj.key (o : Obj) : Nat := if o.kind = 4 then 16384 else if o.kind = 3 then 8192 + o.idx else o.idx

/-- Every object has passed: the staging slot is valid (R229), or the repair is complete. -/
def fetchCheckEnd (s : State) : State :=
  match s.shard.fetch with
  | none => s
  | some f =>
    if f.objs.all (fun o => o.done) then
      if f.repair then endFetch s f 0 (s.shardGen f.base)
      else endFetch (s.setFld Reg.shardStatus_stageValid 1) f 0 (s.shardGen f.base)
    else sendReads s

/-! ### Manifest checks (R229) -/

/-- Step 1: bytes 0 to 255. -/
def headOk (s : State) (base : Nat) : Bool :=
  let b := s.read base 256
  let n := fieldAt b 28 2
  fieldAt b 0 4 == 0x5653484D && fieldAt b 4 2 == 1 && fieldAt b 8 4 == s.myId && fieldAt b 12 4 != 0 && fieldAt b 12 4 != 0xFFFFFFFF &&
    decide (n ≤ 256) && fieldAt b 32 4 == sigOff n && decide (sigOff n + sigLen ≤ fieldAt b 16 8) && decide (fieldAt b 16 8 ≤ 2 ^ 32)

/-- Step 2: the signature of R225. -/
def shardSigOk (s : State) (base : Nat) : Bool :=
  let off := sigOff (s.shardSections base)
  let b := s.read base (off + sigLen)
  operatorKey s (fieldAt b 6 1) (slice b 64 48) && sigOk (slice b 64 48) (b.take off) (b.drop off)

/-- Bytes of a tile image. -/
def imageLen : Nat := 270336

/-- Tile images and sections as objects, by ascending offset. -/
def shardObjs (s : State) (base : Nat) : List Obj :=
  let tiles := (List.range 8192).filterMap (fun t =>
    if s.tilePresent base t then some { off := s.hbm (tileEntryAddr base t) 8, len := imageLen, kind := 2, idx := t, src := 0 } else none)
  let secs := (List.range (s.shardSections base)).map (fun k =>
    { off := s.hbm (sectionAddr base k + 8) 8, len := s.hbm (sectionAddr base k + 16) 8, kind := 3, idx := k, src := 0 })
  (tiles ++ secs).mergeSort (fun a b => a.off ≤ b.off)

/-- Objects in ascending order do not overlap, begin at or after `lo`, and end by `hi`. -/
def objsFit (hi : Nat) : Nat → List Obj → Bool
  | _, [] => true
  | lo, o :: l => decide (lo ≤ o.off) && decide (o.off + o.len ≤ hi) && objsFit hi (o.off + o.len) l

/-! ### Arrival checks (R230) -/

/-- A digit of logical column c is in the range of its width (Tables 4.1, 4.2), and 0 at an unused output (R227). -/
def digitOk (x : Slice) (c : Nat) (d : Int) : Bool :=
  let within (lo hi : Nat) : Bool := decide (-(lo : Int) ≤ d) && decide (d ≤ (hi : Int))
  if x.outs ≤ (if x.wide then c / 2 else c) then d == 0
  else if x.w = 1 then d == 1 || d == -1
  else if !x.wide then within (2 ^ (x.w - 1)) (2 ^ (x.w - 1) - 1)
  else if c % 2 = 0 then within (2 ^ (x.w - 5)) (2 ^ (x.w - 5)) else within 8 7

/-- Every byte of LEVELS meets R227; `b` holds one row of 520 bytes. -/
def levelsOk (x : Slice) (b : List Byte) : Bool :=
  (b.zipIdx).all (fun e =>
    let v := e.1.toNat
    if 512 ≤ e.2 then v == 0 else (v % 16 == 0 || v / 16 == 0) && digitOk x e.2 (digitOf v))

/-- Rows of a byte string. -/
def rowsOf (n : Nat) : Nat → List Byte → List (List Byte)
  | 0, _ => []
  | k + 1, b => b.take n :: rowsOf n k (b.drop n)

/-- A slice-map entry has the form of Table 4.3: reserved bits 0, BSHIFT at most 8 − w, at most 256 outputs at widths 5 to 8. -/
def sliceForm (v : Nat) : Bool :=
  bits v 3 1 == 0 && bits v 7 1 == 0 && bits v 17 15 == 0 && bits v 60 4 == 0 &&
    decide ((sliceOf v).shift + (sliceOf v).w ≤ 8) && (!(sliceOf v).wide || decide ((sliceOf v).outs ≤ 256))

/-- Format fields and levels of a tile image (Table 11.4, R227). -/
def imageOk (b : List Byte) (tile gen : Nat) : Bool :=
  fieldAt b 0 4 == 0x5654494C && fieldAt b 4 2 == 1 && fieldAt b 6 2 == tile && fieldAt b 8 4 == gen && fieldAt b 12 4 == 0 &&
    allZero (slice b 24 40) && allZero (slice b 266304 4032) && sliceForm (fieldAt b 16 8) &&
    (rowsOf 520 512 (b.drop 64)).all (levelsOk (sliceOf (fieldAt b 16 8)))

/-- Format fields of a section entry (Table 11.3). -/
def sectionEntryOk (e : List Byte) : Bool :=
  let typ := fieldAt e 0 2
  let len := fieldAt e 16 8
  fieldAt e 8 8 % 4096 == 0 && allZero (slice e 24 8) && fieldAt e 4 4 % 64 == 0 &&
    (if typ = 1 then decide (fieldAt e 2 2 < 64) && decide (len ≤ 0x200000) && decide (fieldAt e 4 4 + len ≤ 0x200000)
     else if typ = 2 then decide (fieldAt e 2 2 < 64) && decide (len ≤ 0x100000) && decide (fieldAt e 4 4 + len ≤ 0x100000)
     else typ == 3 && fieldAt e 4 4 == 0 && len == imageLen)

/-- The digest of section k of a shard equals its entry's, and its format is right. -/
def sectionOk (s : State) (base k : Nat) : Bool :=
  let e := s.read (sectionAddr base k) 64
  let b := s.read (base + fieldAt e 8 8) (fieldAt e 16 8)
  sectionEntryOk e && sha b == slice e 32 32 && (fieldAt e 0 2 != 3 || imageOk b 0xFFFF (s.shardGen base))

/-- The same of tile t's image. -/
def tileImageOk (s : State) (base t : Nat) : Bool :=
  let e := s.read (tileEntryAddr base t) 48
  let b := s.read (base + fieldAt e 0 8) imageLen
  fieldAt e 0 8 % 4096 == 0 && bits (fieldAt e 12 4) 1 31 == 0 && sha b == slice e 16 32 && imageOk b t (s.shardGen base)

/-- The signed part of the active manifest still has the digest it was verified with (R231). -/
def manifestOk (s : State) : Bool := sha (s.read s.activeBase s.shard.signed) == s.shard.digest

/-- The arrival check of a tile image, a section, or the active manifest. -/
def objOk (s : State) (base : Nat) (o : Obj) : Bool :=
  if o.kind = 2 then tileImageOk s base o.idx else if o.kind = 3 then sectionOk s base o.idx else manifestOk s

/-- Change the running fetch. -/
def updFetch (s : State) (g : Fetch → Fetch) : State := { s with shard := { s.shard with fetch := s.shard.fetch.map g } }

/-- An object passed: it is done, and no longer bad in a repair. -/
def objPassed (s : State) (f : Fetch) (i : Nat) (o : Obj) : State :=
  let s1 := updFetch s (fun f => { f with objs := updAt f.objs i (fun o => { o with done := true, reads := [] }) })
  fetchCheckEnd (if f.repair then { s1 with shard := { s1.shard with bad := s1.shard.bad.filter (fun k => k != o.key) } } else s1)

/-- An object failed its check: it is read again, until the third failure in a row, which ends the fetch. A read
after a re-digest then gives the object up (R231). -/
def objFailed (s : State) (f : Fetch) (i : Nat) (o : Obj) : State :=
  let s1 := s.count Reg.shardErrCnt_arrivalFail 1
  if o.fails < 2 then
    sendReads (updFetch s1 (fun f => { f with objs := updAt f.objs i (fun o => { o with got := 0, reads := [], fails := o.fails + 1 }) }))
  else if f.repair && f.job.isNone then
    fetchCheckEnd (updFetch s1 (fun f => { f with objs := updAt f.objs i (fun o => { o with done := true, reads := [] }) }))
  else endFetch s1 f 0x4F (objInfo o)

/-- The last byte of object i has landed (R229, R230). -/
def objLanded (s : State) (f : Fetch) (i : Nat) (o : Obj) : State :=
  if o.kind = 0 then
    if headOk s f.base then
      let rest : Obj := { off := 0, len := sigOff (s.shardSections f.base) + sigLen, kind := 1, idx := 0, src := o.src, got := 256 }
      sendReads (updFetch s (fun f => { f with objs := [{ o with done := true, reads := [] }, rest] }))
    else endFetch s f 0x4D 0
  else if o.kind = 1 then
    if !shardSigOk s f.base then endFetch (sigFail s) f 0x46 0
    else
      let l := shardObjs s f.base
      if !objsFit (s.hbm (f.base + 16) 8) (sigOff (s.shardSections f.base) + sigLen) l then endFetch s f 0x4D 0
      else match l.find? (fun o => o.len == 0 && !objOk s f.base o) with
      | some o => endFetch s f 0x4F (objInfo o)
      | none => fetchCheckEnd (updFetch s (fun f =>
          { f with objs := assignObjs f.live f.next (l.map (fun o => { o with done := o.len == 0 })), next := f.next + l.length }))
  else if objOk s f.base o then objPassed s f i o
  else objFailed s f i o

/-- Data of a READ response from source j, holding shard bytes from `off`: what continues the oldest read outstanding there
lands in HBM; anything else is out of sequence and discarded, as is all that a link out of service brings (R182). -/
def landData (s : State) (j off : Nat) (data : List Byte) : State :=
  match s.shard.fetch with
  | none => s
  | some f =>
    let x := getAt noSrc f.srcs j
    let wants (o : Obj) : Bool := o.src == j && !o.done && !o.reads.isEmpty &&
      decide (off ≤ o.off + o.got) && decide (o.off + o.got < off + data.length)
    if !x.live || !s.linkUp x.port || decide (4096 < data.length) then s
    else match (f.objs.zipIdx).find? (fun e => x.flight.head? == some e.2 && wants e.1) with
    | none => s
    | some (o, i) =>
      let part := (data.drop (o.off + o.got - off)).take (o.len - o.got)
      let got := o.got + part.length
      let o1 := { o with got := got, reads := if got = o.len then [] else o.reads.filter (fun e => decide (got < e)) }
      let f1 := { f with objs := setAt f.objs i o1, srcs := updAt f.srcs j (fun x => { x with tries := 0, flight := x.flight.drop (o.reads.length - o1.reads.length) }) }
      let s1 := ({ s with shard := { s.shard with fetch := some f1 } }.write (f.base + o.off + o.got) part).count Reg.fetchPages_pages 1
      if got = o.len then objLanded s1 f1 i o1 else sendReads s1

/-! ### Sources lost (Table 11.5) -/

/-- A read of source j is retried, or after seven retries the source is dropped; its objects go to the others. -/
def retryOrDrop (s : State) (j : Nat) : State :=
  match s.shard.fetch with
  | none => s
  | some f =>
    let x := getAt noSrc f.srcs j
    if !x.live || f.outstanding j == 0 then s
    else if x.tries < 7 then goBack s j
    else
      let s1 := s.count Reg.roceCnt_qpError 1
      let f1 := { f with srcs := updAt f.srcs j (fun x => { x with live := false }) }
      if f1.live.isEmpty then endFetch s1 f1 0x4E 0
      else
        let n := (f1.objs.filter (fun o => o.src == j && !o.done)).length
        let give (o : Obj) (k : Nat) : Obj := { o with src := getAt 0 f1.live ((f1.next + k) % f1.live.length), reads := [] }
        let objs := (f1.objs.zipIdx).map (fun e =>
          if e.1.src = j ∧ e.1.done = false then give e.1 ((f1.objs.take e.2).filter (fun o => o.src == j && !o.done)).length else e.1)
        sendReads { s1 with shard := { s1.shard with fetch := some { f1 with objs := objs, next := f1.next + n } } }

/-! ### Starting -/

/-- Start a fetch into the staging slot: bytes 0 to 255 of the manifest from source 0 (R229). -/
def startFetch (s : State) (job : Nat × Nat) (srcs : List Src) : State :=
  let f : Fetch := { job := some job, repair := false, base := s.stageBase, srcs := srcs, objs := [{ off := 0, len := 256, kind := 0, idx := 0, src := 0 }] }
  sendReads ({ s with shard := { s.shard with fetch := some f } }.setFld Reg.shardStatus_stageValid 0 |>.setFld Reg.fetchPages_pages 0)

/-- Object of a bad key of the active slot. -/
def badObj (s : State) (k : Nat) : Obj :=
  if k < 8192 then { off := s.hbm (tileEntryAddr s.activeBase k) 8, len := imageLen, kind := 2, idx := k, src := 0 }
  else if k < 16384 then
    { off := s.hbm (sectionAddr s.activeBase (k % 8192) + 8) 8, len := s.hbm (sectionAddr s.activeBase (k % 8192) + 16) 8, kind := 3, idx := k % 8192, src := 0 }
  else { off := 0, len := s.shard.signed, kind := 4, idx := 0, src := 0 }

/-- Read the bad objects of the active slot again, the manifest first, from sources (R231, R330). -/
def startRepair (s : State) (job : Option (Nat × Nat)) (srcs : List Src) : State :=
  let l := (s.shard.bad.map (badObj s)).mergeSort (fun a b => a.off ≤ b.off)
  let f : Fetch := { job := job, repair := true, base := s.activeBase, srcs := srcs, objs := [] }
  let f1 := { f with objs := assignObjs f.live 0 l, next := l.length }
  let s1 := (s.count Reg.shardErrCnt_refetch l.length).setFld Reg.fetchPages_pages 0
  fetchCheckEnd { s1 with shard := { s1.shard with fetch := some f1, reread := false } }

end Sys2Proof.Machine
end

