-- ==== Sys2Proof/Machine/ProgOps.lean ====
section
/-! DEFINITION. Cowslip programming (R233 to R236): ledgers, sets and waves, the order of R315; the model swap's
states (R239); and the condition under which JOINED becomes LOADED (R236). -/

namespace Sys2Proof.Machine

/-! ### Ledger (R235) -/

/-- Write a tile's ledger entry into the copy that does not hold the last one. -/
def writeLedger (s : State) (t gen dig : Nat) : State :=
  s.updTile t (fun x =>
    let e : LedRec := { gen := gen, wseq := (x.ledger.wseq + 1) % 2 ^ 32, dig := dig }
    if x.ledLastB then { x with ledger := e, ledA := some e, ledLastB := false }
    else { x with ledger := e, ledB := some e, ledLastB := true })

/-- The entry in use at field power-up: the valid copy, the later one in serial-number order. -/
def ledgerOf (a b : Option LedRec) : LedRec × Bool :=
  match a, b with
  | none, none => ({}, true)
  | some x, none => (x, false)
  | none, some y => (y, true)
  | some x, some y =>
    let d := (x.wseq + 2 ^ 32 - y.wseq) % 2 ^ 32
    if 1 ≤ d ∧ d < 2 ^ 31 then (x, false) else (y, true)

/-- The tile's ledger matches a shard (R236). -/
def State.ledgerMatch (s : State) (base t : Nat) : Bool :=
  (s.tile t).ledger.gen == s.shardGen base && (s.tile t).ledger.dig == s.digest8 base t

/-! ### Units -/

/-- Units that hold present tiles on the die. -/
def State.tileUnits (s : State) : List Nat :=
  (((List.range 8192).filter (s.tilePresent s.activeBase)).map (s.tileUnit s.activeBase)).foldl (fun l u => if l.contains u then l else l ++ [u]) []

/-- Every unit of the die: those of its tiles and those of the unit map. -/
def State.dieUnits (s : State) : List Nat :=
  s.units.foldl (fun l u => if l.contains u then l else l ++ [u]) s.tileUnits

/-- Give every unit one generation. -/
def setAllGens (s : State) (g : Nat) : State := s.dieUnits.foldl (fun t u => setUnitGen t u g) s

/-! ### LOADED (R236, R404) -/

/-- Every converter of a field that is in use has had an accepted trim since the field was powered (R110). -/
def State.trimmed (s : State) (f : Nat) : Bool :=
  (fieldTiles f).all (fun t => (s.tile t).live.retired ||
    (List.range 66).all (fun k => convOut (s.tile t) k || (s.conv t k).once))

/-- The conditions of R236. -/
def State.loadable (s : State) : Bool :=
  s.fld Reg.shardStatus_activeValid == 1 && s.installed &&
    (List.range 8192).all (fun t => !s.tilePresent s.activeBase t || !s.powered (tileField t) || (s.tile t).live.retired || s.ledgerMatch s.activeBase t) &&
    (List.range 64).all (fun f => !s.powered f || s.trimmed f)

/-- A job is done after which JOINED may become LOADED. -/
def loadedCheck (s : State) : State := if s.dieState = .joined ∧ s.loadable = true then enterState s .loaded else s

/-- A die that comes back from HOLDOVER to JOINED takes up the event that waited (Table 19.4); `s` is the state before. -/
def relockCheck (s t : State) : State := if s.dieState = .holdover ∧ t.dieState = .joined then loadedCheck t else t

/-! ### Sets and waves (R233) -/

/-- Waves of a set: the tile at position p goes to wave p mod ceil(count / 512). -/
def wavesOf (ts : List (Nat × Nat)) : List (List (Nat × Nat)) :=
  let n := (ts.length + 511) / 512
  (List.range n).map (fun w => (ts.zipIdx).filterMap (fun e => if e.2 % n = w then some e.1 else none))

/-- A tile may be programmed now: present, not retired, its field powered and out of reset. -/
def State.programmable (s : State) (t : Nat) : Bool :=
  s.tilePresent s.activeBase t && s.sramPresent (tileField t) && !(s.tile t).live.retired && (s.tile t).retire.isNone

/-- The tiles that a set programs, by ascending tile index, each with its shard. -/
def progSet (s : State) (p : Prog) : List (Nat × Nat) :=
  match p.why with
  | .shard =>
    let match_ := match p.job with
      | some (m, k) => fieldAt (s.job m k).args 0 1 == 1
      | none => false
    ((List.range 8192).filter (fun t => s.programmable t && !(match_ && s.ledgerMatch s.activeBase t))).map (fun t => (t, s.activeBase))
  | .rewrite =>
    let u := s.fld Reg.swapUnit_unitId
    ((List.range 8192).filter (fun t => s.programmable t && s.tileUnit s.activeBase t == u)).map (fun t => (t, s.stageBase))
  | .abort =>
    ((List.range 8192).filter (fun t => s.programmable t && !s.ledgerMatch s.activeBase t)).map (fun t => (t, s.activeBase))
  | .bringUp f =>
    ((fieldTiles f).mergeSort (fun a b => a ≤ b)).filterMap (fun t =>
      if s.programmable t && !s.ledgerMatch (s.tileBase t) t then some (t, s.tileBase t) else none)

/-- Present tiles of powered fields that SHARD_PROGRAM does not program. -/
def progSkipped (s : State) (ts : List (Nat × Nat)) : Nat :=
  ((List.range 8192).filter (fun t => s.tilePresent s.activeBase t && s.sramPresent (tileField t))).length - ts.length

/-- Tiles left in the waves of a set. -/
def Prog.left (p : Prog) : Nat := p.waves.foldl (fun n w => n + w.length) 0

/-- Replace the running set. -/
def setHead (s : State) (p : Prog) : State := { s with shard := { s.shard with progs := p :: s.shard.progs.drop 1 } }

/-- Show the running set in PROG_STAT and in its job's PROGRESS. -/
def showProg (s : State) (p : Prog) : State :=
  let s1 := (s.setFld Reg.progStat_tilesLeft p.left).setFld Reg.progStat_wave p.wave
  match p.job with
  | some (m, k) => s1.updJob m k (fun j => { j with progress := min 65535 (p.done * 65536 / max 1 (p.done + p.left)) })
  | none => s1

/-- The tiles of the next wave lose their ledger entries before any pulse (R235). -/
def beginWave (s : State) (p : Prog) : State :=
  match p.waves with
  | w :: _ => showProg (w.foldl (fun t e => writeLedger t e.1 0 0) s) p
  | [] => showProg s p

/-- Load the FIELD_SRAM and NETTLE_STORE sections of a shard that `p` selects by field into fields that hold their
memories; a section with an uncorrectable granule gives no data and is not loaded (R236, R380, R381). -/
def loadGood (s : State) (base : Nat) (p : Nat → Bool) : State :=
  (List.range (s.shardSections base)).foldl (fun t k =>
    let f := t.hbm (sectionAddr base k + 2) 2
    let typ := t.hbm (sectionAddr base k) 2
    if (typ = 1 ∨ typ = 2) ∧ p f = true ∧ f < 64 ∧ t.sramPresent f = true then
      let t1 := if base = t.activeBase then readObject t (8192 + k) (base + t.hbm (sectionAddr base k + 8) 8) (t.hbm (sectionAddr base k + 16) 8) else t
      if t1.ueIn (base + t1.hbm (sectionAddr base k + 8) 8) (t1.hbm (sectionAddr base k + 16) 8) = true then t1
      else loadSection t1 base k
    else t) s

/-! ### The model swap (R239) -/

/-- The swap returns to IDLE. -/
def swapIdle (s : State) : State :=
  let s1 := (s.setFld Reg.shardStatus_swapState 0).setFld Reg.modelGenNext_gen 0
  { s1 with shard := { s1.shard with rewritten := [], unitNext := none, commitAt := none } }

/-- Every tile of the unit being rewritten in a powered field is complete or retired. -/
def State.unitComplete (s : State) : Bool :=
  let u := s.fld Reg.swapUnit_unitId
  (List.range 8192).all (fun t => !s.tilePresent s.activeBase t || s.tileUnit s.activeBase t != u || !s.powered (tileField t) ||
    (s.tile t).live.retired || (s.tile t).retire.isSome || s.ledgerMatch s.stageBase t)

/-- REWRITING becomes UNIT_DONE. -/
def unitDone (s : State) (p : Prog) : State :=
  let u := s.fld Reg.swapUnit_unitId
  let s1 := (setUnitGen s u (s.fld Reg.modelGenNext_gen)).setFld Reg.shardStatus_swapState 3
  let s2 := { s1 with shard := { s1.shard with unitNext := none, rewritten := s1.shard.rewritten ++ [u] } }
  finish s2 p.job 0 (leBytes 2 p.retired)

/-- ABORTING becomes IDLE. -/
def abortDone (s : State) (p : Prog) : State :=
  let s1 := (setAllGens s s.modelGen).setFld Reg.shardStatus_stageValid 0
  finish (unhold (swapIdle s1)) p.job 0 []

/-! ### Running the sets (R233, R315) -/

/-- The running set has no wave left: what its command does then. The set stays while a unit being rewritten waits for
a field that is being reset (R239). -/
def progEnd (s : State) (p : Prog) : State :=
  let s0 := { s with shard := { s.shard with progs := s.shard.progs.drop 1 } }
  match p.why with
  | .shard =>
    let s1 := setAllGens s0 s0.modelGen
    loadedCheck (finish s1 p.job 0 (leBytes 2 p.done ++ leBytes 2 p.retired ++ leBytes 2 p.skipped))
  | .rewrite => if s.swapState = 2 then if s.unitComplete then unitDone s0 p else s else s0
  | .abort => abortDone s0 p
  | .bringUp _ => s0

/-- Begin the first set if it has not begun: its tiles are sorted into waves; SHARD_PROGRAM first loads every
section (R236). -/
def progBegin (s : State) : State :=
  match s.shard.progs with
  | [] => s
  | p :: _ =>
    if p.begun then s
    else
      let s1 := if p.why = .shard then loadGood s s.activeBase (fun _ => true) else s
      let ts := progSet s1 p
      let p1 := { p with begun := true, waves := wavesOf ts, skipped := if p.why = .shard then progSkipped s1 ts else 0 }
      beginWave (setHead s1 p1) p1

/-- Go on with the sets in their order: begin the first, and end every set without a wave. -/
def progRun : Nat → State → State
  | 0, s => s
  | n + 1, s =>
    let s1 := progBegin s
    match s1.shard.progs with
    | [] => s1
    | p :: rest =>
      if p.waves.isEmpty then
        let s2 := progEnd s1 p
        if s2.shard.progs.length = rest.length then progRun n s2 else s2
      else s1

/-- Go on with every set. -/
def runProgs (s : State) : State := progRun (s.shard.progs.length + 1) s

/-- A new set waits for its turn, or begins (R315). -/
def addProg (s : State) (p : Prog) : State := runProgs { s with shard := { s.shard with progs := s.shard.progs ++ [p] } }

/-- One tile of a wave is programmed; failed columns are handled within the wave (R234, R120); a tile that is retired
by it gets no ledger entry and no wear. -/
def programDone (s : State) (t base : Nat) (failed : List Nat) : State :=
  let s1 := failed.foldl (failColumn t) (programTile (notePulse s t) t (s.imageAddr base t))
  if (s1.tile t).retire.isSome then s1
  else chargeWear (writeLedger s1 t (s1.shardGen base) (s1.digest8 base t)) t 1024

/-- The running wave ends: `out` gives a tile's failed columns, none for a tile that is not complete. -/
def waveEnd (s : State) (out : Nat → Option (List Nat)) : State :=
  match s.shard.progs with
  | [] => s
  | p :: _ =>
    match p.waves with
    | [] => s
    | w :: ws =>
      if !p.begun then s
      else
        let s1 := w.foldl (fun a e =>
          match out e.1 with
          | some l => programDone a e.1 e.2 l
          | none => (retireTile a e.1 5).count Reg.progStat_retired 1) s
        let late := (w.filter (fun e => (out e.1).isNone)).length
        let gone := (w.filter (fun e => (s1.tile e.1).retire.isSome)).length
        let p1 := { p with
          waves := ws, wave := p.wave + 1, retired := p.retired + (if p.why = .rewrite then gone else late), done := p.done + w.length - gone }
        runProgs (beginWave (setHead s1 p1) p1)

/-- A field is gated or reset: its tiles leave every set (R239). -/
def dropTiles (s : State) (f : Nat) : State :=
  { s with shard := { s.shard with progs := s.shard.progs.map (fun p =>
      { p with waves := p.waves.map (fun w => w.filter (fun e => tileField e.1 != f)) }) } }

end Sys2Proof.Machine
end

