-- ==== Sys2Proof/Machine/LossOps.lean ====
section
/-! DEFINITION. Jobs whose buffer's memory is lost before the die has finished with it (R314), and the references to jobs
that a change of the die state abandons (R316). -/

namespace Sys2Proof.Machine

/-- A buffer overlaps the lost range [lo, hi). -/
def inLoss (lo hi a n : Nat) : Bool := decide (a < hi) && decide (lo < a + n)

/-- A job reads or writes a buffer in the lost range: a REMOTE_OP LOAD, a REF_RUN, and an install that waits for a domain. -/
def jobInLoss (s : State) (lo hi : Nat) (j : Nat × Nat) : Bool :=
  let b := s.job j.1 j.2
  if b.opcode = 0x0203 then roOp b.args == 1 && inLoss lo hi (roBuf b.args) (roLen b.args)
  else if b.opcode = 0x030E then inLoss lo hi (fieldAt b.args 8 8) 512 || inLoss lo hi (fieldAt b.args 16 8) 6144
  else if b.opcode = 0x0305 then inLoss lo hi (fieldAt b.args 0 8) (s.hbm (fieldAt b.args 0 8 + 8) 8 + fieldAt b.args 8 4 + 4096)
  else false

/-- What still runs for job `j` no longer names it: the answer of its request is dropped, its reference runs end. -/
def forgetJob (s : State) (j : Nat × Nat) : State :=
  let cut (r : OutReq) : OutReq := if r.why = .remoteOp j.1 j.2 then { r with why := .remoteOp 8 0 } else r
  (s.grid.tiles.map (fun e => e.1)).foldl (fun u k => u.updTile k (fun x => { x with refRuns := x.refRuns.filter (fun r => r.job != some j) }))
    { s with fab := { s.fab with reqs := s.fab.reqs.map cut, waiting := s.fab.waiting.map cut } }

/-- Memory [lo, hi) is lost: jobs that still use a buffer in it end JOB_ABANDONED; maps being signed there are dropped. -/
def loseBuffers (s : State) (lo hi : Nat) : State :=
  let js := ([0x0203, 0x030E, 0x0305].flatMap s.jobsOf).filter (jobInLoss s lo hi)
  let s1 := js.foldl (fun t j => jobDone (forgetJob t j) j.1 j.2 0x08 []) s
  let gone := s1.sec.mapSign.filter (fun m => inLoss lo hi (fabLocal m.1.addr) m.1.len)
  let s2 := { s1 with sec := { s1.sec with mapSign := s1.sec.mapSign.filter (fun m => !inLoss lo hi (fabLocal m.1.addr) m.1.len) } }
  gone.foldl (fun t m => finish t m.2 0x08 []) s2

/-- Every job has been abandoned: nothing that waits or runs names one any longer. -/
def forgetJobs (s : State) : State :=
  let cut (r : OutReq) : OutReq := match r.why with
    | .remoteOp _ _ => { r with why := .remoteOp 8 0 }
    | _ => r
  let s1 : State := { s with
    domResets := []
    fab := { s.fab with reqs := s.fab.reqs.map cut, waiting := s.fab.waiting.map cut }
    sec := { s.sec with mapPend := s.sec.mapPend.map (fun p => (p.1, none)), mapSign := s.sec.mapSign.map (fun p => (p.1, none)) }
    shard := { s.shard with
      fetch := none, commitAt := s.shard.commitAt.map (fun c => (c.1, none)), progs := s.shard.progs.map (fun p => { p with job := none }) } }
  let s2 := (s1.grid.tiles.map (fun e => e.1)).foldl (fun u k => u.updTile k (fun x => { x with refRuns := [] })) s1
  (s2.seqs.table.map (fun e => e.1)).foldl (fun u k => u.updSeq k (fun e => { e with job := none })) s2

/-- Every RUNNING job ends JOB_ABANDONED on entry to THERMAL_SHUTDOWN or OUT_OF_SERVICE (R316). -/
def abandonAll (s : State) : State := forgetJobs (abandonJobs s)

end Sys2Proof.Machine
end

