-- ==== Sys2Proof/Machine/BringUp.lean ====
section
/-! DEFINITION. A field's domain comes and goes: what gating and a domain reset lose (R350, R364, R388), what
powering loads (R123, R235, R360), and the bring-up of R240 with R241 and R407. -/

namespace Sys2Proof.Machine

/-! ### Losing a field's contents -/

/-- A tile whose field loses its registers: reservations, calibration state and running work are gone; what
resistive memory holds, and the age that the core keeps counting (R118), stay. -/
def dropTile (x : Tile) : Tile :=
  { x with rangeNext := none, winConv := 0, winSat := 0, winNear := 0, closed := [], fine := 0, res := [], convs := [], refM := 0
           refRowM := 0, sampled := false, check := none, refRuns := [], lastTq := 0, deadSpares := 0, drove := 0, pulsed := 0 }

/-- Abandon the REF_RUNs of a tile (R336). -/
def abandonRuns (s : State) (t : Nat) : State := (s.tile t).refRuns.foldl (fun a k => finish a k.job 0x08 []) s

/-- A field loses its share of every resident adapter (R102). -/
def loseAdapters (s : State) (f : Nat) : State :=
  { s with grid := { s.grid with adapters := s.grid.adapters.map (fun a => if a.lost.contains f then a else { a with lost := f :: a.lost }) } }

/-- A field's SRAM, lanes, Nettle store and sequencers lose their contents, and its registers their values; TQ_CUR
returns to TQ_INIT (Table 5.6). -/
def loseField (s : State) (f : Nat) : State :=
  let s1 := (fieldTiles f).foldl (fun a t => (abandonRuns a t).updTile t dropTile) (loseBuffers s (sramAddr f 0) (sramAddr (f + 1) 0))
  let s2 := { s1 with
    mem := sclear (sramAddr f 0) (sramAddr (f + 1) 0) s1.mem
    sue := s1.sue.filter (fun g => decide (8 * g < sramAddr f 0) || decide (sramAddr (f + 1) 0 ≤ 8 * g))
    grid := { s1.grid with
      lanes := sclear (f * 65536) (f * 65536 + 65536) s1.grid.lanes
      nettle := sclear (f * 2 ^ 20) (f * 2 ^ 20 + 2 ^ 20) s1.grid.nettle
      scans := sclear (f * 256) (f * 256 + 256) s1.grid.scans
      tqWin := sclear (f * 64) (f * 64 + 64) s1.grid.tqWin
      shadows := s1.grid.shadows.filter (fun h => h.field != f) } }
  initTq (resetField (loseAdapters s2 f) f) f

/-- Stage of a field's bring-up: 0 none; 1 waits for power; 2 programming is due; 20 it runs; 3 trims; 4 the drift
sample begins; 40 it runs; 5 sections; 6 the enable; 7 a step failed, and the field stays disabled until it is gated (R240). -/
def State.stage (s : State) (f : Nat) : Nat := sget zeroNat s.shard.bringUp f

/-- Move a field's bring-up. -/
def setStage (s : State) (f n : Nat) : State := { s with shard := { s.shard with bringUp := sset zeroNat s.shard.bringUp f n } }

/-- Passes that a field's enable waits for (R354). -/
def State.passWait (s : State) (f : Nat) : Nat := sget zeroNat s.spw.waits f

/-- Change it. -/
def setPassWait (s : State) (f n : Nat) : State := { s with spw := { s.spw with waits := sset zeroNat s.spw.waits f n } }

/-- Gate field `f` at a beat boundary (R350, R364). -/
def gateField (s : State) (f : Nat) : State :=
  if s.powered f then
    let s1 := loseField (setFieldEn (storeGated s f) f false) f
    let s2 := dropTiles (setPassWait (setStage s1 f 0) f 0) f
    { s2 with pow := { s2.pow with pdOn := clrBit s2.pow.pdOn f, pdReq := s2.pow.pdReq.filter (fun d => d != f) }
              grid := { s2.grid with change := s2.grid.change + 1 } }
  else
    let s1 := setStage s f 0
    { s1 with pow := { s1.pow with pdReq := s1.pow.pdReq.filter (fun d => d != f), pdBegun := s1.pow.pdBegun.filter (fun d => d != f) } }

/-! ### Loading records and ledgers (R123, R235) -/

/-- The copy of a tile record in use: the valid one, the later SAVE_TIME where both are valid, and of two of one SAVE_TIME
the one written last. -/
def recordOf (a b : Option TileRec) (lastB : Bool) : Option (TileRec × Bool) :=
  match a, b with
  | none, none => none
  | some x, none => some (x, false)
  | none, some y => some (y, true)
  | some x, some y => if y.saveTime < x.saveTime ∨ (y.saveTime = x.saveTime ∧ lastB = false) then some (x, false) else some (y, true)

/-- CONV_MAP without its temporary stand-ins: the trims they stood in for are over (R55). -/
def permOnly (m : Nat) : Nat := [64, 65].foldl (fun a k => if cmActive a k && !cmPerm a k then cmSet a k false false 0 else a) m

/-- Load one tile's record and ledger; `keep` keeps the age that the core has counted while the field was gated. Without a
valid copy the tile is retired with cause 4, from the next beat boundary (R57, R123), which writes its record. -/
def loadTile (keep : Bool) (s : State) (t : Nat) : State :=
  let x := s.tile t
  let l := ledgerOf x.ledA x.ledB
  let s1 := s.updTile t (fun x => { x with ledger := l.1, ledLastB := l.2 })
  match recordOf x.copyA x.copyB x.lastB with
  | some (r, b) =>
    pendByAge (s1.updTile t (fun x =>
      { x with live := { r with age := if keep then x.live.age else r.age, convMap := permOnly r.convMap }, lastB := b, remapEff := r.remap })) t
  | none =>
    retireTile s1 t 4

/-- Step 1 of R240: records and ledger of a field. -/
def loadRecords (s : State) (f : Nat) (keep : Bool) : State := (fieldTiles f).foldl (loadTile keep) s

/-! ### Jobs that wait for a field -/

/-- FIELD_POWER jobs that power fields on, as mailbox and slot. -/
def State.powerJobs (s : State) : List (Nat × Nat) := (s.jobsOf 0x0501).filter (fun e => fieldAt (s.job e.1 e.2).args 8 1 == 1)

/-- Fields that a FIELD_POWER job still has to bring up; the job's arguments hold them. -/
def State.powerMask (s : State) (e : Nat × Nat) : Nat := fieldAt (s.job e.1 e.2).args 0 8

/-- A bring-up failed at a step: its fault record, and the end of the jobs that wait for it (R240, R341, R343). -/
def bringUpFail (s : State) (f step : Nat) : State :=
  let s1 := recordFault (setStage s f (if s.powered f then 7 else 0)) 4 0x0402 f 2 f {} (leBytes 1 step)
  let s2 := (s1.powerJobs.filter (fun e => hasBit (s1.powerMask e) f)).foldl (fun t e => jobDone t e.1 e.2 0x67 (leBytes 1 f ++ leBytes 1 step)) s1
  match s2.domResets.find? (fun r => r.domain == f) with
  | some r =>
    jobDone { s2 with domResets := s2.domResets.filter (fun r => r.domain != f) } r.mbx r.slot 0x67 (leBytes 2 (s2.dgenOf f) ++ leBytes 1 step)
  | none => s2

/-- A field is done for the FIELD_POWER jobs that name it; a job without further fields ends OK (R341, R404). -/
def powerDone (s : State) (f : Nat) : State :=
  (s.powerJobs.filter (fun e => hasBit (s.powerMask e) f)).foldl (fun t e =>
    let n := clrBit (t.powerMask e) f
    let t1 := t.updJob e.1 e.2 (fun j => { j with args := patchAt j.args 0 (leBytes 8 n) })
    if n = 0 then loadedCheck (jobDone t1 e.1 e.2 0 []) else t1) s

/-- A bring-up is complete. -/
def bringUpDone (s : State) (f : Nat) : State :=
  let s1 := powerDone (setStage s f 0) f
  match s1.domResets.find? (fun r => r.domain == f) with
  | some r => jobDone { s1 with domResets := s1.domResets.filter (fun r => r.domain != f) } r.mbx r.slot 0 (leBytes 2 (s1.dgenOf f))
  | none => s1

/-- The field is to be enabled: a FIELD_POWER job waits for it, or its enable was 1 when its domain was reset (R388). -/
def State.wantEnable (s : State) (f : Nat) : Bool :=
  s.powerJobs.any (fun e => hasBit (s.powerMask e) f) || s.domResets.any (fun r => r.domain == f && r.enables.contains (64 + f))

/-! ### The steps of R240 -/

/-- Add tiles of the unit being rewritten to its rewrite as a further wave (R241). -/
def joinRewrite (s : State) (ts : List (Nat × Nat)) : State :=
  if ts.isEmpty then s
  else
    let idle := match s.shard.progs with
      | p :: _ => p.begun && p.waves.isEmpty
      | [] => false
    let s1 := { s with shard := { s.shard with progs := s.shard.progs.map (fun (p : Prog) =>
        if p.why = ProgFor.rewrite ∧ p.begun = true then { p with waves := p.waves ++ wavesOf ts } else p) } }
    match idle, s1.shard.progs with
    | true, p :: _ => beginWave s1 p
    | _, _ => s1

/-- Tiles of a field that step 2 has still to program: their ledger entries do not match their targets (R240, R241). -/
def State.unprogrammed (s : State) (f : Nat) : List Nat :=
  (fieldTiles f).filter (fun t => s.tilePresent s.activeBase t && !(s.tile t).live.retired && (s.tile t).retire.isNone &&
    !s.ledgerMatch (s.tileBase t) t)

/-- Step 2: tiles whose ledger does not match their target are programmed. -/
def stepProgram (s : State) (f : Nat) : State :=
  if s.fld Reg.shardStatus_activeValid = 0 then setStage s f 3
  else if s.objBad 16384 then bringUpFail s f 2
  else
    let need := s.unprogrammed f
    let u := s.fld Reg.swapUnit_unitId
    let re := decide (s.swapState = 2)
    let mine := (need.filter (fun t => re && s.tileUnit s.activeBase t == u)).mergeSort (fun a b => a ≤ b)
    let s1 := joinRewrite (setStage s f 20) (mine.map (fun t => (t, s.stageBase)))
    if mine.length < need.length then addProg s1 { why := .bringUp f, job := none } else s1

/-- Programming of the field's tiles still runs or waits. -/
def State.programming (s : State) (f : Nat) : Bool :=
  s.shard.progs.any (fun p => p.why == .bringUp f || p.waves.any (fun w => w.any (fun e => tileField e.1 == f)))

/-- Step 4 begins: every tile is to be measured, and eight tiles holding weights are checked (R125, R407). -/
def stepSample (s : State) (f : Nat) : State :=
  let s1 := (fieldTiles f).foldl (fun a t => a.updTile t (fun x => { x with sampled := false, check := none })) s
  let ok := (fieldTiles f).filter (fun t => s1.usable t && !s1.objBad t)
  let pick := if s1.fld Reg.shardStatus_activeValid = 0 then [] else
    (ok.mergeSort (fun a b => Config.freeNat (s1.free + a) ≤ Config.freeNat (s1.free + b))).take 8
  setStage (pick.foldl startCheck { s1 with free := s1.free + 8192 }) f 40

/-- The drift sample is complete, and no tile of the field waits for a refresh. -/
def State.sampleDone (s : State) (f : Nat) : Bool :=
  let on := s.fld Reg.shardStatus_activeValid == 1
  (fieldTiles f).all (fun t => (s.tile t).live.retired || ((s.tile t).sampled &&
    (!on || ((s.tile t).check.isNone && (s.fld (Reg.driftStat_pending t) == 0 || !s.tilePresent s.activeBase t)))))

/-- Units of a field: of its tiles, and of the unit map. -/
def State.unitsOfField (s : State) (f : Nat) : List Nat :=
  ((fieldTiles f).filter (s.tilePresent s.activeBase)).map (s.tileUnit s.activeBase) ++ s.units.filter (fun u => hasBit (s.unitFields u) f)

/-- Generation of a unit of a returning field (R240, R241). -/
def backGen (s : State) (u : Nat) : Nat :=
  if s.swapState = 0 then s.modelGen
  else if s.unitGen u = s.fld Reg.modelGenNext_gen then s.fld Reg.modelGenNext_gen
  else if s.swapState = 2 ∧ s.fld Reg.swapUnit_unitId = u then 0
  else s.modelGen

/-- Sections that a field needs. -/
def State.sectionsOf (s : State) (base f : Nat) : List Nat :=
  (List.range (s.shardSections base)).filter (fun k =>
    (s.hbm (sectionAddr base k) 2 == 1 || s.hbm (sectionAddr base k) 2 == 2) && s.hbm (sectionAddr base k + 2) 2 == f)

/-- A section has an uncorrectable granule, is bad, or fails its digest. -/
def sectionFails (s : State) (base k : Nat) : Bool :=
  s.ueIn (base + s.hbm (sectionAddr base k + 8) 8) (s.hbm (sectionAddr base k + 16) 8) || (base == s.activeBase && s.objBad (8192 + k)) ||
    !sectionOk s base k

/-- Step 5: the field's sections, each after a passed digest check; then the generations of step 6. -/
def stepSections (s : State) (f : Nat) : State :=
  if s.fld Reg.shardStatus_activeValid = 0 then setStage s f 6
  else
    let base := if s.swapState = 4 then s.stageBase else s.activeBase
    let ks := s.sectionsOf base f
    match ks.find? (sectionFails s base) with
    | some k =>
      let s1 := if s.ueIn (base + s.hbm (sectionAddr base k + 8) 8) (s.hbm (sectionAddr base k + 16) 8) then
          readUe s (base + s.hbm (sectionAddr base k + 8) 8) (s.hbm (sectionAddr base k + 16) 8) 6 else s
      bringUpFail (if base = s1.activeBase then markBad s1 (8192 + k) else s1) f 5
    | none =>
      let s1 := ks.foldl (fun t k => loadSection t base k) s
      setStage ((s.unitsOfField f).foldl (fun t u => setUnitGen t u (backGen s u)) s1) f 6

/-- Step 6: the enable, under R353, once the pass of R354 is over. -/
def stepEnable (s : State) (f : Nat) : State :=
  if s.passWait f ≠ 0 then s
  else if !s.wantEnable f || s.fieldEn f then bringUpDone s f
  else
    let s1 := writeEnable (setStage s f 0) (if f < 32 then Reg.fieldEnLo_en.reg else Reg.fieldEnHi_en.reg) (64 + f) 1
    if s1.fieldEn f then bringUpDone s1 f else bringUpFail s1 f 6

/-- One move of a field's bring-up, if its next one is possible. -/
def bringUpStep (s : State) (f : Nat) : State :=
  let n := s.stage f
  if s.inReset f || !s.powered f then s
  else if n = 2 then stepProgram s f
  else if n = 20 then if s.programming f then s else setStage s f (if (s.unprogrammed f).isEmpty || s.fld Reg.shardStatus_activeValid == 0 then 3 else 2)
  else if n = 3 then if s.trimmed f then setStage s f 4 else s
  else if n = 4 then stepSample s f
  else if n = 40 then if s.sampleDone f then setStage s f 5 else s
  else if n = 5 then stepSections s f
  else if n = 6 then stepEnable s f
  else s

/-- FIELD_POWER brings up the lowest field of its mask that is still to come: power is requested once the swap is idle
and no wave command runs; a field that another command has brought up counts as done (R341). -/
def servePower (s : State) : State :=
  s.powerJobs.foldl (fun t e =>
    match (List.range 64).find? (hasBit (t.powerMask e)) with
    | none => t
    | some f =>
      if (t.stage f ≠ 0 ∧ t.stage f ≠ 7) ∨ t.domResets.any (fun r => r.domain == f) = true then t
      else if t.powered f then powerDone t f
      else if t.retiredDom f then bringUpFail t f 1
      else if t.swapState ≠ 0 ∨ t.shard.progs ≠ [] then t
      else requestPower (setStage t f 1) [f]) s

/-- Move every bring-up as far as it can go, with the programming sets between. -/
def bringUps (s : State) : State :=
  let once (t : State) : State := runProgs ((t.shard.bringUp.map (fun e => e.1)).foldl (fun a f => (List.range 7).foldl (fun b _ => bringUpStep b f) a) t)
  once (servePower (once s))

/-- The switch of a field's domain has closed: its registers come from the gated store, its records and ledger from
resistive memory (R240, R360, R364). -/
def fieldReady (s : State) (f : Nat) : State :=
  let s1 := { s with pow := { s.pow with pdOn := setBit s.pow.pdOn f }, grid := { s.grid with change := s.grid.change + 1 } }
  let s2 := loadRecords (setPassWait (loadGated s1 f) f 1) f true
  bringUps (if s2.stage f = 1 then setStage s2 f 2 else s2)

end Sys2Proof.Machine
end

