-- ==== Sys2Proof/Machine/InstallOps.lean ====
section
/-! DEFINITION. The install checks of a schedule image: Table 15.8 codes 1 to 10 and 19. Every check reads the state as it
would be with the new images installed, and answers the byte offset of the item it refuses, or none. -/

namespace Sys2Proof.Machine

/-! ### The image's bytes (Tables 8.1 and 8.2) -/

/-- Header fields. -/
def imSections (b : List Byte) : Nat := fieldAt b 6 2
def imBytes (b : List Byte) : Nat := fieldAt b 8 8

/-- Directory entries as type, instance, length and offset. -/
def imDir (b : List Byte) : List (Nat × Nat × Nat × Nat) :=
  (List.range (imSections b)).map (fun k =>
    (fieldAt b (64 + 16 * k) 2, fieldAt b (66 + 16 * k) 2, fieldAt b (68 + 16 * k) 4, fieldAt b (72 + 16 * k) 8))

/-- Sections of an image. -/
def imSects (b : List Byte) : List Sect := (imDir b).map (fun e => { typ := e.1, inst := e.2.1, data := slice b e.2.2.2 e.2.2.1 })

/-- Offset of a section. -/
def secOff (b : List Byte) (typ inst : Nat) : Nat :=
  match (imDir b).find? (fun e => e.1 == typ && e.2.1 == inst) with
  | some e => e.2.2.2
  | none => 0

/-- Number of instances of a section type (Table 8.2). -/
def secInsts (typ : Nat) : Nat :=
  if typ = 1 ∨ typ = 2 then 1 else if typ = 3 then 8192 else if typ = 7 then 12
  else if (4 ≤ typ ∧ typ ≤ 6) ∨ (8 ≤ typ ∧ typ ≤ 10) then 64 else 0

/-- R151: header, directory, and places of the sections; the step plan and the unit map are there. -/
def headBad (b : List Byte) : Option Nat :=
  let d := imDir b
  if fieldAt b 0 4 ≠ 0x56534D49 ∨ fieldAt b 4 2 ≠ 1 then some 0
  else if imSections b = 0 ∨ 8590 < imSections b ∨ imBytes b < 64 + 16 * imSections b then some 6
  else if bits (fieldAt b 16 4) 18 14 ≠ 0 ∨ fieldAt b 24 8 ≠ 0 then some 16
  else match d.zipIdx.find? (fun (e, i) =>
      decide (secInsts e.1 ≤ e.2.1) || e.2.2.2 % 64 != 0 || decide (e.2.2.2 < 64 + 16 * imSections b) || decide (imBytes b < e.2.2.2 + e.2.2.1) ||
        (d.take i).any (fun x => (x.1 == e.1 && x.2.1 == e.2.1) ||
          (decide (x.2.2.2 < e.2.2.2 + e.2.2.1) && decide (e.2.2.2 < x.2.2.2 + x.2.2.1)))) with
  | some (_, i) => some (64 + 16 * i)
  | none => if d.any (fun e => e.1 == 1) && d.any (fun e => e.1 == 2) then none else some 64

/-! ### Tables and their entries -/

/-- Slots of a plan entry's step. -/
def State.planSlots (s : State) (i : Nat) : Nat := planBeats (s.plan i) * 64

/-- Fields with an entry of a table, as field and index, that a test refuses. -/
def findIn (n : Nat) (es : Nat → List Nat) (p : Nat → Nat → Bool) : Option (Nat × Nat) :=
  (List.range n).findSome? (fun f => ((es f).zipIdx.find? (fun e => p f e.1)).map (fun e => (f, e.2)))

/-- The first entry that is out of order. -/
def unsorted (key : Nat → Nat) : Nat → Nat → List Nat → Option Nat
  | _, _, [] => none
  | i, k, e :: l => if key e < k then some i else unsorted key (i + 1) (key e) l

/-- The first slot-table entry that breaks R154: cover without gap, within one beat, reserved bits 0. -/
def coverBad (total : Nat) : Nat → Nat → List Nat → Option Nat
  | i, pos, [] => if pos = total then none else some i
  | i, pos, e :: l =>
    if seFirst e ≠ pos ∨ 63 < seSlot e + seRun e ∨ bits e 0 9 ≠ 0 then some i else coverBad total (i + 1) (pos + seRun e + 1) l

/-- Entries of a field's router table and of a link's departure table. -/
def State.routerEntries (s : State) (f : Nat) : List Nat :=
  let d := s.section 5 f
  (List.range (d.length / 8)).map (fun i => fieldAt d (8 * i) 8)
def State.departures (s : State) (n : Nat) : List Nat :=
  let d := s.section 7 n
  (List.range (d.length / 16)).map (fun i => fieldAt d (16 * i) 16)

/-- The consumption at slot `q` of what slots `a` to `e` produce comes before R167 allows it, in a step of `n` slots. -/
def early (n a e q : Nat) : Bool := decide ((q + n - a % n) % n < e + 2 - a)

/-- Two actions occupy one slot of a step of `n` slots, which repeats. -/
def actionsMeet (s : State) (f n d e : Nat) : Bool :=
  decide ((faFirst e + n - faFirst d) % n < s.actLen f d) || decide ((faFirst d + n - faFirst e) % n < s.actLen f e)

/-- The first action that occupies a slot of an earlier one; OPEN occupies none. -/
def actionClash (s : State) (f : Nat) (es : List Nat) : Option Nat :=
  (List.range es.length).find? (fun j =>
    let e := getAt 0 es j
    faAct e != 4 && (es.take j).any (fun d => faAct d != 4 && actionsMeet s f (s.planSlots f) d e))

/-- A SELECT breaks R277: its unit's MODE, TEMP, or its place after the unit's CLOSE. -/
def selectBad (s : State) (f e : Nat) : Bool :=
  let x := s.selEntry f (faUidx e)
  let m := fieldAt x 0 1
  faAct e == 6 && (m == 0 || decide (2 < m) || (m == 2 && (notPositive x)) ||
    (s.actions f).any (fun c => faAct c == 5 && faUidx c == faUidx e && faVec c == faVec e &&
      decide ((faFirst e + s.planSlots f - faFirst c) % s.planSlots f < s.actLen f c)))
where
  /-- TEMP is not positive and finite. -/
  notPositive (x : List Byte) : Bool :=
    let c := fieldAt x 4 4
    c == 0 || decide (2 ^ 31 ≤ c) || c / 2 ^ 23 % 256 == 255

/-- The station of port 5 or 6 of a field's router. -/
def portStation (f p : Nat) : Option Station := (stationsOf f)[p - 5]?

/-- Cycles between flits of a port, as a ratio (Table 2.1): 1 on mesh, local and HBM ports, 3.2 on P0 to P7, 1.25 on
U0 to U4, 8 at the control core. -/
def portRate (f p : Nat) : Nat × Nat :=
  if p < 5 then (1, 1)
  else match portStation f p with
  | some (.link n) => if n < 8 then (16, 5) else (5, 4)
  | some .core => (8, 1)
  | _ => (1, 1)

/-- Outputs of an entry. -/
def outPorts (e : Nat) : List Nat := (List.range 7).filter (hasBit (reOut e))

/-- Cycle, in its slot, of flit k of an entry: its flits keep the pace of the slowest port they use (R158). -/
def flitCycle (f e k : Nat) : Nat :=
  let r := (reIn e :: outPorts e).foldl (fun a p => let b := portRate f p; if a.1 * b.2 < b.1 * a.2 then b else a) (1, 1)
  reCycle e + k * r.1 / r.2

/-- Cycles of the step in which an entry's flits leave. -/
def entryCycles (f e : Nat) : List Nat := (List.range (reFlits e)).map (fun k => (reBeat e * 64 + reSlot e) * 80 + flitCycle f e k)

/-- A router entry breaks R158 or R159. -/
def routerBad (s : State) (f e : Nat) : Bool :=
  let noPort (p : Nat) : Bool := if p < 4 then (neighbour f p).isNone else decide (5 ≤ p) && (portStation f p).isNone
  let tagged : Bool := match portStation f (reIn e) with
    | some (.link _) => decide (5 ≤ reIn e)
    | _ => false
  decide (planBeats (s.plan f) ≤ reBeat e) || reIn e == 7 || reKind e == 3 || noPort (reIn e) || (outPorts e).any noPort ||
    (reIn e == 4 && hasBit (reOut e) 4) || (tagged && decide (64 ≤ reTag e)) || decide (79 < flitCycle f e (reFlits e - 1))

/-- Keys of order of router and departure entries. -/
def reKey (e : Nat) : Nat := (reBeat e * 64 + reSlot e) * 128 + reCycle e
def deKey (e : Nat) : Nat := (deBeat e * 64 + deSlot e) * 128 + deCycle e

/-- A table's bytes are not whole entries, or more than its limit. -/
def sizeBad (d : List Byte) (z limit : Nat) : Bool := d.length % z != 0 || decide (limit < d.length / z)

/-- A unit descriptor's reserved bits are set (Table 4.7). No rule names a refusal for them: the image is refused with
code 1 (DESIGN CHOICE, log entry 79). -/
def udescBad (s : State) (f u : Nat) : Bool :=
  bits (s.udesc f u 0) 28 4 != 0 || bits (s.udesc f u 2) 9 23 != 0 || bits (s.udesc f u 3) 21 11 != 0

/-- A selection entry breaks Table 13.12. -/
def selFormat (x : List Byte) : Bool :=
  fieldAt x 1 3 != 0 || fieldAt x 12 4 != 0 || (fieldAt x 0 1 != 2 && (fieldAt x 4 4 != 0 || fieldAt x 16 16 != 0))

/-- Offset of the first entry of any section of a type that breaks its table's format (code 1). -/
def tableBad (s : State) (b : List Byte) (x : Sect) : Option Nat :=
  let base := secOff b x.typ x.inst
  let i := x.inst
  let at_ (z : Nat) (o : Option Nat) : Option Nat := o.map (fun k => base + z * k)
  match x.typ with
  | 1 =>
    if x.data.length ≠ 304 then some base
    else at_ 4 ((List.range 76).find? (fun k => let e := s.plan k; bits e 6 2 != 0 || (if k < 64 then bits e 13 19 else bits e 8 24) != 0))
  | 3 =>
    if x.data.isEmpty || sizeBad x.data 8 2048 then some base else at_ 8 (coverBad (s.planSlots (tileField i)) 0 0 (s.slotEntries i))
  | 4 =>
    let es := s.actions i
    if sizeBad x.data 8 1024 then some base
    else at_ 8 ((((es.zipIdx.find? (fun e => faAct e.1 == 0 || decide (6 < faAct e.1) || bits e.1 0 16 != 0 ||
        decide (s.planSlots i ≤ faFirst e.1) || selectBad s i e.1)).map (fun e => e.2)).orElse
      (fun _ => unsorted faFirst 0 0 es)).orElse (fun _ => actionClash s i es))
  | 5 =>
    let es := s.routerEntries i
    if sizeBad x.data 8 4096 then some base
    else at_ 8 (((es.zipIdx.find? (fun e => routerBad s i e.1)).map (fun e => e.2)).orElse (fun _ => unsorted reKey 0 0 es))
  | 6 => if x.data.length = s.planSlots i then none else some base
  | 7 =>
    let es := s.departures i
    if sizeBad x.data 16 2048 then some base
    else at_ 16 (((es.zipIdx.find? (fun e => decide (planBeats (s.plan (64 + i)) ≤ deBeat e.1) || decide (79 < deCycle e.1) ||
        decide (64 < deFlits e.1) || bits e.1 18 6 != 0 || bits e.1 82 46 != 0)).map (fun e => e.2)).orElse (fun _ => unsorted deKey 0 0 es))
  | 8 => if sizeBad x.data 16 64 then some base else at_ 16 ((List.range (x.data.length / 16)).find? (udescBad s i))
  | 10 => if x.data.length ≠ 2048 then some base else at_ 32 ((List.range 64).find? (fun u => selFormat (s.selEntry i u)))
  | _ => none

/-! ### The unit map (R242) -/

/-- Valid dies of unit-map entry k. -/
def State.umDies (s : State) (k : Nat) : List Nat :=
  ((List.range 4).map (fun i => fieldAt s.unitMap (20 + 48 * k + 4 * i) 4)).filterMap (fun d => if hasBit d 31 then some (d % 2 ^ 18) else none)

/-- Code 3: dies of one unit lie in two packages. -/
def unitSpans (s : State) : Option Nat :=
  ((List.range s.unitCount).find? (fun k => (s.umDies k).any (fun d => (s.umDies k).any (fun e => d / 4 != e / 4)))).map (fun k => 8 + 48 * k)

/-- A field holds tiles, lanes or Nettle work of a unit in the image's other sections. -/
def fieldHolds (s : State) (f u : Nat) : Bool :=
  (fieldTiles f).any (fun t => s.tilePresent s.activeBase t && s.tileUnit s.activeBase t == u && !(s.slotEntries t).isEmpty) ||
    (List.range 64).any (fun i => (decide (16 * i < (s.section 8 f).length) || decide (16 * i < (s.section 9 f).length)) && s.unitOf f i == u)

/-- A unit-map entry breaks its format or a rule of R242 other than R15's. -/
def unitBad (s : State) (k : Nat) : Bool :=
  let m := s.unitMap
  let o := 8 + 48 * k
  let nd := fieldAt m (o + 8) 1
  let ds := s.umDies k
  let p := s.myId / 4 * 4
  fieldAt m (o + 10) 2 != 0 || !allZero (slice m (o + 36) 12) ||
    (List.range 4).any (fun i => let d := fieldAt m (o + 12 + 4 * i) 4
      bits d 18 13 != 0 || hasBit d 31 != decide (i < nd) || (!hasBit d 31 && d != 0)) ||
    !((nd == 1 && ds == [s.myId]) || (nd == 4 && ds == [p, p + 1, p + 2, p + 3])) ||
    !ds.any (fun d => d % 4 == fieldAt m (o + 9) 1) ||
    (k != 0 && decide (s.umUnit k ≤ s.umUnit (k - 1))) ||
    (List.range 64).any (fun f => hasBit (s.umFields k) f && !fieldHolds s f (s.umUnit k))

/-- Code 1: the unit map's header and entries, and an entry for every unit of the shard's tiles. -/
def unitMapBad (s : State) : Option Nat :=
  let m := s.unitMap
  let n := s.unitCount
  if n = 0 ∨ 65536 < n ∨ m.length ≠ 8 + 48 * n ∨ fieldAt m 4 4 ≠ 0 then some 0
  else match (List.range n).find? (unitBad s) with
  | some k => some (8 + 48 * k)
  | none => if s.tileUnits.all (fun u => s.units.contains u) then none else some 0

/-! ### Codes 2, 4 to 10 and 19 -/

/-- Code 2 (R152). -/
def identityBad (s : State) (b : List Byte) : Option Nat :=
  if fieldAt b 16 4 ≠ s.myId then some 16
  else if fieldAt b 20 4 ≠ s.modelGen then some 20
  else if slice b 32 32 ≠ s.shardDigest s.activeBase then some 32 else none

/-- A departure table's entries, with the place of each, that a test refuses. -/
def departureFails (s : State) (b : List Byte) (p : Nat → Nat → Bool) : Option Nat :=
  (findIn 12 s.departures p).map (fun e => secOff b 7 e.1 + 16 * e.2)

/-- A router table's entries that a test refuses. -/
def routerFails (s : State) (b : List Byte) (p : Nat → Nat → Bool) : Option Nat :=
  (findIn 64 s.routerEntries p).map (fun e => secOff b 5 e.1 + 8 * e.2)

/-- Code 4 (R16): a hop to another rack leaves by a link other than P7. -/
def rackHopBad (s : State) (b : List Byte) : Option Nat :=
  departureFails s b (fun n e => n != 7 && deDest e / 256 != s.myId / 256)

/-- Cycles for which a departure holds its link (R161). -/
def depHold (n e : Nat) : Nat := if n < 8 then portHold (deFlits e) 4 else (5 * deFlits e + 3) / 4 + 16

/-- First cycle of a departure in its step. -/
def depStart (e : Nat) : Nat := (deBeat e * 64 + deSlot e) * 80 + deCycle e

/-- Cycles in which a departure's flits leave the router's station output. -/
def depCycles (n e : Nat) : List Nat :=
  (List.range (deFlits e)).map (fun k => depStart e + (if n < 8 then k * 16 / 5 else k * 5 / 4))

/-- Two cycles of two steps of a and b cycles fall together in some step. -/
def meet (a b x y : Nat) : Bool := x % Nat.gcd a b == y % Nat.gcd a b

/-- Code 5 (R35, R161): an entry of a router uses an output in a cycle in which an earlier entry or a departure uses it. -/
def outputTwice (s : State) (b : List Byte) : Option Nat :=
  (List.range 64).findSome? (fun f =>
    let es := s.routerEntries f
    ((List.range es.length).find? (fun j =>
      let e := getAt 0 es j
      (es.take j).any (fun d => (outPorts e).any (fun p => hasBit (reOut d) p) &&
        (entryCycles f e).any (fun c => (entryCycles f d).contains c)) ||
      (outPorts e).any (fun p => match portStation f p with
        | some (.link n) => decide (5 ≤ p) && (s.departures n).any (fun d => (depCycles n d).any (fun c =>
            (entryCycles f e).any (fun x => meet (s.planSlots f * 80) (s.planSlots (64 + n) * 80) x c)))
        | _ => false))).map (fun j => secOff b 5 f + 8 * j))

/-- Code 6 (R35): a flit meets an unavailable router, or the local port of a gated field; a departure's payload passes the
router of its link's field. -/
def pathBad (s : State) (b : List Byte) : Option Nat :=
  (routerFails s b (fun f e => !s.routerOk f || (hasBit (s.plan f) 12 && hasBit (reOut e) 4) ||
    (outPorts e).any (fun p => match neighbour f p with
      | some (g, _) => !s.routerOk g
      | none => false))).orElse
    (fun _ => departureFails s b (fun n _ => !s.routerOk (linkField n)))

/-- The image drives a tile. -/
def tileDriven (s : State) (t : Nat) : Bool := (s.slotEntries t).any (fun e => seOp e == 1)

/-- The image places tile, router-local or Nettle work in a field. -/
def fieldWork (s : State) (f : Nat) : Bool :=
  (fieldTiles f).any (tileDriven s) || !(s.actions f).isEmpty || (s.section 6 f).any (fun r => r != 0) ||
    (s.routerEntries f).any (fun e => reIn e == 4 || hasBit (reOut e) 4)

/-- The place at which a field's work is named. -/
def workAt (b : List Byte) (f : Nat) : Nat := if secOff b 4 f ≠ 0 then secOff b 4 f else secOff b 5 f

/-- Code 7 (R35): work on a retired field or tile. -/
def retiredBad (s : State) (b : List Byte) : Option Nat :=
  match (List.range 64).find? (fun f => s.retiredDom f && fieldWork s f) with
  | some f => some (workAt b f)
  | none => ((List.range 8192).find? (fun t => (s.tile t).live.retired && tileDriven s t)).map (secOff b 3)

/-- A unit descriptor breaks R84. -/
def widthBad (s : State) (f u : Nat) : Bool :=
  let w := s.udesc f u 0
  let ptr := bits (s.udesc f u 3) 0 21
  let n := s.laneCnt f u
  decide (7 < bits w 0 4) || decide (7 < bits w 18 4) || decide (7 < bits w 24 4) || (bits w 7 1 == 1 && bits w 4 3 == 0) ||
    (holdsLanes s f u && (decide (65536 < s.laneLo f u + n) || (bits w 24 4 == 7 && n % 2 == 1) || ptr % 4 != 0 ||
      decide (2 ^ 21 < ptr + 4 * n * (1 + bits w 22 1))))

/-- A slice map breaks R84. -/
def sliceBad (x : Slice) : Bool :=
  decide (8 < x.shift + x.w) || (x.wide && decide (256 < x.outs)) || decide (65536 < x.lane + x.outs)

/-- Code 8: descriptors, and the slice maps of present tiles and of the NETTLE_WEIGHTS blocks that the fields serve. -/
def codeBad (s : State) (b : List Byte) : Option Nat :=
  match findIn 64 (fun f => List.range ((s.section 8 f).length / 16)) (widthBad s) with
  | some e => some (secOff b 8 e.1 + 16 * e.2)
  | none =>
    (((List.range 8192).find? (fun t => s.tilePresent s.activeBase t && sliceBad (s.sliceMap t))).map (secOff b 3)).orElse
      (fun _ => (findIn 64 (fun f => List.range (min 64 ((s.section 8 f).length / 16)))
        (fun f u => (Config.nettleBlocks f u).any (fun k => sliceBad (s.sliceAt (s.blockAddr k))))).map (fun e => secOff b 8 e.1 + 16 * e.2))

/-- The entries that carry an entry's flits onwards, itself included: at each router the first entry from then on that
takes them from the port they arrive at. -/
def onward (s : State) : Nat → Nat → Nat → List (Nat × Nat)
  | 0, f, e => [(f, e)]
  | n + 1, f, e => (f, e) :: (outPorts e).flatMap (fun p =>
      match neighbour f p with
      | some (g, q) =>
        match (s.routerEntries g).find? (fun x => reIn x == q && reTag x == reTag e && reKind x == reKind e && decide (reKey e ≤ reKey x)) with
        | some x => if p < 4 then onward s n g x else []
        | none => []
      | none => [])

/-- Lanes that field `f` sends for vector `v` into another field's lanes (R76): the lane they leave, the field and lane they
enter, and how many there are. -/
def partialMoves (s : State) (f v : Nat) : List (Nat × Nat × Nat × Nat) :=
  ((s.routerEntries f).filter (fun e => reIn e == 4 && reKind e == 1 && reTag e == v)).flatMap (fun e =>
    ((onward s 14 f e).filter (fun x => hasBit (reOut x.2) 4 && x.1 != f)).map (fun x =>
      (reAddr e % 65536, x.1, reAddr x.2 % 65536, s.partialLanes f v (reAddr e % 65536) (reFlits e))))

/-- Field lanes that a contribution to lane `l` of field `f` reaches for vector `v`, its own first. -/
def laneReach (s : State) (v : Nat) : Nat → Nat → Nat → List (Nat × Nat)
  | 0, f, l => [(f, l)]
  | n + 1, f, l => (f, l) :: (partialMoves s f v).flatMap (fun m =>
      if m.1 ≤ l ∧ l < m.1 + m.2.2.2 then laneReach s v n m.2.1 (m.2.2.1 + (l - m.1)) else [])

/-- Vectors that a tile drives. -/
def State.tileVecs (s : State) (t : Nat) : List Nat := ((s.slotEntries t).filter (fun e => seOp e == 1)).map seVec

/-- A tile adds into lane `l` of field `f` for vector `v`, in its own field or through partials. -/
def addsInto (s : State) (v f l t : Nat) : Bool :=
  let x := s.sliceMap t
  (s.tileVecs t).contains v && (List.range x.outs).any (fun j => (laneReach s v 6 (tileField t) (x.lane + j)).contains (f, l))

/-- Code 9 (R75): more than 4,096 tiles add into one lane of a field for one vector, through the partials of other fields
too. A lane that most tiles reach is the lane of some tile's first output, or one that its partials reach. -/
def lanesBad (s : State) (b : List Byte) : Option Nat :=
  let ts := (List.range 8192).filter (fun t => s.tilePresent s.activeBase t && tileDriven s t)
  if ts.length ≤ 4096 then none
  else (ts.find? (fun t => (s.tileVecs t).any (fun v => (laneReach s v 6 (tileField t) (s.sliceMap t).lane).any (fun p =>
    decide (4096 < (ts.filter (addsInto s v p.1 p.2)).length))))).map (secOff b 3)

/-- Reserved Nettle cycles of slot q of a field's step, which repeats. -/
def nettleRes (s : State) (f q : Nat) : Nat := fieldAt (s.section 6 f) (q % s.planSlots f) 1

/-- Code 10 (R91, R160): a value above 80, or more than 512 cycles in 16 consecutive slots. -/
def reserveBad (s : State) (b : List Byte) : Option Nat :=
  (List.range 64).findSome? (fun f =>
    if (s.section 6 f).isEmpty then none
    else ((List.range (s.planSlots f)).find? (fun q => decide (80 < nettleRes s f q) ||
      decide (512 < (List.range 16).foldl (fun n i => n + nettleRes s f (q + i)) 0))).map (fun q => secOff b 6 f + q))

/-- Code 19 (R331): work in a field whose domain is off. -/
def unpoweredBad (s : State) (b : List Byte) : Option Nat :=
  ((List.range 64).find? (fun f => !s.powered f && fieldWork s f)).map (workAt b)

end Sys2Proof.Machine
end

