-- ==== Sys2Proof/Machine/ShardCmds.lean ====
section
/-! DEFINITION. Commands of Table 15.6 other than SCHED_INSTALL: shards, serving, model swap, adapters and reference
runs (R329 to R336). -/

namespace Sys2Proof.Machine

/-! ### Fetch, repair, activate, program (R330) -/

/-- Argument fields of SHARD_FETCH and SHARD_REPAIR. -/
def sfBuf (a : List Byte) : Nat := fieldAt a 0 8
def sfCount (a : List Byte) : Nat := fieldAt a 8 1

/-- COUNT, the buffer, or an entry of the table is out of range; the table is judged where it can be read. -/
def fetchArgs (a : List Byte) (s : State) : Bool :=
  let n := sfCount a
  n == 0 || decide (6 < n) || fieldAt a 9 7 != 0 || !bufOk s (sfBuf a) (64 * n) ||
    (!s.ueIn (sfBuf a) (64 * n) && srcTableBad (s.read (sfBuf a) (64 * n)) n)

/-- FETCH_BUSY. -/
def fetchBusy (_ : List Byte) (s : State) : Option (Nat × List Byte) := if s.shard.fetch.isSome then some (0x4C, []) else none

/-- Read the source table and go on with it. -/
def withSources (m : Nat) (a : List Byte) (k : Nat) (s : State) (go : State → List Src → State) : State :=
  let len := 64 * sfCount a
  if s.ueIn (sfBuf a) len then jobDone (readUe s (sfBuf a) len 6) m k 0x6C []
  else go s (srcsOf (s.read (sfBuf a) len) (sfCount a))

/-- SHARD_FETCH: refused unless the swap state is IDLE (R228, R239). -/
def execShardFetch (m : Nat) (s : State) : Host.Outcome State Fault Refusal :=
  .next (takeCommand m 0x0301 (fun _ t => t.swapState != 0) fetchArgs fetchBusy
    (.job (fun a k t => withSources m a k t (fun u l => startFetch u (m, k) l))) s)

/-- SHARD_REPAIR. -/
def execShardRepair (m : Nat) (s : State) : Host.Outcome State Fault Refusal :=
  .next (takeCommand m 0x0304 never fetchArgs fetchBusy
    (.job (fun a k t => withSources m a k t (fun u l => startRepair u (some (m, k)) l))) s)

/-- The installed images are uninstalled, and protected range 1 is released (R330, R389). -/
def uninstall (s : State) : State :=
  let s1 := setProt (s.setFld Reg.schedStatus_installed 0) 1 none
  { s1 with sched := { startAt := none }, shard := { s1.shard with imgAddr := 0, imgLen := 0, attLen := 0 } }

/-- The shard of a slot is the master copy from now on: its digest, its generation, and no bad object. -/
def takeShard (s : State) (slot : Nat) : State :=
  let s1 := (((s.setFld Reg.shardStatus_activeSlot slot).setFld Reg.shardStatus_activeValid 1).setFld Reg.shardStatus_stageValid 0).setFld
    Reg.modelGenCur_gen (s.shardGen (slotBase slot))
  { s1 with shard := { s1.shard with
      bad := [], digest := s.shardDigest (slotBase slot), signed := sigOff (s.shardSections (slotBase slot)), installNs := s.ns } }

/-- SHARD_ACTIVATE: a repair of the former slot has nothing left to do, and ends OK. -/
def activate (s : State) : State :=
  let s0 := match s.shard.fetch with
    | some f => endFetch s f 0 (s.shardGen f.base)
    | none => s
  let s1 := uninstall (takeShard s0 (1 - s0.activeSlot))
  if s1.dieState = .loaded then enterState s1 .joined else s1

/-- NO_SHARD unless a slot is valid. -/
def noShard (x : Fld) (_ : List Byte) (s : State) : Option (Nat × List Byte) := if s.fld x = 1 then none else some (0x50, [])

/-- SHARD_ACTIVATE. -/
def execShardActivate (m : Nat) (s : State) : Host.Outcome State Fault Refusal :=
  .next (takeCommand m 0x0302 never never (noShard Reg.shardStatus_stageValid)
    (.now (fun _ t => (activate t, leBytes 4 (activate t).modelGen))) s)

/-- SHARD_PROGRAM (R236). -/
def execShardProgram (m : Nat) (s : State) : Host.Outcome State Fault Refusal :=
  .next (takeCommand m 0x0303 never (fun a _ => decide (1 < fieldAt a 0 1) || fieldAt a 1 3 != 0) (noShard Reg.shardStatus_activeValid)
    (.job (fun _ k t => addProg t { why := .shard, job := some (m, k) })) s)

/-! ### Serving (R332, R333) -/

/-- START_BEAT or COMMIT_BEAT of the arguments. -/
def beatArg (a : List Byte) : Nat := fieldAt a 0 8

/-- SERVE_START. -/
def execServeStart (m : Nat) (s : State) : Host.Outcome State Fault Refusal :=
  .next (takeCommand m 0x0306 never
    (fun a t => decide (2 ^ 53 ≤ beatArg a) || decide (t.beat + 2 ^ 24 < beatArg a))
    (fun a t =>
      if t.time.state ≠ .locked ∧ t.time.state ≠ .root then some (0x52, [])
      else if beatArg a < t.beat + 64 then some (0x53, []) else none)
    (.now (fun a t => ({ t with sched := { t.sched with startAt := some (beatArg a) } }, []))) s)

/-- DRAIN: the die enters DRAINING; MODE 1 ends every live sequence, and the job remembers how many (R292, R333). -/
def drainStart (m : Nat) (a : List Byte) (k : Nat) (s : State) : State :=
  let l := if fieldAt a 0 1 = 1 then s.liveSeqs.filter (fun i => (s.seq i).alive) else []
  let s1 := l.foldl (fun t i => endSeq t i 2) s
  pumpAll (enterState (s1.updJob m k (fun j => { j with args := leBytes 2 l.length })) .draining)

/-- DRAIN. -/
def execDrain (m : Nat) (s : State) : Host.Outcome State Fault Refusal :=
  .next (takeCommand m 0x0307 never (fun a _ => decide (1 < fieldAt a 0 1) || fieldAt a 1 3 != 0) accepted (.job (drainStart m)) s)

/-! ### Model swap (R238, R239, R334) -/

/-- Two shards differ only in values: tile entries, slice maps and sections (R238). The staged schedule image is the
installed one with its header updated, so its condition holds of itself (log entry 23). -/
def swapFits (s : State) : Bool :=
  let a := s.activeBase
  let b := s.stageBase
  s.shardGen b != s.modelGen &&
    (List.range 8192).all (fun t => s.tilePresent a t == s.tilePresent b t && s.tileUnit a t == s.tileUnit b t &&
      (!s.tilePresent a t || s.read (s.imageAddr a t + 16) 8 == s.read (s.imageAddr b t + 16) 8)) &&
    s.shardSections a == s.shardSections b &&
    (List.range (s.shardSections a)).all (fun k => s.read (sectionAddr a k) 8 == s.read (sectionAddr b k) 8 &&
      s.read (sectionAddr a k + 16) 8 == s.read (sectionAddr b k + 16) 8)

/-- SWAP_STAGE. -/
def execSwapStage (m : Nat) (s : State) : Host.Outcome State Fault Refusal :=
  .next (takeCommand m 0x0308 (fun _ t => t.swapState != 0) never
    (fun _ t => if t.fld Reg.shardStatus_stageValid = 0 then some (0x50, []) else if swapFits t then none else some (0x54, []))
    (.now (fun _ t =>
      let g := t.shardGen t.stageBase
      ({ (t.setFld Reg.shardStatus_swapState 1).setFld Reg.modelGenNext_gen g with
          shard := { t.shard with rewritten := [], unitNext := none } }, leBytes 4 g))) s)

/-- UNIT_REWRITE. -/
def execUnitRewrite (m : Nat) (s : State) : Host.Outcome State Fault Refusal :=
  .next (takeCommand m 0x0309 (fun _ t => t.swapState != 1 && t.swapState != 3) never
    (fun a t =>
      if !t.tileUnits.contains (fieldAt a 0 4) then some (0x55, [])
      else if t.unitGen (fieldAt a 0 4) = t.fld Reg.modelGenNext_gen then some (0x56, []) else none)
    (.job (fun a k t =>
      let t1 := (t.setFld Reg.shardStatus_swapState 2).setFld Reg.swapUnit_unitId (fieldAt a 0 4)
      addProg { t1 with shard := { t1.shard with unitNext := some (fieldAt a 0 4, t1.beat) } } { why := .rewrite, job := some (m, k) })) s)

/-- COMMIT_PREPARE: the staged sections go into every powered field. -/
def execCommitPrepare (m : Nat) (s : State) : Host.Outcome State Fault Refusal :=
  .next (takeCommand m 0x030A (fun _ t => t.swapState != 3) (fun a _ => decide (2 ^ 53 ≤ beatArg a))
    (fun a t =>
      if t.tileUnits.any (fun u => t.unitGen u == t.modelGen) then some (0x57, [])
      else if beatArg a < t.beat + 64 then some (0x53, []) else none)
    (.job (fun a k t =>
      let t1 := loadGood (t.setFld Reg.shardStatus_swapState 4) t.stageBase (fun _ => true)
      { t1 with shard := { t1.shard with commitAt := some (beatArg a, some (m, k)) } })) s)

/-- SWAP_ABORT: the rewrite is abandoned with its waves that have not started, and every tile rewritten so far is
programmed from the active slot. -/
def abortStart (m k : Nat) (s : State) : State :=
  let keep (p : Prog) : List Prog :=
    if p.why ≠ .rewrite then [p] else if p.begun then [{ p with waves := p.waves.take 1, job := none }] else []
  let s1 := finishAll (s.setFld Reg.shardStatus_swapState 5) 0x0309 0x08 []
  let s2 := { s1 with shard := { s1.shard with progs := s1.shard.progs.flatMap keep } }
  addProg s2 { why := .abort, job := some (m, k) }

/-- SWAP_ABORT. -/
def execSwapAbort (m : Nat) (s : State) : Host.Outcome State Fault Refusal :=
  .next (takeCommand m 0x030B (fun _ t => t.swapState == 0 || decide (3 < t.swapState)) never accepted
    (.job (fun _ k t => abortStart m k t)) s)

/-! ### Adapters (R100, R335) -/

/-- Argument fields of ADAPTER_LOAD. -/
def alBuf (a : List Byte) : Nat := fieldAt a 0 8
def alLen (a : List Byte) : Nat := fieldAt a 8 4
def alHandle (a : List Byte) : Nat := fieldAt a 12 2
def alTenant (a : List Byte) : Nat := fieldAt a 16 4

/-- The image breaks Table 15.9. -/
def adapterFormatBad (b : List Byte) : Bool :=
  let n := fieldAt b 6 1
  let r := fieldAt b 7 1
  fieldAt b 0 4 != 0x56414450 || fieldAt b 4 2 != 1 || n == 0 || decide (64 < n) || !allZero (slice b 8 24) ||
    (List.range n).any (fun k =>
      let o := 32 + 32 * k
      fieldAt b (o + 12) 4 % 64 != 0 || fieldAt b (o + 16) 4 % 64 != 0 || !allZero (slice b (o + 20) 12) ||
        decide (b.length < fieldAt b (o + 12) 4 + 2 * r * fieldAt b (o + 8) 2) || decide (b.length < fieldAt b (o + 16) 4 + 2 * r * fieldAt b (o + 10) 2))

/-- A binary32 code is NaN or infinite. -/
def notFinite32 (c : Nat) : Bool := c / 2 ^ 23 % 256 == 255

/-- A binary32 code is NaN, infinite or not positive. -/
def notPositive32 (c : Nat) : Bool := notFinite32 c || c == 0 || decide (2 ^ 31 ≤ c)

/-- A bfloat16 element is NaN, infinite, or greater in magnitude than a binary32 limit. -/
def elemBad (limit e : Nat) : Bool :=
  let mag := e % 2 ^ 15 * 2 ^ 16
  e / 2 ^ 7 % 256 == 255 || (if 2 ^ 31 < limit then !(decide (0xFF800000 < limit)) else decide (limit % 2 ^ 31 < mag))

/-- Row blocks of a unit whose partial a field forms, and lanes of the unit in the field (R101). -/
def adapterWork (s : State) (f unit : Nat) : Nat × Nat :=
  (List.range 64).foldl (fun acc u =>
    if 16 * u < (s.section 8 f).length ∧ s.unitOf f u = unit then
      (acc.1 + ((s.rowBlocks f u).filter (fun b => s.lowestFed unit b == some f)).length, acc.2 + s.laneCnt f u)
    else acc) (0, 0)

/-- Bytes of an adapter that a field holds: rows of A for its partials, columns of B for its lanes (DESIGN CHOICE,
log entry 24). -/
def adapterShare (s : State) (f : Nat) (b : List Byte) : Nat :=
  (List.range (fieldAt b 6 1)).foldl (fun n k =>
    let w := adapterWork s f (fieldAt b (32 + 32 * k) 4)
    n + 2 * fieldAt b 7 1 * (512 * w.1 + w.2)) 0

/-- Length of a field's adapter area. -/
def State.adapterArea (s : State) (f : Nat) : Nat := (getAt (0, 0) (Config.storeAreas (s.section 9 f)) 2).2

/-- The bullet of R100 that an adapter breaks; 0 for none. An adapter that is to be evicted at the next boundary still counts
(DESIGN CHOICE, log entry 92). -/
def adapterReason (s : State) (a b : List Byte) : Nat :=
  let r := fieldAt b 7 1
  let es := (List.range (fieldAt b 6 1)).map (fun k => 32 + 32 * k)
  let elems (o n : Nat) : Bool := (List.range (n * r)).any (fun i => elemBad (fieldAt a 20 4) (fieldAt b (o + 2 * i) 2))
  let held (f : Nat) : List Adapter := s.grid.adapters.filter (fun x => decide (0 < adapterShare s f x.image))
  if sha b ≠ slice a 32 32 ∨ adapterFormatBad b = true then 1
  else if r = 0 ∨ 64 < r then 2
  else if es.any (fun o => elems (fieldAt b (o + 12) 4) (fieldAt b (o + 8) 2) || elems (fieldAt b (o + 16) 4) (fieldAt b (o + 10) 2)) then 3
  else if es.any (fun o => notPositive32 (fieldAt b (o + 4) 4)) || [20, 24, 28].any (fun o => notPositive32 (fieldAt a o 4)) then 4
  else if (List.range 64).any (fun f => decide (0 < adapterShare s f b) &&
      decide (s.adapterArea f < (held f).foldl (fun n x => n + adapterShare s f x.image) (adapterShare s f b))) then 5
  else if (List.range 64).any (fun f => decide (0 < adapterShare s f b) && decide (16 ≤ (held f).length)) then 6
  else 0

/-- ADAPTER_LOAD. -/
def loadAdapter (m : Nat) (a : List Byte) (k : Nat) (s : State) : State :=
  if s.ueIn (alBuf a) (alLen a) then jobDone (readUe s (alBuf a) (alLen a) 6) m k 0x6C []
  else
    let b := s.read (alBuf a) (alLen a)
    let r := adapterReason s a b
    if r ≠ 0 then jobDone s m k 0x58 (leBytes 1 r)
    else
      let x : Adapter := { handle := alHandle a, tenant := alTenant a, wmax := fieldAt a 20 4, hmax := fieldAt a 24 4, dmax := fieldAt a 28 4, image := b }
      jobDone { s with grid := { s.grid with adapters := s.grid.adapters ++ [x] } } m k 0 []

/-- ADAPTER_LOAD: HANDLE_BUSY while the handle is resident, or will be at the next beat boundary. -/
def execAdapterLoad (m : Nat) (s : State) : Host.Outcome State Fault Refusal :=
  .next (takeCommand m 0x030C never
    (fun a t => decide (alLen a < 64) || decide (0x4000000 < alLen a) || alHandle a == 0 || fieldAt a 14 2 != 0 || decide (2 ^ 20 ≤ alTenant a) ||
      !bufOk t (alBuf a) (alLen a))
    (fun a t => if t.grid.adapters.any (fun x => x.handle == alHandle a) then some (0x59, []) else none) (.job (loadAdapter m)) s)

/-- ADAPTER_EVICT: the handle goes at the next beat boundary. -/
def execAdapterEvict (m : Nat) (s : State) : Host.Outcome State Fault Refusal :=
  .next (takeCommand m 0x030D never (fun a _ => fieldAt a 0 2 == 0 || fieldAt a 2 2 != 0)
    (fun a t => if (t.adapter (fieldAt a 0 2)).isSome then none else some (0x5A, []))
    (.now (fun a t => ({ t with grid := { t.grid with
      adapters := t.grid.adapters.map (fun x => if x.handle == fieldAt a 0 2 then { x with evict := true } else x) } }, []))) s)

/-! ### Reference runs (R336) -/

/-- Arguments out of range. -/
def refArgs (a : List Byte) (s : State) : Bool :=
  decide (8191 < fieldAt a 0 2) || fieldAt a 2 1 == 0 || decide (8 < fieldAt a 2 1) || decide (3 < fieldAt a 3 1) || fieldAt a 4 4 != 0 ||
    !bufOk s (fieldAt a 8 8) 512 || !wbufOk s (fieldAt a 16 8) (if hasBit (fieldAt a 3 1) 1 then 6144 else 3072)

/-- TILE_UNAVAILABLE: absent, retired, or its image bad. -/
def refRefused (a : List Byte) (s : State) : Option (Nat × List Byte) :=
  let t := fieldAt a 0 2
  if s.fld Reg.shardStatus_activeValid = 1 ∧ s.usable t = true ∧ s.objBad t = false then none else some (0x5B, [])

/-- The run waits for Nettle's share and, with ANALOG, for its planes; it is abandoned at once where the tile's field
is gated or in reset. -/
def refStart (m : Nat) (a : List Byte) (k : Nat) (s : State) : State :=
  let t := fieldAt a 0 2
  if !s.sramPresent (tileField t) then jobDone s m k 0x08 []
  else if s.ueIn (fieldAt a 8 8) 512 then jobDone (readUe s (fieldAt a 8 8) 512 6) m k 0x6C []
  else
    let x := (s.read (fieldAt a 8 8) 512).map (fun b => b.toNat)
    let planes := if hasBit (fieldAt a 3 1) 1 then (List.range (fieldAt a 2 1)).map (refPlane x) else []
    let s1 : State := { s with grid := { s.grid with checkNo := s.grid.checkNo + 1 } }
    s1.updTile t (fun y => { y with refRuns := y.refRuns ++ [{ planes := planes, tq := s.tqOf t, no := s.grid.checkNo, job := some (m, k) }] })

/-- REF_RUN. -/
def execRefRun (m : Nat) (s : State) : Host.Outcome State Fault Refusal :=
  .next (takeCommand m 0x030E never refArgs refRefused (.job (refStart m)) s)

end Sys2Proof.Machine
end

