-- ==== Sys2Proof/Machine/InstallCmds.lean ====
section
/-! DEFINITION. SCHED_INSTALL (R152, R331): the install checks with codes 11 to 18, and what an accepted image changes. -/

namespace Sys2Proof.Machine

/-! ### Codes 11 to 14 -/

/-- A Nettle descriptor breaks R105 or a reserved bit of Table 5.3. -/
def ndescBad (s : State) (f u : Nat) : Bool :=
  let w0 := s.ndesc f u 0
  let w1 := s.ndesc f u 1
  let p := s.ndesc f u 2
  let a := getAt (0, 0) (Config.storeAreas (s.section 9 f)) 0
  let lo := toSigned 12 (bits w1 0 12)
  let hi := toSigned 12 (bits w1 16 12)
  let t := toSigned 12 (bits w0 0 12)
  decide (16 < bits w0 12 5) || decide (bits w0 12 5 < bits w0 17 5) || decide (hi < lo) || decide (t < lo) || decide (hi < t) ||
    (hasBit w0 24 && bits w0 12 5 != 0) || bits w0 25 7 != 0 || bits w1 12 4 != 0 || bits w1 28 4 != 0 || decide (2 ^ 20 ≤ p) || p % 8 != 0 ||
    decide (p < a.1) || decide (a.1 + a.2 ≤ p) || s.ndesc f u 3 != 0

/-- The four areas of a store: 4 KiB-aligned, within 1 MiB, and apart (R91). -/
def areasBad (l : List (Nat × Nat)) : Bool :=
  l.zipIdx.any (fun (a, i) => a.1 % 4096 != 0 || a.2 % 4096 != 0 || decide (2 ^ 20 < a.1 + a.2) ||
    (l.take i).any (fun c => decide (c.1 < a.1 + a.2) && decide (a.1 < c.1 + c.2)))

/-- The known rows of a unit index break R94: a tile fed by a known row's block has no entry for it, or row data leaves
the known-row area. -/
def knownBad (s : State) (f u : Nat) : Bool :=
  let a := getAt (0, 0) (Config.storeAreas (s.section 9 f)) 0
  let es := s.known f u
  es.any (fun e =>
    decide (bits e 32 20 < a.1) || decide (a.1 + a.2 < bits e 32 20 + (s.sliceMap (tileAt f (bits e 21 7))).outs) ||
      (fieldTiles f).any (fun t => s.drives t u && (s.sliceMap t).block == bits e 0 12 &&
        !es.any (fun d => bits d 0 21 == bits e 0 21 && bits d 21 7 == tileLocal t)))

/-- Code 11. -/
def storeBad (s : State) (b : List Byte) : Option Nat :=
  match (List.range 64).find? (fun f => !(s.section 9 f).isEmpty && areasBad (Config.storeAreas (s.section 9 f))) with
  | some f => some (secOff b 9 f)
  | none => (findIn 64 s.nidxs (fun f u => ndescBad s f u || knownBad s f u)).map (fun e => secOff b 9 e.1 + 16 * e.2)

/-- M slots of a tile in beat `k` of its step. -/
def mSlots (s : State) (t k : Nat) : Nat :=
  (s.slotEntries t).foldl (fun n e => if seClass e = 3 ∧ seBeat e = k then n + seRun e + 1 else n) 0

/-- The image gives a tile fewer than 64 M slots in some 64 consecutive beats. -/
def fewM (s : State) (t : Nat) : Bool :=
  let n := planBeats (s.plan (tileField t))
  (List.range n).any (fun k => decide ((List.range 64).foldl (fun a i => a + mSlots s t ((k + i) % n)) 0 < 64))

/-- Code 12 (R124): of the tiles that hold weights in fields that work. -/
def fewMaint (s : State) (b : List Byte) : Option Nat :=
  ((List.range 8192).find? (fun t => s.usable t && s.powered (tileField t) && !hasBit (s.plan (tileField t)) 12 && fewM s t)).map (secOff b 3)

/-- Code 13 (R142): a flit in cycle 15 of slot 0, a departure in its cycles 0 to 15, or a reserved cycle 15. -/
def slipBad (s : State) (b : List Byte) : Option Nat :=
  ((routerFails s b (fun f e => (entryCycles f e).any (fun c => c % 5120 == 15))).orElse
    (fun _ => departureFails s b (fun n e => (deSlot e == 0 && decide (deCycle e < 16)) || (depCycles n e).any (fun c => c % 5120 == 15)))).orElse
    (fun _ => (List.range 64).findSome? (fun f =>
      if (s.section 6 f).isEmpty then none
      else ((List.range (planBeats (s.plan f))).find? (fun k => decide (64 < nettleRes s f (64 * k)))).map (fun k => secOff b 6 f + 64 * k)))

/-- Class, operation and plane of a slot-table entry break R155 or R156. -/
def slotBad (s : State) (f e : Nat) : Bool :=
  decide (1 < seOp e) ||
    (seOp e == 1 && (decide (1 < seClass e) || decide (s.actBits f (seUidx e) ≤ sePlane e + seRun e))) ||
    (seOp e == 0 && (sePlane e != 0 || seUidx e != 0 || seVec e != 0 || sePaddr e != 0))

/-- Two DRIVE entries of one VEC disagree: in class or unit index in one field, in class in two ENTRY fields (R156, R276). -/
def driveClash (s : State) (f g d e : Nat) : Bool :=
  seOp d == 1 && seOp e == 1 && seVec d == seVec e &&
    (if f = g then seClass d != seClass e || seUidx d != seUidx e else s.isEntry f && s.isEntry g && seClass d != seClass e)

/-- Code 14. -/
def classBad (s : State) (b : List Byte) : Option Nat :=
  let ts := (List.range 8192).filter (fun t => !(s.slotEntries t).isEmpty)
  ts.findSome? (fun t =>
    ((s.slotEntries t).zipIdx.find? (fun e => slotBad s (tileField t) e.1 ||
      ts.any (fun d => (tileField d == tileField t || s.isEntry (tileField d)) &&
        (s.slotEntries d).any (fun x => driveClash s (tileField d) (tileField t) x e.1)))).map (fun e => secOff b 3 t + 8 * e.2))

/-! ### Codes 15 and 16 -/

/-- The destinations of a link (R161): the rack on P0 to P5, the tray peer, another rack of the same half (R14), the ring
neighbours. -/
def destOk (s : State) (n d : Nat) : Bool :=
  if n < 6 then d / 256 == s.myId / 256 && d != s.myId
  else if n = 7 then d / 256 != s.myId / 256 && dieHalf d == dieHalf s.myId
  else (wiredLinks s.myId).any (fun w => w.1 == n && w.2.1 == d)

/-- Two departures hold their link in one cycle. -/
def holdClash (s : State) (n d e : Nat) : Bool :=
  let t := s.planSlots (64 + n) * 80
  decide ((depStart e + t - depStart d % t) % t < depHold n d) || decide ((depStart d + t - depStart e % t) % t < depHold n e)

/-- Code 15. -/
def departBad (s : State) (b : List Byte) : Option Nat :=
  (List.range 12).findSome? (fun n =>
    let es := s.departures n
    (es.zipIdx.find? (fun e => !destOk s n (deDest e.1) || (es.take e.2).any (fun d => holdClash s n d e.1))).map
      (fun e => secOff b 7 n + 16 * e.2))

/-- Last S slot of the tiles that feed the lanes of a unit index (R163). -/
def lastS (s : State) (f u : Nat) : Option Nat :=
  (((fieldTiles f).filter (fun t => s.drives t u)).flatMap s.sSlots).foldl (fun o q => match o with
    | some x => some (max x q)
    | none => some q) none

/-- Slot of the step in which a router entry moves its flits. -/
def reFirst (e : Nat) : Nat := reBeat e * 64 + reSlot e

/-- What arrives in slot `a` of a step of `n` slots is too late for slot `q` (R167). -/
def tooLate (n a q : Nat) : Bool := early n a a q

/-- Entries of field `f` that deliver flits of vector `v` from the HBM stations (`hbm`) or from the SRAM, lanes or words of
field `g`: the slot in which they set out, and the entry that delivers them. -/
def deliveries (s : State) (hbm : Bool) (g f v : Nat) : List (Nat × Nat) :=
  let starts (e : Nat) : Bool := if hbm then decide (5 ≤ reIn e) && isHbm (portStation g (reIn e)) else reIn e == 4
  ((s.routerEntries g).filter (fun e => starts e && reTag e == v)).flatMap (fun e =>
    ((onward s 14 g e).filter (fun x => x.1 == f && hasBit (reOut x.2) 4)).map (fun x => (reFirst e, x.2)))
where
  /-- An HBM station. -/
  isHbm (p : Option Station) : Bool := match p with
    | some (.hbm _) => true
    | _ => false

/-- Control words of field `g` for a unit of field `f` come too late for slot `q`: the image sends some, but none that sets
out once slot `r` is over and arrives in time (R163, R167). -/
def wordsEarly (s : State) (g f u v r q : Nat) : Bool :=
  let n := s.planSlots f
  let ds := (deliveries s false g f v).filter (fun d => reKind d.2 == 2 && reAddr d.2 % 64 == u)
  !ds.isEmpty && !ds.any (fun d => decide (r < d.1) && decide (d.1 ≤ reFirst d.2) && decide (reFirst d.2 < q) && !tooLate n (reFirst d.2) q)

/-- Last slot of the action of a kind for vector `v` and a unit in field `g`. -/
def State.actEnd (s : State) (g a unit v : Nat) : Option Nat :=
  ((s.actions g).find? (fun c => faAct c == a && faVec c == v && s.unitOf g (faUidx c) == unit)).map (fun c => faFirst c + s.actLen g c - 1)

/-- Some field's words, sent once its action of kind `a` is over, come too late for slot `q`. -/
def partnersEarly (s : State) (f a u v q : Nat) : Bool :=
  let unit := s.unitOf f u
  (s.partners f a unit v).any (fun g => match s.actEnd g a unit v with
    | some r => wordsEarly s g f u v r q
    | none => false)

/-- The words that the owner field returns once its EXPONENT is over come too late for slot `q`. -/
def returnEarly (s : State) (f u v q : Nat) : Bool :=
  let g := s.ownerField f u
  s.ownerQpos f u == s.myId % 4 && g != f && (match s.actEnd g 2 (s.unitOf f u) v with
    | some r => wordsEarly s g f u v r q
    | none => false)

/-- Flits fetched from a stack (`hbm`) or partials that a delivery brings come too late for the CLOSE of their lanes. -/
def closeFeedEarly (s : State) (f u v q : Nat) : Bool :=
  let n := s.planSlots f
  let rows := bits (s.ndesc f u 0) 17 5 != 0 || hasBit (s.ndesc f u 0) 24
  (s.routerEntries f).any (fun r => reKind r == 1 && hasBit (reOut r) 4 && decide (s.laneLo f u ≤ reAddr r % 65536) &&
      decide (reAddr r % 65536 < s.laneLo f u + s.laneCnt f u) && tooLate n (reFirst r) q) ||
    (rows && (List.range 64).any (fun g => (deliveries s true g f v).any (fun d => tooLate n (reFirst d.2) q)))

/-- Adapter words come too late for the CLOSE in slot `q`: partials in the owner field, h in the others. -/
def adaptEarly (s : State) (f u v q : Nat) : Bool :=
  hasBit (s.udesc f u 0) 23 && (if s.isOwner f u then partnersEarly s f 1 u v q else returnEarly s f u v q)

/-- An attention output comes too late for the SCAN in slot `q` that reads it (R246). -/
def outputEarly (s : State) (f e : Nat) : Bool :=
  let n := 512 * (s.rowBlocks f (faUidx e)).length
  (List.range 64).any (fun g => (deliveries s true g f (faVec e)).any (fun d =>
    reKind d.2 == 0 && decide (faAddr e ≤ reAddr d.2 * 8) &&
      decide (reAddr d.2 * 8 < faAddr e + vecBytes (bits (s.udesc f (faUidx e) 0) 0 4) n) && tooLate (s.planSlots f) (reFirst d.2) (faFirst e)))

/-- An action consumes before R167 allows, or a CLOSE comes before its tiles' S slots are over (R157, R163). -/
def actionEarly (s : State) (f e : Nat) : Bool :=
  let n := s.planSlots f
  let u := faUidx e
  let v := faVec e
  let q := faFirst e
  let same (a : Nat) (c : Nat) : Bool := faAct c == a && faUidx c == u && faVec c == v
  match faAct e with
  | 1 => outputEarly s f e
  | 2 => (s.actions f).any (fun c => same 1 c && decide ((q + n - faFirst c) % n < s.actLen f c)) || partnersEarly s f 1 u v q
  | 3 => (s.actions f).any (fun c => same 2 c && q == faFirst c) || returnEarly s f u v q
  | 5 =>
    (match lastS s f u with
      | some x => decide (q < x + 1)
      | none => false) || closeFeedEarly s f u v q || adaptEarly s f u v q
  | 6 => s.isOwner f u && partnersEarly s f 6 u v (q + s.actLen f e - 1)
  | _ => false

/-- A DRIVE entry reads a plane before R167 allows it: a plane of its ALIGN, or one that a router entry brings. -/
def driveEarly (s : State) (f e : Nat) : Bool :=
  seOp e == 1 && (List.range (seRun e + 1)).any (fun i =>
    (s.actions f).any (fun c => faAct c == 3 && faUidx c == seUidx e && faVec c == seVec e && faAddr c == sePaddr e * 64 &&
      early (s.planSlots f) (faFirst c) (faFirst c + s.actLen f c - 1) (seFirst e + i)) ||
    (s.routerEntries f).any (fun r => reKind r == 0 && hasBit (reOut r) 4 && decide (reAddr r * 8 < sePaddr e * 64 + 64 * (sePlane e + i) + 64) &&
      decide (sePaddr e * 64 + 64 * (sePlane e + i) < reAddr r * 8 + 128 * reFlits r) && tooLate (s.planSlots f) (reFirst r) (seFirst e + i)))

/-- A departure reads what a CLOSE or SELECT writes, or what a router entry brings, before R167 allows it. Where the link and
the field have different step lengths, in some step. -/
def departEarly (s : State) (n e : Nat) : Bool :=
  let f := linkField n
  let g := Nat.gcd (s.planSlots f) (s.planSlots (64 + n))
  let q := deBeat e * 64 + deSlot e
  (s.actions f).any (fun c => (faAct c == 5 || faAct c == 6) && faVec c == deVec e &&
    decide (deSrc e ≤ faAddr c) && decide (faAddr c < deSrc e + 128 * deFlits e) &&
    early g (faFirst c) (faFirst c + s.actLen f c - 1) q) ||
  (s.routerEntries f).any (fun r => reKind r == 0 && hasBit (reOut r) 4 && decide (reAddr r * 8 < deSrc e + 128 * deFlits e) &&
    decide (deSrc e < reAddr r * 8 + 128 * reFlits r) && tooLate g (reFirst r) q)

/-- A frame sent on P7 completes in the destination's buffer later than cycle 0 of slot c − 2, c its consuming slot (R146). The
delay and the slot are not this die's to know: they are uninterpreted (log entry 25). -/
def farLate (s : State) (n e : Nat) : Bool :=
  n == 7 && decide (80 * Config.farSlot e < (deBeat e * 64 + deSlot e + 2) * 80 + deCycle e + s.frameHold n (deFlits e) + Config.wireDelay n)

/-- A slot of a window's step lies in a window, or before the end of every window of `l`. -/
def fetchTooSoon (l : List Nat) (x : Nat) : Bool :=
  l.any (fun w => decide (winFirst w ≤ x) && decide (x ≤ winLast w)) || l.all (fun w => decide (x ≤ winLast w))

/-- A flit from an HBM station fetches a window's output before the slot after its end (R246): while a window serves the
vector, or before the first has served it in the step. Flits that may carry unknown rows, between a SCAN of the vector and
its CLOSE in some field with UCAP above 0, or the weights of a Nettle-only unit, are no such fetch. -/
def fetchEarly (s : State) (f e : Nat) : Bool :=
  let q := reBeat e * 64 + reSlot e
  let v := reTag e
  let rows := (List.range 64).any (fun g => (s.actions g).any (fun a => faAct a == 1 && faVec a == v &&
    (bits (s.ndesc g (faUidx a) 0) 17 5 != 0 || hasBit (s.ndesc g (faUidx a) 0) 24) && decide (faFirst a ≤ q) &&
    (s.actions g).any (fun c => faAct c == 5 && faVec c == v && faUidx c == faUidx a && decide (q < faFirst c))))
  match portStation f (reIn e) with
  | some (.hbm side) =>
    let ws := ((List.range s.attWindows).map s.attWin).filter (s.winServes side v)
    decide (5 ≤ reIn e) && !rows && ws.any (fun w =>
      let n := s.planSlots (winField w)
      let l := ws.filter (fun x => winField x == winField w)
      (List.range n).any (fun x => x % Nat.gcd n (s.planSlots f) == q % Nat.gcd n (s.planSlots f) && fetchTooSoon l x))
  | _ => false

/-- Code 16, on the timing of this image alone (log entry 25). -/
def timingBad (s : State) (b : List Byte) : Option Nat :=
  ((((findIn 64 s.actions (actionEarly s)).map (fun e => secOff b 4 e.1 + 8 * e.2)).orElse
    (fun _ => (findIn 8192 s.slotEntries (fun t e => driveEarly s (tileField t) e)).map (fun e => secOff b 3 e.1 + 8 * e.2))).orElse
    (fun _ => departureFails s b (fun n e => departEarly s n e || farLate s n e))).orElse
    (fun _ => routerFails s b (fetchEarly s))

/-! ### The attention image: codes 1, 2, 17 and 18 -/

/-- RES_G, RES_S and RES_P of a side (Table 12.1). -/
def attRes (a : List Byte) (side i : Nat) : Nat := fieldAt a (16 + 6 * side + 2 * i) 2

/-- R247: header and length of an image of `n` bytes. -/
def attFormat (a : List Byte) (n : Nat) : Option Nat :=
  if n < 64 ∨ fieldAt a 0 4 ≠ 0x56544154 ∨ fieldAt a 4 2 ≠ 1 then some 0
  else if n ≠ 64 + 64 * fieldAt a 6 1 + 16 * fieldAt a 8 2 then some 6 else none

/-- The header leaves its ranges. -/
def attHeadBad (a : List Byte) : Bool :=
  decide (32 < fieldAt a 6 1) || fieldAt a 7 1 != 0 || decide (4096 < fieldAt a 8 2) || fieldAt a 10 2 != 0 ||
    bits (fieldAt a 12 4) 18 14 != 0 || !allZero (slice a 28 36)

/-- A range lies in a side's stack. -/
def inStack (side a len : Nat) : Bool := decide (side * stackEnd ≤ a) && decide (a + len ≤ (side + 1) * stackEnd)

/-- A range lies within one protected range. -/
def State.protects (s : State) (a len : Nat) : Bool :=
  (List.range 16).any (fun n => match s.protRange n with
    | some (b, l) => decide (b ≤ a) && decide (a + len ≤ l + 1)
    | none => false)

/-- A unit descriptor leaves its ranges (Table 12.2); the fields marked Gather are judged of KIND 1 only, every other field of
both kinds. -/
def attUnitBad (s : State) (u : List Byte) : Bool :=
  let b := if auKvFmt u = 6 then 2 else 1
  let page := 2 * auTpp u * auDh u * b + (if auKvFmt u = 6 then 0 else 2 * auTpp u * auDh u / 32)
  decide (1 < auSide u) || decide (1 < auKind u) || fieldAt u 14 2 != 0 || !allZero (slice u 48 16) || auExch u % 1024 != 0 ||
    !inStack (auSide u) (auExch u) 1 ||
    !([1, 2, 6] : List Nat).contains (auKvFmt u) || !([1, 2, 5, 6] : List Nat).contains (auTFmt u) || !([1, 2, 6] : List Nat).contains (auQFmt u) ||
    decide (fieldAt u 5 1 < 6) || decide (8 < fieldAt u 5 1) || auHkv u == 0 || decide (64 < auHkv u) || auHq u == 0 ||
    decide (256 < auHq u) || auHq u % auHkv u != 0 || auTpp u % 16 != 0 || decide (auTpp u < 16) || decide (256 < auTpp u) ||
    auPph u == 0 || decide (1024 < auPph u) || decide (65536 < page) ||
    (auKind u == 1 && (auEmbWidth u % 512 != 0 || auEmbWidth u == 0 || !inStack (auSide u) (auEmbBase u) (auEmbRows u * auEmbWidth u * 2) ||
      !s.protects (auEmbBase u) (auEmbRows u * auEmbWidth u * 2)))

/-- First slot of the last attention window of a side that serves vector v and begins before slot q; 0 without one. The flits
of the window at q come after it (R245). -/
def feedsFrom (s : State) (side v q : Nat) : Nat :=
  ((((List.range s.attWindows).map s.attWin).filter (fun x =>
    auKind (s.attUnit (winUnit x)) == 0 && s.winServes side v x && decide (winFirst x < q))).map winFirst).foldl max 0

/-- What a side's station receives for vector v and the window that begins in slot q: bytes and OUT_FMT of the CLOSE that
wrote them, in order of departure. -/
def attFeeds (s : State) (side v q : Nat) : List (Nat × Nat) :=
  let l := (List.range 64).flatMap (fun f => (s.routerEntries f).filterMap (fun e =>
    if reIn e = 4 ∧ reKind e = 0 ∧ reTag e = v ∧ reBeat e * 64 + reSlot e < q ∧ feedsFrom s side v q ≤ reBeat e * 64 + reSlot e ∧
        (onward s 14 f e).any (fun x => (outPorts x.2).any (fun p => decide (5 ≤ p) && portStation x.1 p == some (.hbm side))) = true then
      ((s.actions f).find? (fun c => faAct c == 5 && faVec c == v && decide (faAddr c ≤ reAddr e * 8) &&
          decide (reAddr e * 8 < faAddr c + vecBytes (bits (s.udesc f (faUidx c) 0) 18 4) (s.laneCnt f (faUidx c))))).map
        (fun c => (reKey e, 128 * reFlits e, bits (s.udesc f (faUidx c) 0) 18 4))
    else none))
  (l.mergeSort (fun x y => x.1 ≤ y.1)).map (fun x => x.2)

/-- The first `n` bytes of a feed come in format `a`, the rest in format `b`. -/
def feedOk (a b : Nat) : Nat → List (Nat × Nat) → Bool
  | _, [] => true
  | n, (z, fmt) :: l => (n == 0 || fmt == a) && (decide (z ≤ n) || fmt == b) && feedOk a b (n - z) l

/-- Slots of the step that times a window. -/
def State.winSlots (s : State) (w : Nat) : Nat := s.planSlots (winField w)

/-- Two windows run in one slot. -/
def winMeet (s : State) (w x : Nat) : Bool :=
  let g := Nat.gcd (s.winSlots w) (s.winSlots x)
  decide ((winFirst x + g - winFirst w % g) % g < winLast w + 1 - winFirst w) ||
    decide ((winFirst w + g - winFirst x % g) % g < winLast x + 1 - winFirst x)

/-- FLOP per slot of a window's engine on a side (Tables 12.4 and 12.5). -/
def flopRate (engine fmt : Nat) : Nat :=
  if engine = 0 then 1024000 else if fmt = 5 then 16384000 else if fmt = 6 then 4096000 else 8192000

/-- A window's worst-case work breaks Table 12.4. -/
def overCapacity (a u : List Byte) (w : Nat) : Bool :=
  let l := winLast w + 1 - winFirst w
  let res := attRes a (auSide u) (2 * winEngine w) * (l / 64)
  if auKind u = 1 then decide (res < winVecCnt w * ((auEmbWidth u * 2 + 1023) / 1024))
  else decide (res < winVecCnt w * auHkv u * auPph u * 64) ||
    decide (l * flopRate (winEngine w) (auTFmt u) < 4 * winVecCnt w * auHq u * auDh u * (auPph u * auTpp u))

/-- A window entry is refused (R249, R392), given the entries before it. -/
def windowBad (s : State) (a : List Byte) (before : List Nat) (w : Nat) : Bool :=
  let u := s.attUnit (winUnit w)
  let side := auSide u
  decide (s.attUnits ≤ winUnit w) || bits w 5 3 != 0 || bits w 9 7 != 0 || bits w 28 4 != 0 || bits w 61 3 != 0 || bits w 70 58 != 0 ||
    winVecCnt w == 0 || decide (256 < winVecLo w + winVecCnt w) || decide (s.winSlots w ≤ winLast w) ||
    (winEngine w == 1 && auKind u == 1) || !inStack side (auExch u) (winVecCnt w * outPitch u) || overCapacity a u w ||
    before.any (fun x => auSide (s.attUnit (winUnit x)) == side && winEngine x == winEngine w && winMeet s w x) ||
    (auKind u == 0 && (List.range (winVecCnt w)).any (fun i =>
      !feedOk (auQFmt u) (auKvFmt u) (packedBytes (auQFmt u) (auHq u * auDh u)) (attFeeds s side (winVecLo w + i) (winFirst w)))) ||
    (if winEngine w = 0 then s.retiredDom (0x48 + side) else s.retiredDom (0x40 + 2 * side) || s.retiredDom (0x41 + 2 * side))

/-- Code 17. -/
def attBad (s : State) (a : List Byte) : Option Nat :=
  let ws := (List.range s.attWindows).map s.attWin
  if attHeadBad a then some 0
  else match (List.range s.attUnits).find? (fun k => attUnitBad s (s.attUnit k)) with
  | some k => some (64 + 64 * k)
  | none => (ws.zipIdx.find? (fun w => windowBad s a (ws.take w.2) w.1)).map (fun w => 64 + 64 * s.attUnits + 16 * w.2)

/-- RES_MAX of a RATE (Table 12.11). -/
def resMax (rate : Nat) : Nat := getAt 0 [2621, 3276, 3932, 4587] rate

/-- Code 18 (R265). -/
def reservedBad (s : State) (a : List Byte) : Option Nat :=
  ((List.range 2).find? (fun d => decide (resMax (s.fld (Reg.hbmCfg_rate d)) < attRes a d 0 + attRes a d 1 + attRes a d 2))).map (fun d => 16 + 6 * d)

/-! ### The install -/

/-- A check of the schedule image, and of the attention image, with its code; bit 31 of WHERE marks the latter. -/
def inImage (c : Nat) (o : Option Nat) : Option (Nat × Nat) := o.map (fun x => (c, x % 2 ^ 31))
def inAtt (c : Nat) (o : Option Nat) : Option (Nat × Nat) := o.map (fun x => (c, x % 2 ^ 31 + 2 ^ 31))

/-- The checks in the order of their codes, each a function of nothing so that the first failure is the answer; the
checks of R15 stand before the other rules of the unit map (log entry 25). -/
def installCheck (b a : List Byte) (n : Nat) (s : State) : Option (Nat × Nat) :=
  let um (o : Option Nat) : Option Nat := o.map (fun x => secOff b 2 0 + x)
  [fun _ => inImage 1 ((s.sched.secs.find? (fun x => (tableBad s b x).isSome)).bind (tableBad s b)),
   fun _ => inAtt 1 (attFormat a n),
   fun _ => inImage 3 (um (unitSpans s)),
   fun _ => inImage 1 (um (unitMapBad s)),
   fun _ => inImage 2 (identityBad s b),
   fun _ => inAtt 2 (if fieldAt a 12 4 % 2 ^ 18 = s.myId then none else some 12),
   fun _ => inImage 4 (rackHopBad s b), fun _ => inImage 5 (outputTwice s b), fun _ => inImage 6 (pathBad s b),
   fun _ => inImage 7 (retiredBad s b), fun _ => inImage 8 (codeBad s b), fun _ => inImage 9 (lanesBad s b),
   fun _ => inImage 10 (reserveBad s b), fun _ => inImage 11 (storeBad s b), fun _ => inImage 12 (fewMaint s b),
   fun _ => inImage 13 (slipBad s b), fun _ => inImage 14 (classBad s b), fun _ => inImage 15 (departBad s b),
   fun _ => inImage 16 (timingBad s b), fun _ => inAtt 17 (attBad s a), fun _ => inAtt 18 (reservedBad s a),
   fun _ => inImage 19 (unpoweredBad s b)].findSome? (fun (g : Unit → Option (Nat × Nat)) => g ())

/-- Thistle and Bindweed domains that the installed attention image needs (R364). -/
def attDomains (s : State) : List Nat :=
  let ws := (List.range s.attWindows).map s.attWin
  (List.range 6).filterMap (fun i =>
    let side := if i < 4 then i / 2 else i - 4
    if ws.any (fun w => auSide (s.attUnit (winUnit w)) == side && winEngine w == (if i < 4 then 1 else 0)) then some (64 + i) else none)

/-- Arguments of SCHED_INSTALL. -/
def siBuf (a : List Byte) : Nat := fieldAt a 0 8
def siAtt (a : List Byte) : Nat := fieldAt a 8 4
def siVocab (a : List Byte) : Nat := fieldAt a 12 4

/-- Address of the attention image. -/
def attAddr (buf len : Nat) : Nat := buf + (len + 4095) / 4096 * 4096

/-- The state with the images at their buffer installed. -/
def placeImages (args b a : List Byte) (s : State) : State :=
  { s with sched := { s.sched with
    secs := imSects b, att := a, digest := sha b, attDigest := sha a, vocab := siVocab args, badTab := [] } }

/-- What an accepted image changes (R95, R268, R331, R364): the images, protected range 1, reservations, thresholds,
generations of units that hold no tiles, and Thistle and Bindweed domains that are no longer needed. -/
def takeImages (args b a : List Byte) (s : State) : State :=
  let s1 := placeImages args b a s
  let s2 := { s1 with shard := { s1.shard with imgAddr := siBuf args, imgLen := b.length, attLen := a.length } }
  let s3 := setProt (s2.setFld Reg.schedStatus_installed 1) 1 (some (siBuf args, attAddr (siBuf args) b.length + a.length - 1))
  let s4 := (List.range 2).foldl (fun t d =>
    ((t.setFld (Reg.resGs_resG d) (attRes a d 0)).setFld (Reg.resGs_resS d) (attRes a d 1)).setFld (Reg.resPCur_resP d) (attRes a d 2)) s3
  let s5 := ((List.range 64).filter (fun f => s4.fieldEn f)).foldl initTq s4
  let s6 := (s5.units.filter (fun u => !s5.tileUnits.contains u)).foldl (fun t u => setUnitGen t u t.modelGen) s5
  let idle := ([64, 65, 66, 67, 68, 69].filter (fun d => s6.powered d && !(attDomains s6).contains d))
  { s6 with pow := { s6.pow with gateReq := s6.pow.gateReq ++ idle } }

/-- Run an install whose job is (m, k): the buffer is read and checked, gated domains it needs are powered first, and the
job ends when they are (R364). A header whose IMAGE_BYTES leaves the limits or the memory is refused with code 1. -/
def runInstall (s : State) (m k : Nat) : State :=
  let args := (s.job m k).args
  let buf := siBuf args
  let refused (t : State) (e : Nat × Nat) : State := jobDone t m k 0x51 (leBytes 2 e.1 ++ leBytes 2 0 ++ leBytes 4 e.2)
  if s.firing then jobDone s m k 0x08 []
  else if s.ueIn buf 64 then jobDone (readUe s buf 64 6) m k 0x6C []
  else
    let len := s.hbm (buf + 8) 8
    let n := siAtt args
    if len < 64 ∨ 2 ^ 28 < len then refused s (1, 8)
    else if !s.rangePresent buf len then refused s (1, 8)
    else if n = 0 ∨ !s.rangePresent (attAddr buf len) n then refused s (1, 2 ^ 31)
    else if s.ueIn buf len then jobDone (readUe s buf len 6) m k 0x6C []
    else if s.ueIn (attAddr buf len) n then jobDone (readUe s (attAddr buf len) n 6) m k 0x6C []
    else
      let b := s.read buf len
      let a := s.read (attAddr buf len) n
      match headBad b with
      | some o => refused s (1, o)
      | none =>
        let t := placeImages args b a s
        match installCheck b a n t with
        | some e => refused s e
        | none =>
          let off := (attDomains t).filter (fun d => !s.powered d)
          if off.isEmpty then loadedCheck (jobDone (takeImages args b a s) m k 0 []) else requestPower s off

/-- Installs that wait for a domain go on (R364). -/
def resumeInstalls (s : State) : State := if s.swapState ≠ 0 then s else (s.jobsOf 0x0305).foldl (fun t e => runInstall t e.1 e.2) s

/-- SCHED_INSTALL: no new image is accepted while a swap is under way (R239). -/
def execSchedInstall (m : Nat) (s : State) : Host.Outcome State Fault Refusal :=
  .next (takeCommand m 0x0305 (fun _ t => t.swapState != 0)
    (fun a t => siVocab a == 0 || decide (2 ^ 31 < siVocab a) || !bufOk t (siBuf a) 64) (noShard Reg.shardStatus_activeValid)
    (.job (fun _ k t => runInstall t m k)) s)

end Sys2Proof.Machine
end

