-- ==== Sys2Proof/Machine/HbmEvents.lean ====
section
/-! DEFINITION. HBM events: PATROL_SCRUB, PLACEMENT_WINDOW_CLOSE, MIGRATION_COPY_DONE, OLD_FRAME_RETURN and
HBM_STACK_TRAINED (R262, R266, R380 to R382, R422). -/

namespace Sys2Proof.Machine

/-! ### Patrol scrub -/

/-- The scrub runs: the fault block and SCRUB_EN are on, and the stack answers. -/
def State.scrubs (s : State) (side : Nat) : Bool :=
  s.fld Reg.blockEnMisc_fault == 1 && s.fld Reg.faultCfg_scrubEn == 1 && s.hbmPresent side

/-- PATROL_SCRUB of the granule at `addr`: nothing found, a correctable error, which is counted and corrected in place, or
an uncorrectable one, which stays and is recorded. The scrub goes through a stack by rising address, so the last granule
ends a pass (log entry 26). -/
def execPatrolScrub (side addr result : Nat) (s : State) : Host.Outcome State Fault Refusal :=
  let g := addr / 32
  if !s.scrubs side || decide (addr < side * stackEnd) || decide ((side + 1) * stackEnd ≤ addr) then .next s
  else
    let s1 := match result with
      | 0 => s
      | 1 => s.count (if side = 0 then Reg.eccHbm0_corr else Reg.eccHbm1_corr) 1
      | _ => readUe { s with ue := if s.ue.contains g then s.ue else s.ue ++ [g] } (32 * g) 32 4
    .next (if 32 * g + 32 = (side + 1) * stackEnd then s1.setFld Reg.scrubStat_lastPass s1.aliveS else s1)

/-! ### The placement loop (R266) -/

/-- The frame that a side's migration moves is being copied or switched. -/
def Side.moving (d : Side) (f : Nat) : Bool := d.moves.any (fun m => m.old == f)

/-- Start the copies of marked frames while the pool has free frames. -/
def startMoves (s : State) (side : Nat) : State :=
  if !s.coreAwake then s
  else (s.side side).marked.foldl (fun t f =>
    match freeFrame t side 0 with
    | none => t
    | some g => (useFrame t side g).updSide side (fun d => { d with
        marked := d.marked.filter (fun x => x != f), moves := d.moves ++ [{ old := f, new := g }] })) s

/-- Frames of the hottest tracked granules on channels above twice the mean, hottest first, at most 64. `hot` gives
tracked granules by address / 1,024, with their counts. -/
def hotFrames (s : State) (counts : List Nat) (hot : List (Nat × Nat)) : List Nat :=
  let total := counts.foldl (· + ·) 0
  let l := hot.filter (fun h => decide (2 * total < 64 * getAt 0 counts (s.pseudoChannel (1024 * h.1))))
  (((l.mergeSort (fun x y => y.2 ≤ x.2)).map (fun h => h.1 / 64)).foldl (fun a f => if a.contains f then a else a ++ [f]) []).take 64

/-- The busiest channel and its load over the mean, in units of 1/256. -/
def busiest (counts : List Nat) : Nat × Nat :=
  let top := counts.foldl max 0
  let total := counts.foldl (· + ·) 0
  ((counts.zipIdx.find? (fun c => c.1 == top)).map (fun c => c.2) |>.getD 0, if total = 0 then 0 else min 65535 (top * 256 * 64 / total))

/-- PLACEMENT_WINDOW_CLOSE: LOAD_MAX, OVERLOAD_CNT and the marks of a window of 512 beats. -/
def execPlacementWindowClose (side : Nat) (counts : List Nat) (hot : List (Nat × Nat)) (s : State) : Host.Outcome State Fault Refusal :=
  if s.fld (Reg.hbmCfg_migEn side) = 0 ∨ s.fld (Reg.hbmCfg_en side) = 0 ∨ s.hbmPresent side = false then .next s
  else
    let b := busiest (counts.take 64)
    let s1 := (s.setFld (Reg.loadMax_pc side) b.1).setFld (Reg.loadMax_ratio side) b.2
    let s2 := if 1024 < b.2 then s1.count (Reg.overloadCnt_overload side) 1 else s1
    let d := s2.side side
    let fs := (hotFrames s2 (counts.take 64) hot).filter (fun f => d.used.contains f && !d.moving f && !d.marked.contains f)
    .next (startMoves (s2.updSide side (fun d => { d with marked := d.marked ++ fs })) side)

/-- Page descriptors, as addresses, of the bound entries' lists that name a frame. -/
def State.descsOf (s : State) (f : Nat) : List Nat :=
  (List.range 16384).flatMap (fun i =>
    if deBound (s.dirEntry i) then
      (s.listsOf i).flatMap (fun p => (descAddrs p.2 (auDescs (s.attUnit p.1))).filter (fun d =>
        hasBit (s.hbm d 4) 31 && bits (s.hbm d 4) 0 22 == f))
    else [])

/-- Change the move of an old frame. -/
def updMove (s : State) (side old : Nat) (g : Migr → List Migr) : State :=
  s.updSide side (fun d => { d with moves := d.moves.flatMap (fun m => if m.old = old then g m else [m]) })

/-- MIGRATION_COPY_DONE: the new frame holds the ciphertext, and the descriptor names it from the next beat boundary. A
copy that meets an uncorrectable granule, or whose page has been freed, is given up. -/
def execMigrationCopyDone (side oldFrame : Nat) (s : State) : Host.Outcome State Fault Refusal :=
  match (s.side side).moves.find? (fun m => m.old == oldFrame && m.switch.isNone) with
  | none => .next s
  | some m =>
    if !s.coreAwake || !s.hbmPresent side then .next s
    else
      let bad := s.ueIn (65536 * m.old) 65536
      let ds := s.descsOf m.old
      if bad || ds.isEmpty then
        let s1 := if bad then readUe s (65536 * m.old) 65536 4 else s
        .next (startMoves (returnFrame (updMove s1 side m.old (fun _ => [])) side m.new) side)
      else
        let s1 := s.write (65536 * m.new) (s.read (65536 * m.old) 65536)
        let s2 := ds.foldl (fun t d => t.write d (leBytes 4 (t.hbm d 4 - m.old + m.new))) s1
        .next (updMove s2 side m.old (fun x => [{ x with switch := some (s2.beat + 1) }]))

/-- Switches of R266 that take effect at this beat boundary are counted. -/
def countSwitches (s : State) : State :=
  (List.range 2).foldl (fun t side =>
    t.count (Reg.migCnt_migrated side) ((t.side side).moves.filter (fun m => m.switch == some t.beat)).length) s

/-- OLD_FRAME_RETURN: 64 beats after the switch. -/
def execOldFrameReturn (side oldFrame : Nat) (s : State) : Host.Outcome State Fault Refusal :=
  match (s.side side).moves.find? (fun m => m.old == oldFrame) with
  | some { old := o, switch := some b, .. } =>
    if b + 64 ≤ s.beat then .next (startMoves (returnFrame (updMove s side o (fun _ => [])) side o) side) else .next s
  | _ => .next s

/-- HBM_STACK_TRAINED: an enabled side's stack is trained at RATE. -/
def execHbmStackTrained (side : Nat) (s : State) : Host.Outcome State Fault Refusal :=
  if s.fld (Reg.hbmCfg_en side) = 1 ∧ s.hbmPresent side = true then .next (s.setFld (Reg.hbmStatus_ready side) 1) else .next s

end Sys2Proof.Machine
end

