-- ==== Sys2Proof/Machine/DomainOps.lean ====
section
/-! DEFINITION. Power and reset domains as wholes (R363, R364, R387 to R394): what a stack loses, gating, powering,
domain resets and their release, retirement, and entry to OUT_OF_SERVICE. -/

namespace Sys2Proof.Machine

/-! ### Losing a stack (R389) -/

/-- Every byte of a stack is lost, and the page frames in it with it. -/
def loseStack (s : State) (side : Nat) : State :=
  let lo := side * stackEnd
  let hi := (side + 1) * stackEnd
  let s1 := loseBuffers s lo hi
  { s1 with
    mem := sclear lo hi s1.mem
    ue := s1.ue.filter (fun g => decide (32 * g < lo) || decide (hi ≤ 32 * g))
    sides := updAt s1.sides side (fun d => { poolLo := d.poolLo, poolHi := d.poolHi }) }

/-- The stack holds part of the installed images. -/
def State.imageIn (s : State) (side : Nat) : Bool :=
  s.installed && (inLoss (side * stackEnd) ((side + 1) * stackEnd) s.shard.imgAddr s.shard.imgLen ||
    inLoss (side * stackEnd) ((side + 1) * stackEnd) (attAddr s.shard.imgAddr s.shard.imgLen) s.shard.attLen)

/-- What reads the shard slots ends with them: fetch, programming sets and swap (log entry 27). -/
def dropShardWork (s : State) : State :=
  let s1 := match s.shard.fetch with
    | some f => endFetch s f 0x08 0
    | none => s
  let s2 := s1.shard.progs.foldl (fun t p => finish t p.job 0x08 []) s1
  let s3 := finish s2 (s2.shard.commitAt.bind (fun c => c.2)) 0x08 []
  let s4 : State := { s3 with shard := { s3.shard with progs := [], bad := [], digest := [], signed := 0 } }
  if s4.swapState = 0 then s4 else unhold (swapIdle s4)

/-- The die state after the loss of the shard slots or images: JOINED for LOADED, SERVING and DRAINING, at once or, from
HOLDOVER, on relock (Table 19.4). -/
def toJoined (s : State) : State :=
  let later (d : DieState) : Bool := d == .loaded || d == .serving || d == .draining
  if later s.dieState then finishAll (enterState s .joined) 0x0307 0x08 []
  else if s.dieState = .holdover ∧ later s.left = true then { s with left := .joined }
  else s

/-- Shard slots and images are gone, the pipeline stops here, and every live sequence ends (R389). -/
def loseMaster (s : State) : State :=
  let s1 := dropShardWork s
  let s2 := uninstall (stopFiring ((s1.setFld Reg.shardStatus_activeValid 0).setFld Reg.shardStatus_stageValid 0))
  let s3 := toJoined (s2.liveSeqs.foldl (fun t i => endSeq t i 5) s2)
  { s3 with pow := { s3.pow with gateReq := s3.pow.gateReq ++ [64, 65, 66, 67, 68, 69].filter s3.powered } }

/-! ### Registers of a domain -/

/-- Blocks of a reset domain that hold enables (Table 15.12, R347). -/
def resetBlocks (c : Nat) : List Nat :=
  if c < 64 then [64 + c]
  else if c = 0x50 ∨ c = 0x51 then [c - 0x48]
  else if 0x60 ≤ c ∧ c < 0x68 then [16 + (c - 0x60)]
  else if c = 0x70 then [24, 25]
  else if c = 0x71 then [26, 27]
  else []

/-- The registers of block `b` return to their reset values. -/
def resetBlock (s : State) (b : Nat) : State :=
  resetRegs ((blockCfg b).foldl keepSeen s) (b * 0x10000) ((b + 1) * 0x10000)

/-- A link's domain is reset: the link is DISABLED and its registers have their reset values (R193). -/
def resetLink (s : State) (n : Nat) : State := (resetBlock (disableLink s n) (16 + n)).updLnk n (fun _ => {})

/-- Every link but U4 goes to DISABLED with its enable cleared (R371, R394). -/
def shutLinks (s : State) : State :=
  (List.range 12).foldl (fun t n => disableLink (t.setFld (Reg.linkCfg_en n) 0) n) s

/-! ### Gating and powering (R350, R364) -/

/-- Gate domain `d` at a beat boundary. -/
def gateDomain (s : State) (d : Nat) : State :=
  if d < 64 then gateField s d
  else
    let s1 := if (d = 70 ∨ d = 71) ∧ s.powered d = true then resetBlock (loseStack s (d - 70)) (8 + (d - 70)) else s
    { s1 with pow := { s1.pow with
        pdOn := clrBit s1.pow.pdOn d, pdReq := s1.pow.pdReq.filter (fun x => x != d), pdBegun := s1.pow.pdBegun.filter (fun x => x != d) } }

/-- Links of a SerDes half or of UCIe edge S; none for another domain. -/
def gatedLinks (d : Nat) : List Nat := if d = 72 then [0, 1, 2, 3] else if d = 73 then [4, 5, 6, 7] else if d = 75 then [10, 11] else []

/-- Every link of the domain is disabled (Table 17.1). -/
def State.linksIdle (s : State) (d : Nat) : Bool := (gatedLinks d).all (fun n => s.fld (Reg.linkCfg_en n) == 0)

/-- FIELD_POWER jobs that gate end at the boundary of the gating, after which LOADED may follow (R341, R404). -/
def endGateJobs (s : State) : State :=
  ((s.jobsOf 0x0501).filter (fun e => fieldAt (s.job e.1 e.2).args 8 1 == 0)).foldl (fun t e => loadedCheck (jobDone t e.1 e.2 0 [])) s

/-- The gating of this beat boundary: what was requested, and link domains whose links are all disabled. -/
def applyGates (s : State) : State :=
  let ds := s.pow.gateReq ++ [72, 73, 75].filter (fun d => s.powered d && s.linksIdle d)
  endGateJobs (ds.foldl gateDomain { s with pow := { s.pow with gateReq := [] } })

/-- At most two domains begin powering on in this beat, the lowest first. -/
def beginPower (s : State) : State :=
  let ds := s.pow.pdReq.filter (fun d => !((d == 72 || d == 73 || d == 75) && s.linksIdle d))
  { s with pow := { s.pow with pdReq := ds.drop 2, pdBegun := s.pow.pdBegun ++ ds.take 2 } }

/-! ### OUT_OF_SERVICE (R394) -/

/-- Domains gated in OUT_OF_SERVICE. -/
def serviceDomains : List Nat := List.range 72

/-- Enter OUT_OF_SERVICE: fields, Thistle, Bindweed and HBM are to be gated, links are disabled, jobs abandoned. -/
def enterOos (s : State) : State :=
  let s1 := shutLinks (enterState (stopFiring s) .outOfService)
  abandonAll { s1 with pow := { s1.pow with
    gateReq := serviceDomains.filter s1.powered, pdReq := [], pdBegun := [] }, shard := { s1.shard with bringUp := [] } }

/-- The mark and its record (R393). -/
def markOos (s : State) : State :=
  let h := s.ev.hdr
  writeEvent (writeHeader s (fun h => { h with oos := true })) 0x12 (leBytes 8 h.at0 ++ leBytes 8 h.at1 ++ leBytes 8 s.aliveS)

/-! ### Domain resets (R387, R388) -/

/-- The steps of a field fail with cause DOMAIN_RESET from the boundary on. -/
def failReset (s : State) (f : Nat) : State :=
  (List.range 256).foldl (fun t v => if t.live f v then failStep t f v 0x0107 0 0 [] else t) s

/-- A field enters reset: its enable, registers and memories are lost; tiles keep their weights (Table 18.4). -/
def resetFieldDomain (s : State) (f : Nat) : State :=
  let s1 := failReset s f
  if s1.powered f then
    let s2 := loseField (setFieldEn ((cfgField f).foldl keepSeen s1) f false) f
    dropTiles (setPassWait (setStage s2 f 0) f 0) f
  else s1

/-- An HBM controller enters reset (R389). -/
def resetStack (s : State) (side : Nat) : State :=
  let held := side == 0 || s.imageIn side
  let s1 := resetBlock (loseStack s side) (8 + side)
  if held then loseMaster s1 else s1

/-- What retirement does to a domain (Table 18.5). -/
def retireEffect (s : State) (c : Nat) : State :=
  if c < 64 then
    if s.powered c then gateField s c
    else let t := gateField s c; { t with grid := { t.grid with change := t.grid.change + 1 } }
  else if c < 0x44 then gateDomain s c
  else if c = 0x48 ∨ c = 0x49 then gateDomain s (c - 4)
  else if c = 0x50 ∨ c = 0x51 then enterOos (markOos s)
  else s

/-- A domain is retired in place of its return to service (R391, R392). -/
def retireDomain (s : State) (r : DomReset) : State :=
  let c := r.domain
  let s1 := recordFault s 7 0x0701 c 0 0 {} (leBytes 2 (min 3 (s.resetsInWindow c)))
  let s2 := writeEvent s1 0x11 (leBytes 2 c ++ leBytes 2 (s1.dgenOf c) ++ leBytes 4 0 ++ leBytes 8 s1.aliveS)
  let s3 := writeHeader s2 (fun h => { h with retired := setBit h.retired c })
  let s4 := jobDone { s3 with healthEv := setBit s3.healthEv 0, healthDom := c } r.mbx r.slot 0x69 (leBytes 2 (s3.dgenOf c))
  retireEffect { s4 with domResets := s4.domResets.filter (fun x => x.domain != c) } c

/-- The domain enters reset at a beat boundary. -/
def enterReset (s : State) (r : DomReset) : State :=
  let c := r.domain
  let on := (resetBlocks c).filter s.blockEn
  let s1 := s.setFld (Reg.domainStat_dgen c) (nextDgen (s.fld (Reg.domainStat_dgen c)))
  let s2 := if c < 64 then resetFieldDomain s1 c
    else if c = 0x50 ∨ c = 0x51 then resetStack s1 (c - 0x50)
    else (resetBlocks c).foldl (fun t b => resetLink t (b - 16)) s1
  let s3 : State := { s2 with domResets := s2.domResets.map (fun x => if x.domain = c then { x with inReset := true, enables := on } else x) }
  if r.retire then retireDomain s3 r else s3

/-- Every accepted domain reset takes effect at this boundary. -/
def enterResets (s : State) : State := (s.domResets.filter (fun r => !r.inReset && r.wait == 0)).foldl enterReset s

/-- End a domain reset and its job. -/
def endReset (s : State) (r : DomReset) (status : Nat) : State :=
  jobDone { s with domResets := s.domResets.filter (fun x => x.domain != r.domain) } r.mbx r.slot status (leBytes 2 (s.dgenOf r.domain))

/-- The domain leaves reset: its configuration comes from the shadow, and it is brought up (Table 18.4). -/
def releaseReset (s : State) (r : DomReset) : State :=
  let c := r.domain
  let s0 : State := { s with domResets := s.domResets.map (fun x => if x.domain = c then { x with inReset := false, wait := 1 } else x) }
  let s1 := (resetBlocks c).foldl (fun t b => writeCfgs t t.shadowWord (blockCfg b)) s0
  if c < 64 then
    if s1.powered c then bringUps (loadRecords (setPassWait (setStage s1 c 2) c 1) c true) else endReset s1 r 0
  else if (resetBlocks c).isEmpty then endReset s1 r 0
  else s1

/-- The enables of a domain are set again after the pass of R354; a refused one ends the job ENABLE_REFUSED (R343). -/
def enableReset (s : State) (r : DomReset) : State :=
  let s1 := r.enables.foldl (fun t b => writeEnable t (b * 0x10000) b 1) s
  endReset s1 r (if r.enables.all s1.blockEn then 0 else 0x6B)

end Sys2Proof.Machine
end

