-- ==== Sys2Proof/Machine/LinkEvents.lean ====
section
/-! DEFINITION. Link training and the identity exchange: HELLO_SEND to LINK_ADMIT (R176 to R193). An
event whose condition does not hold leaves the state unchanged (log entry 13). -/

namespace Sys2Proof.Machine

/-- HELLO_SEND: a HELLO every 100 us in IDENTIFY, QUARANTINE and PROBATION (R185); an OPEN link
exchanges none. -/
def execHelloSend (link : Nat) (s : State) : Host.Outcome State Fault Refusal :=
  let st := (s.lnk link).state
  if (st == .identify || st == .quarantine || st == .probation) && !s.isOpen link then
    .next (s.emit (.hello link (helloBytes (s.helloOf link))))
  else .next s

/-- The first failing check of Table 9.6, 0 if none. Before the first map, which alone gives an expected neighbour, checks 1, 3
and 4 are not made, and check 2 only on a partner that has a map (R411; DEDUCED, log entry 85). -/
def helloCheck (s : State) (n : Nat) (h : Hello) : Nat :=
  let e := s.expects n
  let typ := (s.linkEntry n).map entryType
  let mapped := s.sec.map.isSome
  let near := mapped && !h.isSwitch && decide (h.dieId / 256 = s.myId / 256)
  let rev := min 2 h.fpvMax
  if mapped && ((typ != some 1 && typ != some 2) || e.1 != h.dieId || e.2 != h.port) then 1
  else if (mapped || h.mapEpoch != 0) && (h.expDie != s.myId || h.expPort != n) then 2
  else if near && h.mapEpoch != s.epoch then 3
  else if near && h.mapDigest != (s.helloOf n).mapDigest then 4
  else if decide (rev < max h.fpvMin (s.fld (Reg.linkCfg_fpvMin n))) then 5
  else if rev = 1 ∧ n < 8 ∧ popCount (s.lanes n) 4 = 3 then 6
  else 0

/-- A valid HELLO received in IDENTIFY (Table 9.4): QUAR first, then the checks of R186, then admission
to PROBATION on PEER_OK. Before the first map the die answers with PEER_OK 0 and goes no further (R411). -/
def helloIdentify (s : State) (n : Nat) (h : Hello) : State :=
  let s1 := (recordNbr s n h).updLnk n (fun l => { l with peer := some h, peerT := h.tstate })
  let c := helloCheck s n h
  if h.quar then rowTook s n 7 (quarantine s1 n 7 (some h))
  else if c = 3 then s1.updLnk n (fun l => { l with accepted := false })
  else if c ≠ 0 then rowTook s n 8 (quarantine s1 n c (some h))
  else if s.sec.map.isNone then s1
  else
    let s2 := s1.updLnk n (fun l => { l with accepted := true })
    if h.peerOk then rowTook s n 9 (setLink (s2.setFld (Reg.linkStatus_fpv n) (min 2 h.fpvMax)) n .probation)
    else s2

/-- The row of Table 9.4 that a valid HELLO brings about in IDENTIFY. -/
def helloRow (s : State) (n : Nat) (h : Hello) : Nat := if h.quar then 7 else if helloCheck s n h ≠ 0 then 8 else 9

/-- HELLO: a received HELLO (R185, R186). One that R186 discards is counted in every state that accepts HELLOs. -/
def execHello (link : Nat) (payload : List Byte) (s : State) : Host.Outcome State Fault Refusal :=
  let h := readHello payload
  let st := (s.lnk link).state
  if st != .identify && st != .quarantine && st != .probation && st != .inService then .next s
  else if h.kind != 0x10 || h.resvBits then .next (s.count (Reg.trainCnt_helloBad link) 1)
  else
    let s := rowState s link (helloRow s link h) (fun x => x == .identify)
    match (s.lnk link).state with
    | .identify => .next (helloIdentify s link h)
    | .probation => .next (s.updLnk link (fun l => { l with peer := some h, peerT := h.tstate }))
    | _ => .next s

/-- HELLO_TIMEOUT: 100 ms without a valid HELLO in IDENTIFY; not before the first map (R411). -/
def execHelloTimeout (link : Nat) (s : State) : Host.Outcome State Fault Refusal :=
  if (s.lnk link).state = .identify ∧ s.sec.map.isSome ∧ s.isOpen link = false then
    .next (rowTook s link 10 (quarantine s link 8 none))
  else .next s

/-- EPOCH_WAIT_TIMEOUT: check 3 has waited 100 ms on unequal epochs (Table 9.6). -/
def execEpochWaitTimeout (link : Nat) (s : State) : Host.Outcome State Fault Refusal :=
  match (s.lnk link).peer with
  | some h =>
    if (s.lnk link).state = .identify ∧ s.sec.map.isSome ∧ helloCheck s link h = 3 then
      .next (rowTook s link 8 (quarantine s link 3 (some h)))
    else .next s
  | none => .next s

/-- Full training ends on a lane set (R174, R177, R181, Table 9.4). -/
def aligned (s : State) (link good delay : Nat) : State :=
  let r := takeLanes s link good delay
  rowTook s link (if r.2 then 2 else 18)
    (setLink r.1 link (if !r.2 then .down else if link = 12 then .inService else if s.isOpen link then .probation else .identify))

/-- PCS_ALIGNED. -/
def execPcsAligned (link good delay : Nat) (s : State) : Host.Outcome State Fault Refusal :=
  let s := rowState s link 2 (fun x => x == .phyTrain)
  if (s.lnk link).state = .phyTrain then .next (aligned s link good delay) else .next s

/-- PHY_TRAIN_TIMEOUT: 500 ms without alignment. -/
def execPhyTrainTimeout (link : Nat) (s : State) : Host.Outcome State Fault Refusal :=
  if (s.lnk link).state = .phyTrain then .next (rowTook s link 3 (setLink (s.count (Reg.trainCnt_trainFail link) 1) link .down))
  else .next s

/-- DOWN_RETRY: 1,000 ms in DOWN. -/
def execDownRetry (link : Nat) (s : State) : Host.Outcome State Fault Refusal :=
  if (s.lnk link).state = .down then .next (startTraining s link) else .next s

/-- A link in a state that a lane failure ends (Table 9.4). -/
def laneFailState (st : LinkState) : Bool :=
  st == .identify || st == .quarantine || st == .probation || st == .inService

/-- A lane of a port fails: it is failed until the next full training, and the link retrains at once (R176, R183). -/
def laneFail (s : State) (link lane : Nat) : State :=
  if laneFailState (s.lnk link).state && decide (link < 8) && decide (lane < 4) then
    let s1 := s.setFld (Reg.linkStatus_failedLanes link) (setBit (s.fld (Reg.linkStatus_failedLanes link)) lane)
    let s2 := s1.updLnk link (fun l => { l with berBad := setAt l.berBad lane 0 })
    retrainLink (s2.setFld (Reg.laneStat_failed link lane) 1) link
  else s

/-- LANE_FAIL. -/
def execLaneFail (link lane : Nat) (s : State) : Host.Outcome State Fault Refusal := .next (laneFail s link lane)

/-- FAST_RETRAIN_DONE: the fast retrain re-aligns on the lanes left, or falls back (R184, Table 9.4); an OPEN link, which
exchanges no HELLO, goes on to PROBATION (DEDUCED, log entry 55). -/
def execFastRetrainDone (link : Nat) (ok : Bool) (good delay : Nat) (s : State) : Host.Outcome State Fault Refusal :=
  let s := if ok then rowState s link 15 (fun x => x == .retrain) else s
  if (s.lnk link).state = .retrain then
    if ok then
      let r := takeLanes s link good delay
      .next (rowTook s link (if r.2 then 15 else 18) (if r.2 then
          setLink (r.1.count (Reg.trainCnt_retrainCnt link) 1) link (if s.isOpen link then .probation else .identify)
        else setLink r.1 link .down))
    else .next (rowTook s link 16 (startTraining s link))
  else .next s

/-- UCIE_REPAIR_FAIL: a module whose lane repair cannot cover its failures leaves service (R180). -/
def execUcieRepairFail (link : Nat) (s : State) : Host.Outcome State Fault Refusal :=
  let st := (s.lnk link).state
  if 8 ≤ link ∧ (laneFailState st || st == .retrain) = true then .next (startTraining s link) else .next s

/-- TSTATE qualifies for admission: LOCKED, ROOT, or the die's own HOLDOVER under PARENT_HOLD (R191). -/
def timeQualifies (s : State) : Bool :=
  s.time.state == .locked || s.time.state == .root
    || (s.time.state == .holdover && s.fld Reg.ddlStatus_parentHold == 1)

/-- The partner's model generation agrees (R191): equal to the die's own; switches and OPEN links are
exempt. -/
def modelAgrees (s : State) (n : Nat) : Bool :=
  s.isOpen n || match (s.lnk n).peer with
    | some h => h.isSwitch || h.modelGen == (s.helloOf n).modelGen
    | none => false

/-- The admission conditions of R191, at a boundary at which a step of the link's departure table begins, or at any where the
die is not firing or has no table for it. A partner reports HOLDOVER alike with and without PARENT_HOLD, and both are taken to
qualify (DEDUCED, log entry 86). -/
def admissible (s : State) (n : Nat) : Bool :=
  (s.lnk n).state == .probation && s.cyc == 0 && timeQualifies s
    && ((s.lnk n).peerT == 2 || (s.lnk n).peerT == 3 || (s.lnk n).peerT == 4)
    && (decide (64 ≤ (s.lnk n).beatsOk) || !s.exchanges n) && modelAgrees s n
    && (!s.firing || (s.section 7 n).isEmpty || s.stepBeat (64 + n) == 0)

/-- LINK_ADMIT: a link in PROBATION that meets R191 enters IN_SERVICE; its OUT_OF_STEP mark ends. -/
def execLinkAdmit (link : Nat) (s : State) : Host.Outcome State Fault Refusal :=
  if admissible s link then .next (setLink (s.setFld (Reg.linkBeat_outOfStep link) 0) link .inService)
  else .next s

end Sys2Proof.Machine
end

