-- ==== Sys2Proof/Machine/General.lean ====
section
/-! DEFINITION. General commands of Table 15.1: ECHO, GET_INFO, HEALTH_READ (R311, R318). -/

namespace Sys2Proof.Machine

/-- ECHO returns its arguments unchanged as response data. -/
def execEcho (m : Nat) (s : State) : Host.Outcome State Fault Refusal :=
  .next (takeCommand m 0x0001 never never accepted (.now (fun args s => (s, args))) s)

/-- The 32 bytes of GET_INFO (Table 15.3). -/
def infoBytes (s : State) : List Byte :=
  leBytes 4 Config.romRev.toNat ++ leBytes 4 (s.fld Reg.patchLevel_level) ++ leBytes 2 (s.fld Reg.cmdset_version)
    ++ leBytes 1 s.dieState.code ++ leBytes 1 (s.fld Reg.secRole_role) ++ leBytes 4 s.dieIdWord ++ leBytes 1 s.time.state.code
    ++ leBytes 1 (s.fld Reg.shardStatus_swapState) ++ leBytes 2 0 ++ leBytes 4 (s.fld Reg.modelGenCur_gen) ++ leBytes 8 s.ns

/-- GET_INFO. -/
def execGetInfo (m : Nat) (s : State) : Host.Outcome State Fault Refusal :=
  .next (takeCommand m 0x0002 never never accepted (.now (fun _ t => (t, infoBytes t))) s)

/-- A CSR offset is a tile's DRIFT_STAT. -/
def isDriftStat (off : Nat) : Bool :=
  let o := off % 0x10000
  decide (0x400000 ≤ off) && decide (off < 0x800000) && decide (0x4000 ≤ o) && decide (o < 0x6000) && o % 0x40 == 0x3C

/-- Tiles whose DRIFT_STAT has bit `b` set. -/
def State.driftTiles (s : State) (b : Nat) : Nat := (s.csr.filter (fun e => isDriftStat e.1 && hasBit e.2.toNat b)).length

/-- FLAGS of HEALTH_READ. -/
def healthFlags (s : State) : Nat :=
  b2n (decide (0 < s.pow.s)) + 2 * b2n (!s.shard.bad.isEmpty) + 4 * s.fld Reg.coreStatus_patchReject
    + 8 * b2n (s.grid.tiles.any (fun e => e.2.live.warn)) + 16 * b2n (decide (0 < s.driftTiles 29))

/-- LINK_STATES: four bits a link. -/
def linkStates (s : State) : Nat := (List.range 13).foldl (fun a n => a + (s.lnk n).state.code * 16 ^ n) 0

/-- QUAR_MASK. -/
def quarMask (s : State) : Nat :=
  (List.range 13).foldl (fun a n => if (s.lnk n).state = .quarantine then a + 2 ^ n else a) 0

/-- The 48 bytes of HEALTH_READ (Table 15.3). -/
def healthBytes (s : State) : List Byte :=
  leBytes 4 s.dieIdWord ++ leBytes 1 s.dieState.code ++ leBytes 1 (healthFlags s) ++ leBytes 2 (s.fld Reg.tempNow_temp)
    ++ leBytes 1 s.pow.band ++ leBytes 1 (64 - popCount s.pow.pdOn 64) ++ leBytes 1 (popCount s.ev.hdr.retired 64) ++ leBytes 1 0
    ++ leBytes 2 (s.grid.tiles.filter (fun e => e.2.live.retired)).length ++ leBytes 2 (s.driftTiles 30)
    ++ leBytes 8 (linkStates s) ++ leBytes 2 (quarMask s) ++ leBytes 2 0 ++ leBytes 4 s.kvFree ++ leBytes 2 s.seqsActive
    ++ leBytes 2 (s.seqsIn 3) ++ leBytes 4 (s.fld Reg.faultTotal_total) ++ leBytes 8 s.ns

/-- HEALTH_READ. -/
def execHealthRead (m : Nat) (s : State) : Host.Outcome State Fault Refusal :=
  .next (takeCommand m 0x0003 never never accepted (.now (fun _ t => (t, healthBytes t))) s)

end Sys2Proof.Machine
end

