-- ==== Sys2Proof/Machine/SeqCmds.lean ====
section
/-! DEFINITION. Sequence and budget commands of Table 15.10 (R273, R274, R337 to R340). -/

namespace Sys2Proof.Machine

/-! ### SEQ_SUBMIT -/

/-- Argument fields of SEQ_SUBMIT. -/
def suWord (a : List Byte) : Nat := fieldAt a 0 4
def suTenant (a : List Byte) : Nat := bits (suWord a) 0 20
def suPrio (a : List Byte) : Nat := bits (suWord a) 20 2
def suAdapter (a : List Byte) : Nat := fieldAt a 4 2
def suPrompt (a : List Byte) : Nat := fieldAt a 8 4
def suMax (a : List Byte) : Nat := fieldAt a 12 4
def suBuf (a : List Byte) : Nat := fieldAt a 24 8
def suStop (a : List Byte) : Nat := fieldAt a 32 4

/-- Bytes of the token buffer. -/
def suBytes (a : List Byte) : Nat := 8 * (suPrompt a + suMax a + 8)

/-- Tokens that a sequence reserves (R274). -/
def suNeed (a : List Byte) : Nat := suPrompt a + suMax a + 512

/-- BAD_ARGS of SEQ_SUBMIT (R313, R337). -/
def submitArgs (a : List Byte) (s : State) : Bool :=
  bits (suWord a) 27 5 != 0 || fieldAt a 6 2 != 0 || fieldAt a 36 4 != 0 || suPrompt a == 0 || suMax a == 0 ||
    decide (2 ^ 20 < suPrompt a + suMax a) || decide (hbmEnd < suBuf a + suBytes a) || !wbufOk s (suBuf a) (suBytes a)

/-- Lowest FREE entry of the table. -/
def freeEntry (s : State) : Option Nat := (List.range 16384).find? (fun i => (s.seq i).st == 0)

/-- SWAP_STATE is IDLE. -/
def State.swapIdle (s : State) : Bool := s.fld Reg.shardStatus_swapState == 0

/-- An adapter is resident for a tenant on every die of the pipeline (R273). -/
def State.adapterOk (s : State) (h t : Nat) : Bool :=
  h == 0 || (s.grid.adapters.any (fun x => x.handle == h && x.tenant == t && x.resident) &&
    s.seqs.peers.all (fun p => p.adapters.contains (h, t)))

/-- Every prompt token and the stop token lie below the vocabulary size. -/
def tokensOk (s : State) (a : List Byte) : Bool :=
  (List.range (suPrompt a)).all (fun k => decide (s.hbm (suBuf a + 8 * k) 4 < s.sched.vocab)) &&
    (suStop a == 0xFFFFFFFF || decide (suStop a < s.sched.vocab))

/-- The tenant may take a budget slot and is not EMPTY (check 6). -/
def budgetOk (s : State) (t : Nat) : Bool :=
  match s.budget t with
  | some b => !b.empty
  | none => decide (s.seqs.budgets.length < 4096)

/-- Frames that parking a sequence takes on this die. -/
def State.parkFrames (s : State) (i : Nat) : Nat := if s.attUnits = 0 then 0 else (s.validPages i).length

/-- Sequences of a lower priority that may be parked, in the order of R274. -/
def parkOrder (s : State) (prio : Nat) : List Nat :=
  (sortBy s (fun e => e.prio * 2 ^ 32 + e.order) (s.liveSeqs.filter (fun i =>
    let e := s.seq i
    decide (1 ≤ e.st) && decide (e.st ≤ 3) && decide (prio < e.prio) && decide (0 < e.reserve) && !e.park &&
      e.dirs.all (fun d => d.phase == 3 && d.home)))).reverse

/-- The first sequences of a list whose reservations free `short` tokens and whose frames fit in `room`. -/
def parkPlan (s : State) (short room : Nat) : List Nat → Option (List Nat)
  | [] => if short = 0 then some [] else none
  | i :: l =>
    if short = 0 then some []
    else if room < s.parkFrames i then none
    else (parkPlan s (short - (s.seq i).reserve) (room - s.parkFrames i) l).map (fun x => i :: x)

/-- What has to be parked for a submit; none where parking cannot free enough. -/
def parkFor (s : State) (a : List Byte) : Option (List Nat) :=
  parkPlan s (suNeed a - s.kvFree) (s.seqs.parkCap - s.att.parked.length) (parkOrder s (suPrio a))

/-- The checks of Table 13.3 in their order. -/
def submitRefused (a : List Byte) (s : State) : Option (Nat × List Byte) :=
  if s.dieState ≠ .serving ∨ (!s.swapIdle) = true then some (0x5C, [])
  else if (freeEntry s).isNone then some (0x5D, [])
  else if s.ctxLimit < suNeed a then some (0x5E, [])
  else if s.ueIn (suBuf a) (8 * suPrompt a) then some (0x6C, [])
  else if !tokensOk s a then some (0x5F, [])
  else if !s.adapterOk (suAdapter a) (suTenant a) then some (0x60, [])
  else if !budgetOk s (suTenant a) then some (0x61, [])
  else if (parkFor s a).isNone then some (0x62, [])
  else none

/-- Generation after another (R271). -/
def nextSeqGen (g : Nat) : Nat := if g = 0xFFFF then 1 else g + 1

/-- Park a sequence for capacity: P_CAP, PARK = 1, and its reservation returns. -/
def parkForCap (s : State) (i : Nat) : State :=
  pauseCheck (parkSeq (s.updSeq i (fun e => { e with pCap := true, reserve := 0, parkAt := s.beat })) i) i

/-- The new entry. -/
def newSeq (s : State) (a : List Byte) (i m slot : Nat) : SeqE :=
  { gen := nextSeqGen (s.seq i).gen, st := 1, tenant := suTenant a, prio := suPrio a, contLate := hasBit (suWord a) 22
    rerun := hasBit (suWord a) 23, spec := bits (suWord a) 24 3, adapter := suAdapter a, promptLen := suPrompt a, maxNew := suMax a
    deadline := fieldAt a 16 8, tokbuf := suBuf a, modelGen := s.modelGen, stop := suStop a, order := s.seqs.order
    lastCommit := s.beat, mbx := m, job := some (m, slot), need := suNeed a, reserve := suNeed a
    dirs := s.attDies.map (fun d => { die := d.1, base := d.2 }) }

/-- The lowest FREE entry, 0 where there is none. -/
def State.nextEntry (s : State) : Nat := (freeEntry s).getD 0

/-- Response data of an accepted submit: SEQ_ID and SEQ_GEN. -/
def submitData (a : List Byte) (s : State) : List Byte :=
  leBytes 4 (s.seqId s.nextEntry) ++ leBytes 2 (newSeq s a s.nextEntry 0 0).gen ++ leBytes 2 0

/-- Admit a sequence: capacity, budget slot, entry and bind stores. -/
def submit (m : Nat) (a : List Byte) (slot : Nat) (s : State) : State :=
  let s1 := ((parkFor s a).getD []).foldl parkForCap s
  let i := s1.nextEntry
  let s2 := s1.updSeq i (fun _ => newSeq s1 a i m slot)
  let s3 := { s2 with seqs := { s2.seqs with
      order := (s2.seqs.order + 1) % 2 ^ 32
      budgets := if (s2.budget (suTenant a)).isNone then s2.seqs.budgets ++ [({ tenant := suTenant a } : Budget)] else s2.seqs.budgets } }
  let s4 := s3.count Reg.admitCnt_admitted 1
  pumpAll (boundCheck ((s4.seq i).dirs.foldl (fun t d => storeBind t i d t.beat) s4) i)

/-- A submit refused under R273 counts in ADMIT_CNT.REFUSED; a granule that its check of the prompt found uncorrectable is
recorded (R381). -/
def countRefused (m : Nat) (s t : State) : State :=
  let a := cmdArgs (s.mb m).cmd
  match refusal m 0x0401 submitArgs submitRefused s with
  | some r => (if r = 0x6C then readUe t (suBuf a) (8 * suPrompt a) 6 else t).count Reg.admitCnt_refused 1
  | none => t

/-- SEQ_SUBMIT. -/
def execSeqSubmit (m : Nat) (s : State) : Host.Outcome State Fault Refusal :=
  .next (countRefused m s (takeCommand m 0x0401 never submitArgs submitRefused (.jobData submitData (submit m)) s))

/-! ### Cancel, pause, resume (R339) -/

/-- Local number of the sequence that the arguments name. -/
def sqIdx (a : List Byte) : Nat := fieldAt a 0 4 % 2 ^ 14

/-- The sequence is not on this die, or has ended. -/
def seqRefused (a : List Byte) (s : State) : Option (Nat × List Byte) :=
  let e := s.seq (sqIdx a)
  if fieldAt a 0 4 / 2 ^ 14 ≠ s.myId ∨ e.gen ≠ fieldAt a 4 2 ∨ e.gen = 0 then some (0x64, [])
  else if e.alive then none
  else some (0x65, leBytes 1 e.cause)

/-- SEQ_CANCEL (R292). -/
def execSeqCancel (m : Nat) (s : State) : Host.Outcome State Fault Refusal :=
  .next (takeCommand m 0x0402 never (fun a _ => fieldAt a 6 2 != 0) seqRefused
    (.now (fun a t => (pumpAll (endSeq t (sqIdx a) 2), []))) s)

/-- SEQ_PAUSE (R285, R286). -/
def execSeqPause (m : Nat) (s : State) : Host.Outcome State Fault Refusal :=
  .next (takeCommand m 0x0403 never (fun a _ => decide (1 < fieldAt a 6 1) || fieldAt a 7 1 != 0) seqRefused
    (.now (fun a t =>
      let t1 := pauseCheck (t.updSeq (sqIdx a) (fun e => { e with pHost := true })) (sqIdx a)
      (pumpAll (if hasBit (fieldAt a 6 1) 0 && !(t1.seq (sqIdx a)).park then parkSeq t1 (sqIdx a) else t1), []))) s)

/-- SEQ_RESUME: P_HOST clears, and PARK = 0 is written unless P_CAP remains. -/
def execSeqResume (m : Nat) (s : State) : Host.Outcome State Fault Refusal :=
  .next (takeCommand m 0x0404 never (fun a _ => fieldAt a 6 2 != 0) seqRefused
    (.now (fun a t =>
      let e := t.seq (sqIdx a)
      if !e.pHost then (t, [])
      else
        let t1 := t.updSeq (sqIdx a) (fun e => { e with pHost := false })
        (pumpAll (resumeCheck (if e.pCap then t1 else unparkSeq t1 (sqIdx a)) (sqIdx a)), []))) s)

/-- SEQ_READ returns the entry (Table 13.1). -/
def execSeqRead (m : Nat) (s : State) : Host.Outcome State Fault Refusal :=
  .next (takeCommand m 0x0405 never (fun a _ => decide (16383 < fieldAt a 0 2) || fieldAt a 2 2 != 0) accepted
    (.now (fun a t => (t, seqBytes t (fieldAt a 0 2)))) s)

/-- SEQ_NOTIFY (R338): at most one runs on a mailbox; the job ends at a beat boundary. -/
def execSeqNotify (m : Nat) (s : State) : Host.Outcome State Fault Refusal :=
  .next (takeCommand m 0x0406 (fun _ t => (t.jobsOf 0x0406).any (fun j => j.1 == m)) never accepted (.job (fun _ _ t => t)) s)

/-- At a beat boundary a SEQ_NOTIFY ends on each mailbox with sequences freed since its last report. -/
def notifyEnds (s : State) : State :=
  (s.jobsOf 0x0406).foldl (fun t j =>
    let n := (t.mb j.1).ended
    if n = 0 then t else jobDone (t.updMb j.1 (fun b => { b with ended := 0 })) j.1 j.2 0 (leBytes 4 n)) s

/-! ### Tenant rates (R289, R340) -/

/-- A tenant's level settled at the present: raised by r × Δt and capped at b, in units of 10^-9. -/
def TenantRate.settle (t : TenantRate) (now : Nat) : TenantRate :=
  { t with level := min (t.burst * 10 ^ 9) (t.level + t.rate * (now - t.at0)), at0 := now }

/-- Argument fields of BUDGET_SET. -/
def bsTenant (a : List Byte) : Nat := fieldAt a 0 4
def bsRate (a : List Byte) : Nat := fieldAt a 4 4
def bsBurst (a : List Byte) : Nat := fieldAt a 8 8

/-- The die is no manager, or holds 16,384 tenants already. -/
def budgetRefused (a : List Byte) (s : State) : Option (Nat × List Byte) :=
  if s.fld Reg.secRole_manager = 0 then some (0x43, [])
  else if ¬ s.seqs.tenants.any (fun t => t.tenant == bsTenant a) ∧ 16384 ≤ s.seqs.tenants.length ∧ (bsRate a ≠ 0 ∨ bsBurst a ≠ 0) then some (0x5D, [])
  else none

/-- Set a tenant's rate and burst; RATE 0 with BURST 0 removes it. -/
def setTenant (a : List Byte) (s : State) : State :=
  let b := bsBurst a
  let l := s.seqs.tenants
  let l1 := if bsRate a = 0 ∧ b = 0 then l.filter (fun t => t.tenant != bsTenant a)
    else if l.any (fun t => t.tenant == bsTenant a) then
      l.map (fun t => if t.tenant == bsTenant a then
        let u := t.settle s.ns
        { u with rate := bsRate a, burst := b, level := min u.level (b * 10 ^ 9) } else t)
    else l ++ [{ tenant := bsTenant a, rate := bsRate a, burst := b, level := b * 10 ^ 9, at0 := s.ns }]
  { s with seqs := { s.seqs with tenants := l1 } }

/-- BUDGET_SET. -/
def execBudgetSet (m : Nat) (s : State) : Host.Outcome State Fault Refusal :=
  .next (takeCommand m 0x0407 never (fun a _ => decide (2 ^ 20 ≤ bsTenant a) || decide (2 ^ 40 < bsBurst a)) budgetRefused
    (.now (fun a t => (setTenant a t, []))) s)

end Sys2Proof.Machine
end

