-- ==== Sys2Proof/Machine/ManagerEvents.lean ====
section
/-! DEFINITION. Manager messages, topology maps, budgets, shed and health reports (R18, R19, R289, R374, R397,
R409 to R414). A message that the die does not accept leaves the state unchanged. -/

namespace Sys2Proof.Machine

/-! ### Alive messages and takeover (R18) -/

/-- MANAGER_ALIVE: from a die other than the obeyed primary it is discarded (R413). -/
def execManagerAlive (src _epoch _time : Nat) (s : State) : Host.Outcome State Fault Refusal :=
  if s.hears && s.manager == some src then .next { s with mgr := { s.mgr with lastAlive := s.ns } } else .next s

/-- MANAGER_ALIVE_SEND: the primary of the obeyed map to its standby. -/
def execManagerAliveSend (s : State) : Host.Outcome State Fault Refusal :=
  match s.sec.map with
  | some t =>
    if s.coreAwake && s.fld Reg.secRole_role == 1 && t.standby != s.myId then .next (s.sendCtrl t.standby (aliveBytes s)) else .next s
  | none => .next s

/-- STANDBY_TAKEOVER: 5 ms without a message, and the takeover map is ready: the map is noticed and then obeyed;
every tenant starts at level 0 (R289). -/
def execStandbyTakeover (s : State) : Host.Outcome State Fault Refusal :=
  match s.sec.takeover with
  | some t =>
    if s.coreAwake && s.fld Reg.secRole_role == 2 && s.fld Reg.secStatus_takeoverReady == 1 && !s.mgr.took
        && decide (s.mgr.lastAlive + 5000000 ≤ s.ns) then
      let s1 := awaitMap (sendNotices s t) t none
      .next { s1 with
        mgr := { s1.mgr with took := true }
        seqs := { s1.seqs with tenants := s1.seqs.tenants.map (fun x => { x with level := 0, at0 := s.ns, answered := [] }) } }
    else .next s
  | none => .next s

/-! ### Maps -/

/-- MAP_NOTICE (R413): a preferred map is read with remote LOADs, one map at a time; a notice that comes while another map is being
read is dropped, and only a later one brings it back (DESIGN CHOICE, log entry 88). -/
def execMapNotice (src epoch len addr : Nat) (digest : List Byte) (s : State) : Host.Outcome State Fault Refusal :=
  if s.hears && s.sec.mapRead.isNone && s.prefers epoch src then
    .next (pumpAll (mapLoad { s with sec := { s.sec with mapRead := some (src, epoch, len, addr, digest), mapBytes := [] } }))
  else .next s

/-- MAP_NOTICE_RESEND: the signer of the map in force, every 1,000 ms. -/
def execMapNoticeResend (s : State) : Host.Outcome State Fault Refusal :=
  match s.sec.map with
  | some t => if s.coreAwake && t.signer == s.myId && s.fld Reg.secRole_manager == 1 then .next (sendNotices s t) else .next s
  | none => .next s

/-- MAP_PUBLISH_SIGNED (R412): the signature is made; the map is written behind its body, noticed, and obeyed. -/
def execMapPublishSigned (s : State) : Host.Outcome State Fault Refusal :=
  match s.sec.mapSign with
  | [] => .next s
  | (t, job) :: l =>
    let s1 := { s with sec := { s.sec with mapSign := l } }
    if !s.coreAwake then .next s
    else if !s.rangePresent (fabLocal t.addr) t.len then .next (finish s1 job 0x08 [])
    else if !s.prefers t.epoch t.signer then .next (finish s1 job 0x46 [])
    else .next (awaitMap (sendNotices (writeSignedMap s1 t) t) t job)

/-- TAKEOVER_MAP_READY (R414). -/
def execTakeoverMapReady (s : State) : Host.Outcome State Fault Refusal :=
  match s.sec.takeover with
  | some t =>
    if s.coreAwake && s.fld Reg.secStatus_takeoverReady == 0 then .next ((writeSignedMap s t).setFld Reg.secStatus_takeoverReady 1) else .next s
  | none => .next s

/-- The map's time role agrees with TIME_ROLE, or one of the exceptions of R411 holds. -/
def roleAgrees (s : State) (t : TopoMap) : Bool :=
  let r := s.fld Reg.ddlCfg_timeRole
  match t.entryOf s.myId with
  | none => false
  | some e => e.time == r || (r == 1 && e.time == 2 && t.root == s.myId) || (r == 2 && e.time == 1 && s.time.state != .free)

/-- What the obeyed map does to the time state (Table 7.5). -/
def mapTime (s : State) (t : TopoMap) : State :=
  if s.time.state = .root ∧ t.root ≠ s.myId then enterAcquiring s
  else if (s.time.state = .locked ∨ s.time.state = .holdover) ∧ s.fld Reg.ddlCfg_timeRole = 1 ∧ t.root = s.myId then enterRoot s
  else timeStart s

/-- Links that the map leaves open need no identity checks (R409). -/
def openLinks (s : State) : State :=
  (List.range 12).foldl (fun a n => if a.isOpen n && (a.lnk n).state == .identify then setLink a n .probation else a) s

/-- MAP_OBEY (R411): the verified map takes effect at the beat boundary. -/
def execMapObey (s : State) : Host.Outcome State Fault Refusal :=
  match s.sec.mapPend with
  | none => .next s
  | some (t, job) =>
    if !s.coreAwake then .next s
    else
      let newer := decide (s.epoch < t.epoch)
      let s1 := { s with
        sec := { s.sec with map := some t, mapPend := none }, mgr := { s.mgr with lastAlive := s.ns, took := false }
        time := { s.time with parent := 0 } }
      let s2 := (takePosition s1).setFld Reg.secStatus_roleConflict (b2n (!roleAgrees s1 t))
      let s3 := openLinks (if newer then restartChecks s2 else s2)
      let s4 := joinCheck (relockCheck s3 (mapTime s3 t))
      .next (finish (prepareTakeover s4) job 0 (leBytes 4 t.epoch))

/-! ### Budgets (R289) -/

/-- The manager's answer: what it grants, with the level lowered; a request already answered receives its grant again. -/
def answerBudget (s : State) (src tenant reqNo units : Nat) : State × Nat :=
  match s.seqs.tenants.find? (fun x => x.tenant == tenant) with
  | none => (s, 0)
  | some x =>
    let u := x.settle s.ns
    let again := (u.answered.find? (fun e => e.1 == src && e.2.1 == reqNo)).map (fun e => e.2.2)
    let g := again.getD (min units (u.level / 10 ^ 9))
    let v : TenantRate := if again.isSome then u else
      { u with level := u.level - g * 10 ^ 9, answered := u.answered.filter (fun e => e.1 != src) ++ [(src, reqNo, g)] }
    ({ s with seqs := { s.seqs with tenants := s.seqs.tenants.map (fun y => if y.tenant == tenant then v else y) } }, g)

/-- A budget message (Table 13.7). -/
def budgetBytes (kind tenant reqNo units : Nat) : List Byte :=
  leBytes 1 kind ++ leBytes 3 0 ++ leBytes 4 tenant ++ leBytes 4 reqNo ++ leBytes 4 units

/-- BUDGET_REQ: the primary answers. -/
def execBudgetReq (src tenant reqNo units : Nat) (s : State) : Host.Outcome State Fault Refusal :=
  if s.hears && s.fld Reg.secRole_manager == 1 && s.fld Reg.secRole_role == 1 then
    let r := answerBudget s src tenant reqNo units
    .next (r.1.sendCtrl src (budgetBytes 0x25 tenant reqNo r.2))
  else .next s

/-- A grant for the tenant's latest request. -/
def takeAnswer (s : State) (tenant reqNo units : Nat) : State :=
  match s.budget tenant with
  | some b => if b.waits && b.reqNo == reqNo then takeGrant s tenant units else s
  | none => s

/-- BUDGET_GRANT, from the obeyed primary. -/
def execBudgetGrant (src tenant reqNo units : Nat) (s : State) : Host.Outcome State Fault Refusal :=
  if s.hears && s.manager == some src then .next (takeAnswer s tenant reqNo units) else .next s

/-- A request of this die: the next number, or the latest again while it is not answered. -/
def sendBudgetReq (s : State) (mgr : Nat) (b : Budget) : State :=
  let no := if b.waits then b.reqNo else (b.reqNo + 1) % 2 ^ 32
  let units := ((s.grant : Int) - b.beta).toNat
  let s1 := updBudget s b.tenant (fun x => { x with reqNo := no, lastReq := some s.ns, waits := true })
  if mgr = s.myId then
    if s.fld Reg.secRole_role = 1 then
      let r := answerBudget s1 s.myId b.tenant no units
      takeAnswer r.1 b.tenant no r.2
    else s1
  else s1.sendCtrl mgr (budgetBytes 0x24 b.tenant no units)

/-- BUDGET_REQ_SEND, within the housekeeping round: tenants below GRANT, at most one request in 1 ms each. -/
def budgetReqs (s : State) : State :=
  match s.manager with
  | none => s
  | some mgr => s.seqs.budgets.foldl (fun t b =>
      let due := match b.lastReq with
        | none => true
        | some n => decide (n + 1000000 ≤ t.ns)
      if due && decide (b.beta < (t.grant : Int)) then sendBudgetReq t mgr b else t) s

/-! ### Shed and health reports -/

/-- SHED_REPORT at an entry die (R374): the sender's last S and the round of its arrival. -/
def execShedReport (src sv _cause _round : Nat) (s : State) : Host.Outcome State Fault Refusal :=
  if s.hears && s.entryField.isSome then
    let l := s.pow.reports.filter (fun r => r.die != src)
    .next { s with pow := { s.pow with reports := l ++ [({ die := src, s := min 40 sv, round := s.fld Reg.heartbeat_count } : ShedRep)] } }
  else .next s

/-- Address of a die's entry in the rack health table. -/
def healthAddr (s : State) (src : Nat) : Nat :=
  s.fld Reg.rackHealthHi_baseHi * 2 ^ 32 + s.fld Reg.rackHealthLo_baseLo + 64 * (src % 256)

/-- A manager writes a health report into its table (R397). -/
def takeReport (s : State) (src : Nat) (payload : List Byte) : State :=
  let a := healthAddr s src
  if s.coreAwake && s.fld Reg.secRole_manager == 1 && s.fld Reg.blockEnMisc_fault == 1 && src / 256 == s.myId / 256 &&
      region a == 0 && s.rangePresent a 64 then
    s.write a (slice payload 0 56 ++ leBytes 8 s.ns)
  else s

/-- HEALTH_REPORT at a manager. -/
def execHealthReport (src : Nat) (payload : List Byte) (s : State) : Host.Outcome State Fault Refusal :=
  .next (if s.anyLink then takeReport s src payload else s)

/-- HEALTH_REPORT as this die sends it (Table 18.7). -/
def reportPayload (s : State) : List Byte :=
  leBytes 1 0x2D ++ leBytes 1 s.healthEv ++ leBytes 2 (if hasBit s.healthEv 0 then s.healthDom else 0) ++ healthBytes s
    ++ leBytes 4 (s.fld Reg.faultLost_lost)

/-- HEALTH_REPORT_SEND, within the housekeeping round: to both managers of the obeyed map, at every 1,000th round
or after a notable event (R396). -/
def healthReports (s : State) : State :=
  let due := s.healthEv != 0 || (s.fld Reg.heartbeat_count + 1) % 1000 == 0
  let later := s.dieState != .off && s.dieState != .romBoot && s.dieState != .identified && s.dieState != .outOfService && s.dieState != .thermalShutdown
  match s.sec.map with
  | none => if due then { s with healthEv := 0 } else s
  | some t =>
    if !due then s
    else
      let dests := if t.primary = t.standby then [t.primary] else [t.primary, t.standby]
      let s1 := if later then
          dests.foldl (fun a d => if d = s.myId then takeReport a d (reportPayload s) else a.sendCtrl d (reportPayload s)) s
        else s
      { s1 with healthEv := 0 }

end Sys2Proof.Machine
end

