-- ==== Sys2Proof/Machine/PowerOps.lean ====
section
/-! DEFINITION. Power and temperature (chapter 17): rails and PMBus, the adaptive voltage loop, sensors and thermal
levels, THERMAL_SHUTDOWN, bus sense, and the shed level. -/

namespace Sys2Proof.Machine

/-! ### Rails (Tables 17.3, 20.1) -/

/-- The die's pin THERM_TRIP_N as the record of sent messages names it. -/
def pinThermTrip : Nat := 0

/-- A blocking fault: the rail takes no more writes (R367). -/
def State.railLost (s : State) (n : Nat) : Bool := s.fld (Reg.railStat_lost n) == 1

/-- Set point at power-up, lower and upper end of the recommended range, in mV. -/
def railTable : List (Nat × Nat × Nat) :=
  [(750, 600, 850), (750, 620, 850), (900, 882, 918), (1500, 1455, 1545), (750, 728, 773), (800, 780, 820), (750, 728, 773), (750, 650, 850)]

/-- Set point of a rail. -/
def railSet (n : Nat) : Nat := (getAt (0, 0, 0) railTable n).1

/-- Recommended range of a rail; of an adaptive rail the range to which commands are clamped (R421). -/
def railRange (n : Nat) : Nat × Nat := (getAt (0, 0, 0) railTable n).2

/-- Adaptive rails. -/
def adaptiveRails : List Nat := [0, 1, 7]

/-- Domains on an adaptive rail that have monitors and a DROP (Table 17.3, log entry 28). -/
def railDomains (n : Nat) : List Nat :=
  if n = 0 then List.range 76 else if n = 1 then List.range 64 ++ [76] else if n = 7 then [76, 77, 78, 79] else []

/-- The die writes a PMBus command to a rail that is not lost. -/
def pmbWrite (s : State) (n cmd v : Nat) : State := if s.railLost n then s else s.emit (.pmbus n cmd v)

/-- OPERATION on and off, as PMBus 1.4 codes them. -/
def operationOn : Nat := 0x80
def operationOff : Nat := 0x00

/-! ### The adaptive voltage loop (R365, R366) -/

/-- Key of a domain on a rail. -/
def avsKey (rail d : Nat) : Nat := rail * 128 + d

/-- Requested voltage of a domain that the loop has not moved. -/
def vDefault (_ : Nat) : Nat := 750

/-- Requested voltage. -/
def State.vReq (s : State) (k : Nat) : Nat := sget vDefault s.pow.vReq k

/-- DROP. -/
def State.dropOf (s : State) (k : Nat) : Nat := sget zeroNat s.pow.drop k

/-- Set DROP. -/
def setDrop (s : State) (k v : Nat) : State := { s with pow := { s.pow with drop := sset zeroNat s.pow.drop k v } }

/-- Powered domains on a rail. -/
def State.railPowered (s : State) (n : Nat) : List Nat := (railDomains n).filter s.powered

/-- Adaptive rails that feed a domain. -/
def railsOf (d : Nat) : List Nat := adaptiveRails.filter (fun n => (railDomains n).contains d)

/-- AVS_EN is set. -/
def State.avsEn (s : State) : Bool := s.fld Reg.powerCfg_avsEn == 1

/-- A domain whose slack is below 5 ps is at its voltage limit: its rail at maximum, its DROP 0. -/
def atLimit (s : State) (d : Nat) (slack : Int) : Bool :=
  decide (slack < 5) && (railsOf d).any (fun n => decide ((railRange n).2 ≤ getAt 0 s.pow.railV n) && s.dropOf (avsKey n d) == 0)

/-- AVS_LIMIT begins: the fault record names the domain that sets it. -/
def limitCheck (s : State) (d : Nat) (slack : Int) : State :=
  if s.powered d && atLimit s d slack then
    let s1 : State := { s with pow := { s.pow with avsLimit := true, avsOkRun := 0 } }
    if s.pow.avsLimit then s1 else recordFault s1 6 0x0601 0xFF 0 0 {} (leBytes 2 d)
  else s

/-- Least slack read in the round of a domain, where it was read. -/
def slackOf (l : List (Nat × Int)) (d : Nat) : Option Int :=
  (l.filter (fun e => e.1 == d)).foldl (fun m e => match m with
    | some x => some (min x e.2)
    | none => some e.2) none

/-- Step 1 of R365 for one domain on a rail. -/
def moveV (slack : List (Nat × Int)) (n : Nat) (s : State) (d : Nat) : State :=
  let k := avsKey n d
  match slackOf slack d with
  | none => s
  | some m =>
    let v := s.vReq k
    let w := if m < 15 then v + 6 else if 35 < m then v - 3 else v
    { s with pow := { s.pow with vReq := sset vDefault s.pow.vReq k w } }

/-- Steps 2 and 3 for a rail: at most 10 mV towards the largest request, and DROP in steps of 3 mV, at most 45. A lost
rail keeps its voltage. -/
def moveRail (slack : List (Nat × Int)) (s : State) (n : Nat) : State :=
  let ds := s.railPowered n
  let s1 := ds.foldl (moveV slack n) s
  let cur := getAt 0 s1.pow.railV n
  let r := railRange n
  let want := ds.foldl (fun m d => max m (s1.vReq (avsKey n d))) 0
  let v := if ds.isEmpty || s1.railLost n then cur else max r.1 (min r.2 (max (cur - 10) (min (cur + 10) want)))
  let s2 := if v = cur then s1 else pmbWrite { s1 with pow := { s1.pow with railV := setAt s1.pow.railV n v } } n 0x21 v
  ds.foldl (fun t d => setDrop t (avsKey n d) (min 45 ((v - t.vReq (avsKey n d)) / 3 * 3))) s2

/-- Adaptive rails return to their set points while AVS_EN is 0. -/
def railHome (s : State) (n : Nat) : State :=
  if getAt 0 s.pow.railV n = railSet n || s.railLost n then s
  else pmbWrite { s with pow := { s.pow with railV := setAt s.pow.railV n (railSet n) } } n 0x21 (railSet n)

/-- AVS_LIMIT ends once every domain has read at least 15 ps for 10 consecutive rounds. -/
def limitRound (s : State) (slack : List (Nat × Int)) : State :=
  let n := if slack.any (fun e => s.powered e.1 && decide (e.2 < 15)) then 0 else min 10 (s.pow.avsOkRun + 1)
  { s with pow := { s.pow with avsOkRun := n, avsLimit := s.pow.avsLimit && decide (n < 10) } }

/-- The end of a round for the loop (R365, R366), while POWER is enabled. -/
def avsRound (s : State) (slack : List (Nat × Int)) : State :=
  if s.fld Reg.blockEnMisc_power = 0 then s
  else if !s.avsEn then limitRound (adaptiveRails.foldl railHome { s with pow := { s.pow with drop := [], dropPend := [] } }) slack
  else limitRound (slack.foldl (fun t e => limitCheck t e.1 e.2) (adaptiveRails.foldl (moveRail slack) s)) slack

/-! ### Bus sense (R376, R426) -/

/-- The converted value in units of 1/256 mV. -/
def State.busValue (s : State) (code : Nat) : Nat := code % 4096 * s.fld Reg.sensCfg_busGain

/-- The converted value in units of 10 mV, rounded down. -/
def State.busUnits (s : State) (code : Nat) : Nat := s.busValue code / 2560 % 65536

/-- A conversion: BUS_NOW and BUS_MIN. -/
def busConvert (s : State) (code : Nat) : State :=
  let v := s.busUnits code
  (s.setFld Reg.busNow_bus v).setFld Reg.busNow_busMin (min (s.fld Reg.busNow_busMin) v)

/-- The comparators act. -/
def State.sensorOn (s : State) : Bool := s.fld Reg.blockEnMisc_sensor == 1

/-! ### THERMAL_SHUTDOWN (R371) -/

/-- Domains gated in THERMAL_SHUTDOWN: all but UCIe edge N and 76 to 79. -/
def shutdownDomains : List Nat := List.range 74 ++ [75]

/-- Entry to THERMAL_SHUTDOWN by a reading of a sensor; a boot that it cuts short has its record. -/
def enterShutdown (s : State) (sensor : Nat) (reading : Int) : State :=
  if s.dieState = .off ∨ s.dieState = .thermalShutdown then s
  else
    let s0 := if s.booting then { bootLog s with pow := { s.pow with pdOn := setBit s.pow.pdOn 74 } } else s
    let s1 := writeHeader (writeEvent s0 0x01 (leBytes 1 sensor ++ leBytes 1 0 ++ leBytes 2 (ofSigned 16 reading))) (fun h => { h with latch := true })
    let s2 := { s1 with pow := { s1.pow with thermTrip := true } }.emit (.pin pinThermTrip true)
    let s3 := shutLinks (abandonAll (enterState (stopFiring s2) .thermalShutdown))
    let s4 : State := { s3 with
      shard := { s3.shard with bringUp := [] }
      pow := { s3.pow with gateReq := shutdownDomains.filter s3.powered, pdReq := [], pdBegun := [], railOff := [3, 4, 5], railsUp := false } }
    [3, 4, 5].foldl (fun t n => pmbWrite t n 0x01 operationOff) s4

/-! ### Sensors and levels (R368 to R370) -/

/-- Valid sensors. -/
def State.validSensors (s : State) : List Nat := (List.range 48).filter (fun n => s.fld (Reg.sens_valid n) == 1)

/-- Latest reading of a sensor, in units of 0.25 °C. -/
def State.sensTemp (s : State) (n : Nat) : Int := toSigned 16 (s.fld (Reg.sens_temp n))

/-- The hottest of the sensors, the lowest number on a tie. -/
def State.hottest (s : State) (l : List Nat) : Option Nat :=
  l.foldl (fun m n => match m with
    | some x => if s.sensTemp x < s.sensTemp n then some n else some x
    | none => some n) none

/-- One level: set at `hi`, cleared below `lo`; each change is a THERMAL interrupt. -/
def levelStep (s : State) (b : Nat) (hi lo t : Int) (cnt : Fld) : State :=
  let l := s.fld Reg.tempNow_levels
  if hi ≤ t ∧ hasBit l b = false then raiseInt ((s.setFld Reg.tempNow_levels (setBit l b)).count cnt 1) 10
  else if t < lo ∧ hasBit l b = true then raiseInt (s.setFld Reg.tempNow_levels (clrBit l b)) 10
  else s

/-- The reported temperature and the levels after a reading. -/
def updateTemp (s : State) : State :=
  let vs := s.validSensors
  let top := s.hottest vs
  let most : Int := match top with
    | some n => s.sensTemp n
    | none => 420
  let t := if vs.length < 40 then max most 420 else most
  let s1 := ((s.setFld Reg.tempNow_temp (ofSigned 16 t)).setFld Reg.tempNow_sensor (top.getD 0)).setFld Reg.thermStatus_sensValid vs.length
  let s2 := s1.setFld Reg.tempNow_fast (b2n ((List.range 48).any (fun n => s1.fld (Reg.sens_fast n) == 1)))
  let s3 := levelStep (levelStep s2 0 380 360 t Reg.thermCnt_warnCnt) 1 420 400 t Reg.thermCnt_throttleCnt
  if 472 ≤ t ∧ hasBit (s3.fld Reg.tempNow_levels) 2 = false then
    enterShutdown (raiseInt (s3.setFld Reg.tempNow_levels (setBit (s3.fld Reg.tempNow_levels) 2)) 10) (top.getD 0) most
  else s3

/-- One reading of a sensor: outside −40 °C to 150 °C, or not complete, it makes the sensor invalid. At 97 °C or above the
sensor is read every 16 µs from then on. -/
def readSensor (s : State) (n : Nat) (r : Option Int) : State :=
  let bad (t : State) : State :=
    (if t.fld (Reg.sens_valid n) = 1 then t.count Reg.thermCnt_sensFailCnt 1 else t).setFld (Reg.sens_valid n) 0
  match r with
  | none => bad s
  | some v =>
    if v < -160 ∨ 600 < v then bad s
    else
      let s1 := (s.setFld (Reg.sens_valid n) 1).setFld (Reg.sens_temp n) (ofSigned 16 v)
      if 388 ≤ v then
        { s1.setFld (Reg.sens_fast n) 1 with pow := { s1.pow with hotSens := if s1.pow.hotSens.contains n then s1.pow.hotSens else s1.pow.hotSens ++ [n] } }
      else s1

/-- The readings of a round: a fast sensor that was below 97 °C for the whole round returns to round-only reading. -/
def readSensors (s : State) (ts : List (Option Int)) : State :=
  let s1 := (List.range 48).foldl (fun t n =>
    let cool := match getAt none ts n with
      | some v => decide (v < 388)
      | none => false
    if t.fld (Reg.sens_fast n) = 1 ∧ t.pow.hotSens.contains n = false ∧ cool = true then t.setFld (Reg.sens_fast n) 0 else t) s
  let s2 : State := { s1 with pow := { s1.pow with hotSens := [] } }
  updateTemp ((List.range 48).foldl (fun t n => readSensor t n (getAt none ts n)) s2)

/-! ### PMBus in a round (R367, R422, R429) -/

/-- Fault bits of a STATUS_WORD: every bit but OFF and POWER_GOOD# (PMBus 1.4; log entry 29). -/
def statusFault (w : Nat) : Bool := w &&& 0xF7BF != 0

/-- Readings of one rail. Four rounds without an answer lose it; an answer brings it back, unless its VOUT_MODE lost it (the count
of failed rounds then holds 100, which no failed rounds reach). -/
def pollRail (i : RoundIn) (s : State) (n : Nat) : State :=
  if 100 ≤ getAt 0 s.pow.railFail n then s
  else match getAt none i.railV n, getAt none i.railP n with
  | some v, some p =>
    let s1 := (((s.setFld (Reg.railStat_vout n) (min v 4095)).setFld (Reg.railStat_pout n) (min p 1023)).setFld (Reg.railStat_lost n) 0)
    let s2 : State := { s1 with pow := { s1.pow with railFail := setAt s1.pow.railFail n 0 } }
    let r := railRange n
    let out := (decide (v < r.1) || decide (r.2 < v)) && !s.pow.railOff.contains n
    let k := if out then getAt 0 s2.pow.railOut n + 1 else 0
    let s3 : State := { s2 with pow := { s2.pow with railOut := setAt s2.pow.railOut n k } }
    if k = 4 then recordFault (s3.setFld (Reg.railStat_fault n) 1) 6 0x0602 0xFF 6 n {} (leBytes 2 0) else s3
  | _, _ =>
    let k := min 99 (getAt 0 s.pow.railFail n + 1)
    let s1 : State := { s with pow := { s.pow with railFail := setAt s.pow.railFail n k } }
    if k = 4 then
      writeEvent (recordFault (s1.setFld (Reg.railStat_lost n) 1) 6 0x0603 0xFF 6 n {} []) 0x07 (leBytes 1 n)
    else s1

/-- STATUS_WORD of one rail, in the round after PMB_ALERT_N. -/
def pollStatus (i : RoundIn) (s : State) (n : Nat) : State :=
  match getAt none i.status n with
  | some w =>
    if statusFault w then
      pmbWrite (recordFault (s.setFld (Reg.railStat_fault n) 1) 6 0x0602 0xFF 6 n {} (leBytes 2 w)) n 0x03 0
    else s.setFld (Reg.railStat_fault n) 0
  | none => s

/-- VOUT_MODE at the enable: another mode than ULINEAR16 loses the rail. -/
def pollMode (i : RoundIn) (s : State) (n : Nat) : State :=
  let set (t : State) (k : Nat) : State := { t with pow := { t.pow with railFail := setAt t.pow.railFail n k } }
  if getAt true i.vmodeOk n then set s (if 100 ≤ getAt 0 s.pow.railFail n then 0 else getAt 0 s.pow.railFail n)
  else if s.railLost n then set s 100
  else set (writeEvent (recordFault (s.setFld (Reg.railStat_lost n) 1) 6 0x0603 0xFF 6 n {} []) 0x07 (leBytes 1 n)) 100

/-- A rail's power: its last reading, plus 50 % while it is lost. -/
def State.railPower (s : State) (n : Nat) : Nat :=
  let p := s.fld (Reg.railStat_pout n)
  if s.railLost n then p + p / 2 else p

/-- PMBus traffic of a round while POWER is enabled; the die's power is the sum over the rails. -/
def pmbRound (s : State) (i : RoundIn) : State :=
  if s.fld Reg.blockEnMisc_power = 0 then s
  else
    let s0 := s.count Reg.powerCnt_pmbRetry i.retries
    let s1 := if s0.pow.railsUp then
        let t := (List.range 8).foldl (pollMode i) s0
        let u := if t.dieState = .thermalShutdown then t
          else ([3, 4, 5].foldl (fun t n => pmbWrite t n 0x01 operationOn)) { t with pow := { t.pow with railOff := [] } }
        { u with pow := { u.pow with railsUp := false, powers := [] } }
      else s0
    let s2 := (List.range 8).foldl (pollRail i) s1
    let s3 := if s2.pow.railStats then (List.range 8).foldl (pollStatus i) s2 else s2
    let p := (List.range 8).foldl (fun a n => a + s3.railPower n) 0
    let ps := (p :: s3.pow.powers).take 10
    let m := ps.foldl (· + ·) 0 / ps.length
    let s4 : State := { s3 with pow := { s3.pow with powers := ps, railStats := false } }
    let lost := (List.range 8).any s4.railLost
    ((s4.setFld Reg.powerRound_last (min p 65535)).setFld Reg.powerRound_mean10 (min m 65535)).setFld Reg.powerStatus_pmbLost (b2n lost)

/-! ### The shed level (R373) -/

/-- A brown-out forces S. -/
def State.brownForced (s : State) : Bool := s.fld Reg.thermStatus_brownout == 1 || decide (0 < s.pow.boHold)

/-- P and M of the round in units of 1/n W, as P × n, the sum of the last n rounds, and n; none while POWER is 0. -/
def State.powerSum (s : State) : Option (Nat × Nat × Nat) :=
  match s.fld Reg.blockEnMisc_power, s.pow.powers with
  | 1, p :: l => some (p, (p :: l).foldl (· + ·) 0, l.length + 1)
  | _, _ => none

/-- Over the cap: P > CAP and M > CAP. -/
def State.overCap (s : State) : Bool :=
  match s.powerSum with
  | some (p, t, n) => decide (s.fld Reg.powerCapCur_cap < p) && decide (s.fld Reg.powerCapCur_cap * n < t)
  | none => false

/-- P > 900 W. -/
def State.over900 (s : State) : Bool :=
  match s.powerSum with
  | some (p, _, _) => decide (900 < p)
  | none => false

/-- The power conditions for lowering S. -/
def State.underCap (s : State) : Bool :=
  let c := s.fld Reg.powerCapCur_cap
  let h := s.fld Reg.powerCfg_capHyst
  match s.powerSum with
  | some (p, t, n) => decide (p + h < c) && decide (t + h * n < c * n)
  | none => true

/-- The throttle level is set and the temperature is 105 °C or above. -/
def State.hotNow (s : State) : Bool := hasBit (s.fld Reg.tempNow_levels) 1 && decide (420 ≤ s.tempNow)

/-- The level decided so far. -/
def State.sSoon (s : State) : Nat := s.pow.sNext.getD s.pow.s

/-- A raise records its causes. -/
def raiseShed (s : State) (by0 : Nat) : State :=
  let v := min 40 (s.sSoon + by0)
  let s1 : State := { s with pow := { s.pow with sNext := some v, lowRun := 0 } }
  if v = s.sSoon then s1
  else (s1.setFld Reg.powerStatus_cap (b2n (s.overCap || s.over900))).setFld Reg.powerStatus_thermal (b2n s.hotNow)

/-- S at the end of a round. -/
def shedRound (s : State) : State :=
  let forced := s.brownForced || (s.pow.avsLimit && s.fld Reg.blockEnMisc_power == 1)
  let s1 := if forced then raiseShed s 40
    else if s.over900 then raiseShed s 8
    else if s.hotNow || s.overCap then raiseShed s (max 1 (s.fld Reg.powerCfg_stepUp))
    else if !hasBit (s.fld Reg.tempNow_levels) 1 && s.underCap then
      if 10 ≤ s.pow.lowRun + 1 ∧ 0 < s.sSoon then { s with pow := { s.pow with sNext := some (s.sSoon - 1), lowRun := 0 } }
      else { s with pow := { s.pow with lowRun := min 10 (s.pow.lowRun + 1) } }
    else { s with pow := { s.pow with lowRun := 0 } }
  let s2 : State := { s1 with pow := { s1.pow with boHold := s1.pow.boHold - 1 } }
  s2.setFld Reg.powerStatus_brownout (b2n s2.brownForced)

/-- SHED_REPORT (R374), to the entry die that the last non-null position names. -/
def shedReport (s : State) : State :=
  match s.pow.lastSeq with
  | none => s
  | some q =>
    if q / 2 ^ 14 = s.myId then s
    else
      let c := s.fld Reg.powerStatus_cap + 2 * s.fld Reg.powerStatus_thermal + 4 * b2n s.brownForced + 8 * b2n s.pow.avsLimit
      s.sendCtrl (q / 2 ^ 14) (leBytes 1 0x2C ++ leBytes 1 s.sSoon ++ leBytes 1 c ++ leBytes 1 0 ++ leBytes 4 (s.fld Reg.heartbeat_count))

/-! ### The temperature band (R116) -/

/-- Lower edge of a band, in units of 0.25 °C. -/
def bandEdge (b : Nat) : Int := if b = 1 then 220 else if b = 2 then 300 else 380

/-- The band that the reported temperature gives next. -/
def bandFor (t : Int) (cur : Nat) : Nat :=
  let up := if 380 ≤ t then 3 else if 300 ≤ t then 2 else if 220 ≤ t then 1 else 0
  if cur < up then up else if 0 < cur ∧ t + 12 ≤ bandEdge cur then cur - 1 else cur

/-- The band after this round takes effect at the next beat boundary. -/
def bandRound (s : State) : State :=
  let cur := s.pow.bandNext.getD s.pow.band
  let b := bandFor s.tempNow cur
  { s with pow := { s.pow with bandNext := if b = s.pow.band then none else some b } }

end Sys2Proof.Machine
end

