-- ==== Sys2Proof/Machine/FieldEvents.lean ====
section
/-! DEFINITION. Field actions: FIELD_SCAN, FIELD_EXPONENT, FIELD_ALIGN, FIELD_OPEN, FIELD_CLOSE, FIELD_SELECT,
and the threshold loop TQ_WINDOW_CLOSE, TQ_CHANGE (chapters 4, 5, 8; R277). An action that the installed
table does not hold at that slot, or that comes while the die does not fire, does nothing. -/

namespace Sys2Proof.Machine

/-- The common frame of SCAN, EXPONENT, ALIGN and CLOSE: look up the entry, move the clock, leave null and
failed positions alone, fail the steps of a field that does not run, check the generation and the tables read (R380). -/
def fieldAction (act field slot vec : Nat) (s : State) (body : State → Nat → Nat → State) : State :=
  let q := s.stepSlot field slot
  if !s.firing || decide (64 ≤ field) || decide (64 ≤ slot) then s
  else match s.actionAt field act q vec with
  | none => s
  | some e =>
    let s0 := s.atSlot slot
    if !s0.live field vec then s0
    else if !s0.fieldRuns field then fieldDown s0 field vec
    else
      let s1 := genCheck s0 field vec (faUidx e)
      if !s1.live field vec then s1
      else match entryFault s1 field vec 4 field 8 ((s1.actions field).idxOf e) (faUidx e) with
      | some t => t
      | none => body s1 q e

/-- A fetched attention output reached the field too late for a SCAN in slot `q` (R167, R246). -/
def outputLate (s : State) (f v q : Nat) : Bool :=
  match (s.posOf f v).bind (fun p => p.got) with
  | some a => decide (q < a + 2)
  | none => false

/-- SCAN (R157, R67, R68, R93). A fetched attention output that came late is LATE (R246). -/
def execFieldScan (field slot vec : Nat) (s : State) : Host.Outcome State Fault Refusal :=
  .next (fieldAction 1 field slot vec s (fun t q e =>
    if outputLate t field vec q then lateField t field vec 0 slot
    else
      let n := vecBytes (bits (t.udesc field (faUidx e) 0) 0 4) (512 * (t.rowBlocks field (faUidx e)).length)
      (sramFault t field vec (faAddr e) n).getD (scanVector t field vec (faUidx e) (faAddr e))))

/-- EXPONENT in the owner field: forms G from its own word and the words that arrived in time; a missing or
late word, of this die or of another, is LATE (R70, R167). -/
def execFieldExponent (field slot vec : Nat) (s : State) : Host.Outcome State Fault Refusal :=
  .next (fieldAction 2 field slot vec s (fun t q e =>
    let u := faUidx e
    let x := (t.scan field vec).getD { uidx := u }
    let need := t.partners field 1 (t.unitOf field u) vec
    let inTime (g : Nat) : Bool := x.words.any (fun w => w.1 == g && decide (w.2.2 + 2 ≤ q))
    let tooLate := x.words.any (fun w => decide (64 ≤ w.1) && decide (q < w.2.2 + 2))
    if x.missing.contains 2 || tooLate || !need.all inTime then lateField t field vec 2 slot
    else
      let own := if t.hasAction field 1 u vec then [x.word] else []
      let ws := own ++ x.words.map (fun w => w.2.1)
      let g := formG (t.actBits field u) (t.actSigned field u) (t.gexpMin field u) ws
      let nan := ws.any (fun w => hasBit w 11)
      setScan t field vec (some { x with g := some (ofSigned 10 g + (if nan then 0x800 else 0), q - 1) })))

/-- ALIGN with the returned G; without it, or with a late one, the word is LATE (R70, R71). -/
def execFieldAlign (field slot vec : Nat) (s : State) : Host.Outcome State Fault Refusal :=
  .next (fieldAction 3 field slot vec s (fun t q e =>
    match t.scan field vec with
    | none => lateField t field vec 2 slot
    | some x =>
      match x.g with
      | none => lateField t field vec 2 slot
      | some (w, at0) => if at0 + 2 ≤ q then alignVector t field vec q (faAddr e) x w else lateField t field vec 2 slot))

/-- OPEN zeroes the unit's lanes, whatever the position holds (R76, R165). -/
def execFieldOpen (field slot vec : Nat) (s : State) : Host.Outcome State Fault Refusal :=
  let q := s.stepSlot field slot
  if !s.firing || decide (64 ≤ field) || decide (64 ≤ slot) then .next s
  else match s.actionAt field 4 q vec with
  | none => .next s
  | some e =>
    let s0 := s.atSlot slot
    if !s0.fieldRuns field then .next (if s0.live field vec then fieldDown s0 field vec else s0)
    else
      let s1 := genCheck s0 field vec (faUidx e)
      let lo := s1.laneLo field (faUidx e)
      .next ((List.range (s1.laneCnt field (faUidx e))).foldl (fun t i => setLane t field (lo + i) 0) s1)

/-- CLOSE: adds a Nettle-only unit's products, checks that every contribution has arrived, and writes the
outputs (R76 to R82, R101 to R103, R167). -/
def execFieldClose (field slot vec : Nat) (s : State) : Host.Outcome State Fault Refusal :=
  .next (fieldAction 5 field slot vec s (fun t q e =>
    match t.scan field vec with
    | none => lateField t field vec 2 slot
    | some x0 =>
      match x0.g with
      | none => lateField t field vec 2 slot
      | some (w, _) =>
        if x0.missing.contains 3 then lateField t field vec 3 slot
        else if !fetchDone t field x0 then lateField t field vec 6 slot
        else match lateKind x0 [3, 4, 6] q with
        | some k => lateField t field vec k slot
        | none =>
          let t1 := nettleOnly t field vec x0
          if !t1.live field vec then t1
          else
            let t2 := formH t1 field vec ((t1.scan field vec).getD x0)
            let x := (t2.scan field vec).getD x0
            match adapterFor t2 field vec (faUidx e), x.h with
            | .fail h, _ => failStep t2 field vec 0x0104 2 field (leBytes 2 h)
            | .use _ _, none => lateField t2 field vec 4 slot
            | _, _ =>
              let ptr := bits (t2.udesc field (faUidx e) 3) 0 21
              (sramFault t2 field vec ptr (8 * t2.laneCnt field (faUidx e))).getD
                (closeVector t2 field vec q (faAddr e) w { x with uidx := faUidx e })))

/-- The SELECT of vector `v` that occupies slot number `q` of the step. -/
def State.selectAt (s : State) (f q v : Nat) : Option Nat :=
  (s.actions f).find? (fun e => faAct e == 6 && faVec e == v && decide (faFirst e ≤ q) && decide (q < faFirst e + s.actLen f e))

/-- SELECT: forms the field's select word; in the last slot of the action the owner field combines every word and writes
the result record (R157, R167, R277). A null position gives NULL; a failed one, a NaN word or a missing or late word gives
FAIL. -/
def execFieldSelect (field slot vec : Nat) (s : State) : Host.Outcome State Fault Refusal :=
  let q := s.stepSlot field slot
  if !s.firing || decide (64 ≤ field) || decide (64 ≤ slot) then .next s
  else match s.selectAt field q vec with
  | none => .next s
  | some e =>
    let s0 := s.atSlot slot
    if !s0.fieldRuns field then .next (if s0.live field vec then fieldDown s0 field vec else s0)
    else
      let u := faUidx e
      let s1 := genCheck s0 field vec u
      let own := s1.isOwner field u && q + 1 == faFirst e + s1.actLen field e
      match s1.posOf field vec with
      | none => .next (if own then s1.putSram field (faAddr e) (resultRec 0 1 emptyCtx) else s1)
      | some p =>
        if p.null then .next (if own then s1.putSram field (faAddr e) (resultRec 0 1 p.ctx) else s1)
        else if p.failed then .next (if own then s1.putSram field (faAddr e) (resultRec 0 2 p.ctx) else s1)
        else
          let x := (s1.scan field vec).getD { uidx := u }
          let mine := if s1.hasAction field 5 u vec then selectWord s1 field u p.ctx x.ys else none
          let s2 := setScan s1 field vec (some { x with sel := mine })
          if !own then .next s2
          else
            let need := s2.partners field 6 (s2.unitOf field u) vec
            let words := (match mine with
              | some w => [w]
              | none => []) ++ x.sels.map (fun w => w.2)
            if x.missing.contains 7 || (lateKind x [7] q).isSome || !need.all (fun g => x.sels.any (fun w => w.1 == g)) then
              .next ((lateField s2 field vec 7 slot).putSram field (faAddr e) (resultRec 0 2 p.ctx))
            else match bestWord words with
            | none => .next (s2.putSram field (faAddr e) (resultRec 0 2 p.ctx))
            | some w =>
              .next (s2.putSram field (faAddr e) (if w.2.2 then resultRec 0 2 p.ctx else resultRec w.2.1 0 p.ctx))

/-- A window of 1,024 block-vectors closes and the threshold loop decides (R95). -/
def execTqWindowClose (field nidx : Nat) (s : State) : Host.Outcome State Fault Refusal :=
  let w := sget noTq s.grid.tqWin (field * 64 + nidx)
  match w.closed with
  | [] => .next s
  | (taken, outs) :: more =>
    let s1 := (s.setFld (Reg.nettleUnitStat_ovfW field nidx) outs).setFld (Reg.nettleUnitStat_useW field nidx) (taken / 1024)
    let cap := bits (s.ndesc field nidx 0) 12 5
    let t := 3 * cap / 4
    let cur := s.fld (Reg.nettleUnitStat_tqCur field nidx)
    let tq := toSigned 12 cur
    if (8 < outs ∨ (t + 1) * 1024 < taken) ∧ tq < toSigned 12 (bits (s.ndesc field nidx 1) 16 12) then
      .next (updTq s1 field nidx (fun y => { y with closed := more, next := some (ofSigned 12 (tq + 1), s.beat) }))
    else if taken + 1024 < t * 1024 ∧ toSigned 12 (bits (s.ndesc field nidx 1) 0 12) < tq then
      .next (updTq s1 field nidx (fun y => { y with closed := more, next := some (ofSigned 12 (tq - 1), s.beat) }))
    else .next (updTq s1 field nidx (fun y => { y with closed := more }))

/-- A decided threshold change takes effect at the first beat boundary after the close (R95). -/
def execTqChange (field nidx : Nat) (s : State) : Host.Outcome State Fault Refusal :=
  match (sget noTq s.grid.tqWin (field * 64 + nidx)).next with
  | some (tq, b) =>
    if b < s.beat then
      .next (updTq (s.setFld (Reg.nettleUnitStat_tqCur field nidx) tq) field nidx (fun y => { y with next := none }))
    else .next s
  | none => .next s

end Sys2Proof.Machine
end

