-- ==== Sys2Proof/Machine/SeqEvents.lean ====
section
/-! DEFINITION. The vector map (R165, R166, R273, R275, R276, R284, R375), commits (R278 to R280, R293), deadlines,
and the stores that land in this die's KV directory (R281 to R283, R286). -/

namespace Sys2Proof.Machine

/-! ### Positions of the first stage (R276) -/

/-- DRIVE entries of the ENTRY fields' tiles. -/
def State.entryDrives (s : State) : List Nat :=
  ((List.range 64).filter s.isEntry).flatMap (fun f =>
    (fieldTiles f).flatMap (fun t => (s.slotEntries t).filter (fun e => seOp e == 1)))

/-- Class of every named position: 0 G, 1 P; a position that no DRIVE entry names is not listed. -/
def State.posClasses (s : State) : List (Nat × Nat) :=
  let ds := s.entryDrives
  (List.range 256).filterMap (fun v => (ds.find? (fun e => seVec e == v)).map (fun e => (v, seClass e)))

/-- Beat in which step 0 begins: START_BEAT reached or awaited. -/
def State.stepBase (s : State) : Option Nat := if s.firing then some s.startBeat else s.sched.startAt

/-- Beat in which step `n` of a field begins. -/
def State.stepBegin (s : State) (f n : Nat) : Option Nat := s.stepBase.map (fun b => b + n * planBeats (s.plan f))

/-! ### Filling a map -/

/-- A position given to a sequence: position, index, input token and its index, class (0 G, 1 P), lent. -/
structure Fill where
  vec   : Nat
  idx   : Nat
  token : Nat
  tok   : Nat
  cls   : Nat
  lent  : Bool
  deriving DecidableEq, Repr

/-- A sequence is ready for a map whose step begins in `beat` (R272, R282, R293). -/
def seqReady (s : State) (i beat : Nat) : Bool :=
  let e := s.seq i
  (e.st == 1 || e.st == 2) && e.dirs.all (fun d => d.phase == 3 && d.home && d.unans == 0) && decide (e.ready ≤ beat) &&
    !e.expire && !s.seqs.places.any (fun p => p.idx == i) &&
    (e.deadline == 0 || e.contLate || decide (beat * 2048 ≤ e.deadline))

/-- The lowest-numbered micro-batch of field `f` with at least `n` of the free positions, and those positions. -/
def roomFor (s : State) (f n : Nat) (free : List Nat) : Option (List Nat) :=
  ((List.range 256).map (fun mb => free.filter (fun v => s.mbOf f v == mb))).find? (fun l => decide (1 ≤ l.length) && decide (n ≤ l.length))

/-- Give a sequence's consecutive tokens the first positions of a list. -/
def giveAll (s : State) (i cls : Nat) (lent : Bool) (vs : List Nat) (n : Nat) : List Fill :=
  ((vs.take n).zipIdx).map (fun x =>
    { vec := x.1, idx := i, token := s.tokRec i ((s.seq i).len + x.2) % 2 ^ 32, tok := (s.seq i).len + x.2, cls := cls, lent := lent })

/-- Draft inputs of a sequence: consecutive records with DRAFT = 1, below SPEC_DEPTH and the context limit. -/
def draftCount (s : State) (i : Nat) : Nat :=
  let e := s.seq i
  ((List.range (min e.spec (s.ctxLimit - 1 - e.len))).takeWhile (fun k => hasBit (s.tokRec i (e.len + 1 + k)) 38)).length

/-- Positions not taken. -/
def freeOf (ps : List Nat) (fs : List Fill) : List Nat := ps.filter (fun v => !fs.any (fun x => x.vec == v))

/-- Pass 1: G positions to DECODE sequences. -/
def passDecode (s : State) (f : Nat) (gs : List Nat) (fs : List Fill) (i : Nat) : List Fill :=
  let n := 1 + draftCount s i
  match roomFor s f n (freeOf gs fs) with
  | some l => fs ++ giveAll s i 0 false l n
  | none => fs

/-- Prompt tokens that a PREFILL sequence may still take, within R255. -/
def promptRest (s : State) (i : Nat) : Nat := min ((s.seq i).promptLen - (s.seq i).len) (s.ctxLimit - (s.seq i).len)

/-- Passes 2 and 3: positions `ps` to a PREFILL sequence that holds none. -/
def passPrefill (s : State) (f : Nat) (lent : Bool) (ps : List Nat) (fs : List Fill) (i : Nat) : List Fill :=
  if fs.any (fun x => x.idx == i) || promptRest s i == 0 then fs
  else match roomFor s f 1 (freeOf ps fs) with
  | some l => fs ++ giveAll s i 1 lent l (promptRest s i)
  | none => fs

/-- Address and length of the inputs that a sequence would take. -/
def promptPart (s : State) (i : Nat) : Nat × Nat :=
  let e := s.seq i
  (e.tokbuf + 8 * e.len, 8 * (if e.st = 1 then min 256 (promptRest s i) else 1 + draftCount s i))

/-- Those inputs hold an uncorrectable granule (R273). -/
def badPrompt (s : State) (i : Nat) : Bool := s.ueIn (promptPart s i).1 (promptPart s i).2

/-- The three passes of R276. -/
def fillMap (s : State) (f beat : Nat) : List Fill :=
  let ready := s.liveSeqs.filter (fun i => seqReady s i beat && !badPrompt s i)
  let gs := (s.posClasses.filter (fun p => p.2 == 0)).map (fun p => p.1)
  let ps := (s.posClasses.filter (fun p => p.2 == 1)).map (fun p => p.1)
  let dec := sortBy s (fun e => e.prio * 2 ^ 32 + e.lastCommit) (ready.filter (fun i => (s.seq i).st == 2))
  let pre := sortBy s (fun e => e.prio * 2 ^ 32 + e.order) (ready.filter (fun i => (s.seq i).st == 1))
  let f1 := dec.foldl (passDecode s f gs) []
  let f2 := pre.foldl (passPrefill s f true gs) f1
  pre.foldl (passPrefill s f false ps) f2

/-! ### Shedding (R374, R375) -/

/-- Rank of a position in the order of shedding. -/
def Fill.rank (s : State) (x : Fill) : Nat := if x.cls = 1 then 0 else 4 - (s.seq x.idx).prio

/-- The position of micro-batch `mb` of step `n` is shed. -/
def shedAt (sp rank mb n : Nat) : Bool := decide (rank < sp / 8) || (rank == sp / 8 && decide ((mb + n) % 8 < sp % 8))

/-! ### Writing the map (R275) -/

/-- A map entry's 32 bytes (Table 13.4). -/
def mapEntry (s : State) (x : Fill) (valid : Bool) : List Byte :=
  let e := s.seq x.idx
  leBytes 2 (x.idx + 2 ^ 15 * b2n valid) ++ leBytes 2 e.gen ++ leBytes 4 (e.tenant + 2 ^ 20 * x.cls + 2 ^ 22 * e.prio)
    ++ leBytes 2 e.adapter ++ leBytes 2 0 ++ leBytes 4 x.token ++ leBytes 4 e.modelGen ++ leBytes 4 x.tok ++ leBytes 8 0

/-- Write entry `v` of buffer `n mod 2`. -/
def writeMapEntry (s : State) (n v : Nat) (bs : List Byte) : State :=
  (List.range 8).foldl (fun t k => t.setWord (0x44000 + 0x2000 * (n % 2) + 32 * v + 4 * k) (BitVec.ofNat 32 (fieldAt bs (4 * k) 4))) s

/-! ### Goals (R284) -/

/-- A DECODE sequence is behind its goal. -/
def isBehind (s : State) (e : SeqE) : Bool :=
  let g := fget (s.word Reg.seqGoal_goal3.reg) (8 * e.prio) 8
  e.st == 2 && g != 0 && decide (256 * g < (s.beat + 2 ^ 32 - e.lastCommit) % 2 ^ 32)

/-- Count the closes at which each sequence was behind. -/
def countBehind (s : State) : State :=
  s.liveSeqs.foldl (fun t i => t.updSeq i (fun e => { e with behind := if isBehind s e then e.behind + 1 else 0 })) s

/-- Set P_GOAL on one placed sequence of lower priority than one that was behind four times. -/
def goalPause (s : State) (placed : List Nat) : State :=
  match ((s.liveSeqs.filter (fun i => decide (4 ≤ (s.seq i).behind))).map (fun i => (s.seq i).prio)).min? with
  | none => s
  | some c =>
    match (sortBy s (fun e => e.prio * 2 ^ 32 + e.order)
      (placed.filter (fun i => decide (c < (s.seq i).prio) && (s.seq i).alive && !(s.seq i).pGoal))).getLast? with
    | none => s
    | some i => pauseCheck (s.updSeq i (fun e => { e with pGoal := true, goalAt := s.beat })) i

/-- Clear P_GOAL on one sequence after 64 closes without one behind and with a lent or null G position. -/
def goalClear (s : State) (spare : Bool) : State :=
  let calm := spare && !s.liveSeqs.any (fun i => isBehind s (s.seq i))
  let n := if calm then s.seqs.onTime + 1 else 0
  if n < 64 then { s with seqs := { s.seqs with onTime := n } }
  else
    let s1 := { s with seqs := { s.seqs with onTime := 0 } }
    match (sortBy s (fun e => e.prio * 2 ^ 64 + e.goalAt) (s.liveSeqs.filter (fun i => (s.seq i).pGoal && (s.seq i).alive))).head? with
    | some i => resumeCheck (s1.updSeq i (fun e => { e with pGoal := false })) i
    | none => s1

/-- Sequences left out for an uncorrectable prompt granule, which the read records (R381): FAIL_RUN, and RETRY_LIMIT at 16 (R273). -/
def failPrompts (s : State) (beat : Nat) : State :=
  (s.liveSeqs.filter (fun i => seqReady s i beat && badPrompt s i)).foldl (fun t i =>
    let t1 := (readUe t (promptPart s i).1 (promptPart s i).2 6).updSeq i (fun e => { e with failRun := e.failRun + 1 })
    if 16 ≤ (t1.seq i).failRun then endSeq t1 i 5 else t1) s

/-- Write the map of step `n`, which begins in beat `b`. -/
def writeMap (s : State) (f n b : Nat) : State :=
  let fs := fillMap s f b
  let sp := s.shedApplied
  let keep := fs.filter (fun x => !shedAt sp (x.rank s) (s.mbOf f x.vec) n)
  let s1 := (List.range 256).foldl (fun t v => match fs.find? (fun x => x.vec == v) with
    | some x => writeMapEntry t n v (mapEntry s x (keep.contains x))
    | none => writeMapEntry t n v []) s
  let s2 := (s1.count (Reg.shedNullCnt f) (fs.length - keep.length)).count Reg.vecFillCnt_lent (keep.filter (fun x => x.lent)).length
  let s3 := { s2 with seqs := { s2.seqs with
      maps := n :: s2.seqs.maps.take 3
      places := s2.seqs.places ++ keep.map (fun x =>
        { step := n, vec := x.vec, idx := x.idx, gen := (s.seq x.idx).gen, token := x.token, tokIdx := x.tok }) } }
  let s4 := countBehind (failPrompts s3 b)
  let spare := s.posClasses.any (fun p => p.2 == 0 && !keep.any (fun x => x.vec == p.1 && !x.lent))
  goalClear (goalPause s4 (keep.map (fun x => x.idx))) spare

/-- VECTOR_MAP_WRITE: the map of a step, once, after the step two before has begun and by the boundary one beat
before its own (R165, R275). -/
def execVectorMapWrite (field stepNo : Nat) (s : State) : Host.Outcome State Fault Refusal :=
  match s.stepBegin field stepNo with
  | none => .next s
  | some b =>
    if !s.isEntry field || s.fld Reg.seqCfg_en == 0 || s.seqs.maps.contains stepNo || decide ((b - 1) * 5120 < s.beat * 5120 + s.cyc) ||
        decide (s.beat + 2 * planBeats (s.plan field) < b) then .next s
    else .next (pumpAll (writeMap s field stepNo b))

/-! ### Commits (R278 to R280, R293) -/

/-- A result record that answers a position: its STATUS and TOKEN, or FAIL. -/
def resultOf (s : State) (present : Bool) (r : Nat) (p : Place) : Nat × Nat :=
  match s.entryField with
  | none => (2, 0)
  | some f =>
    let b := s.sram f (s.fld Reg.resultOff_off + 0x1000 * (r % 2) + 16 * p.vec) 16
    let st := fieldAt b 8 1
    if !present || !s.sramPresent f || s.ueIn (sramAddr f (s.fld Reg.resultOff_off + 0x1000 * (r % 2) + 16 * p.vec)) 16 || !s.seqs.landed.contains (r % 2 * 256 + p.vec) || fieldAt b 4 2 != p.gen ||
        fieldAt b 6 2 % 2 ^ 14 != p.idx || decide (2 < st) then (2, 0)
    else (st, fieldAt b 0 4)

/-- The commit comes after DEADLINE. -/
def isLate (s : State) (e : SeqE) : Bool := e.deadline != 0 && decide (e.deadline < s.beat * 2048)

/-- Deliver one token at index `k`. -/
def deliverTok (s : State) (i k token : Nat) : State :=
  let late := isLate s (s.seq i)
  let s1 := (writeTok s i k token true late none).updSeq i (fun e => { e with newCount := e.newCount + 1 })
  if late then s1.count Reg.lateDeliver_tokens 1 else s1

/-- Tokens delivered of those offered: delivery stops after STOP_TOKEN, or when NEW_COUNT reaches MAX_NEW (R279). -/
def deliverable (stop : Nat) : Nat → List Nat → List Nat
  | 0, _ => []
  | _, [] => []
  | n + 1, t :: l => if t = stop ∧ stop ≠ 0xFFFFFFFF then [t] else t :: deliverable stop n l

/-- Generation ends with the last of the delivered tokens. -/
def genEnds (e : SeqE) (ts : List Nat) : Bool :=
  (e.stop != 0xFFFFFFFF && ts.getLast? == some e.stop) || decide (e.maxNew ≤ e.newCount + ts.length)

/-- Deliver and charge tokens at indices from `k` on (R279, R288). -/
def deliverAll (s : State) (i k : Nat) (ts : List Nat) : State :=
  charge (ts.zipIdx.foldl (fun t x => deliverTok t i (k + x.2) x.1) s) (s.seq i).tenant (4 * ts.length)

/-- The accepted count a: the drafts that the results confirm. -/
def acceptedCount (ds ys : List Nat) : Nat := ((List.zip (ds.drop 1) ys).takeWhile (fun p => p.1 == p.2)).length

/-- A commit's effects on LAST_COMMIT and FAIL_RUN. -/
def committed (s : State) (i : Nat) : State := s.updSeq i (fun e => { e with lastCommit := s.beat % 2 ^ 32, failRun := 0 })

/-- After a commit: the end of generation, the deadline under END, or the length stores (R279, R282, R293). -/
def afterCommit (s : State) (i : Nat) (ends : Bool) : State :=
  if ends then endSeq s i 1
  else if isLate s (s.seq i) && !(s.seq i).contLate then endSeq s i 3
  else storeLength s i

/-- Prefill: the prompt positions of a step are committed. -/
def commitPrefill (s : State) (i : Nat) (ps : List Place) (ys : List Nat) : State :=
  let e := s.seq i
  let s1 := committed (s.updSeq i (fun e => { e with len := e.len + ps.length })) i
  let s2 := if e.freePrompt then s1 else charge s1 e.tenant ps.length
  if e.len + ps.length < e.promptLen then afterCommit s2 i false
  else
    let ts := deliverable e.stop (e.maxNew - e.newCount) (ys.drop (ps.length - 1))
    let s3 := (deliverAll s2 i e.promptLen ts).updSeq i (fun x =>
      { x with freePrompt := false, st := if x.st = 1 then 2 else x.st, before := if x.before = 1 then 2 else x.before })
    afterCommit s3 i (genEnds e ts)

/-- Decode: accepted drafts and the next token are delivered, and the other drafts are cleared. -/
def commitDecode (s : State) (i : Nat) (ps : List Place) (ys : List Nat) : State :=
  let e := s.seq i
  let ds := ps.map (fun p => p.token)
  let a := acceptedCount ds ys
  let ts := deliverable e.stop (e.maxNew - e.newCount) (((ds.drop 1).take a) ++ (ys.drop a).take 1)
  let s1 := deliverAll s i (e.len + 1) ts
  let s2 := (List.range (ps.length - 1 - ts.length)).foldl (fun t k => writeTok t i (e.len + 1 + ts.length + k) 0 false false none) s1
  afterCommit (committed (s2.updSeq i (fun e => { e with len := e.len + ts.length })) i) i (genEnds e ts)

/-- A step of a sequence that returned FAIL or NULL (R280). -/
def returnBad (s : State) (i : Nat) (fail : Bool) : State :=
  let e := s.seq i
  if fail then
    let s1 := (s.count Reg.returnCnt_failRet 1).updSeq i (fun e => { e with failRun := e.failRun + 1 })
    if (e.st = 1 ∨ e.st = 2) ∧ 16 ≤ e.failRun + 1 then endSeq s1 i 5 else s1
  else
    let s1 := s.count Reg.returnCnt_nullRet 1
    if (e.st = 1 ∨ e.st = 2) ∧ s.fld Reg.shardStatus_swapState ≠ 0 then s1.updSeq i (fun e => { e with st := 4, before := e.st }) else s1

/-- Commit the positions of one sequence. -/
def commitSeq (present : Bool) (r : Nat) (all : List Place) (s : State) (i : Nat) : State :=
  let e := s.seq i
  let ps := (all.filter (fun p => p.idx == i)).mergeSort (fun a b => a.vec ≤ b.vec)
  let rs := ps.map (resultOf s present r)
  if !e.alive || ps.any (fun p => p.gen != e.gen) then s
  else if rs.any (fun x => x.1 == 2) then returnBad s i true
  else if rs.any (fun x => x.1 == 1) then returnBad s i false
  else if e.len < e.promptLen then commitPrefill s i ps (rs.map (fun x => x.2))
  else commitDecode s i ps (rs.map (fun x => x.2))

/-- Sequence indexes of places, once each, in the order of their positions. -/
def placeIdxs (ps : List Place) : List Nat :=
  (ps.mergeSort (fun a b => a.vec ≤ b.vec)).foldl (fun l p => if l.contains p.idx then l else l ++ [p.idx]) []

/-- Commit every position of step `p`, whose results return in step `r`. -/
def commitStep (s : State) (present : Bool) (p r : Nat) : State :=
  let all := s.seqs.places.filter (fun x => x.step == p)
  let s1 := { s with seqs := { s.seqs with places := s.seqs.places.filter (fun x => x.step != p) } }
  pumpAll (budgetPauses ((placeIdxs all).foldl (commitSeq present r all) s1))

/-- SEQ_COMMIT: the oldest step in flight, once its records have landed or its return step has ended (R279); a die
that no longer fires finds every record absent. -/
def execSeqCommit (s : State) : Host.Outcome State Fault Refusal :=
  match (s.seqs.places.map (fun p => p.step)).min? with
  | none => .next s
  | some p =>
    let r := p + s.seqs.lag
    if !s.firing then
      if s.sched.startAt.isSome then .next s else .next (commitStep s false p r)
    else match s.entryField with
    | none => .next (commitStep s false p r)
    | some f =>
      let b := s.startBeat + r * planBeats (s.plan f)
      let landed := (s.seqs.places.filter (fun x => x.step == p)).all (fun x => s.seqs.landed.contains (r % 2 * 256 + x.vec))
      if b < s.beat ∧ (landed = true ∨ b + planBeats (s.plan f) ≤ s.beat) then .next (commitStep s true p r) else .next s

/-- DEADLINE_EXPIRE (R293, Table 13.9): under END, with no position in flight. -/
def execDeadlineExpire (idx : Nat) (s : State) : Host.Outcome State Fault Refusal :=
  let e := s.seq idx
  if e.alive && !e.contLate && e.deadline != 0 && decide (e.deadline ≤ s.beat * 2048) && !s.seqs.places.any (fun p => p.idx == idx) then
    .next (pumpAll (endSeq s idx 3))
  else .next s

/-! ### Stores that land in this die's directory -/

/-- The directory entry lies in present HBM of a die with attention units. -/
def State.dirHere (s : State) (i : Nat) : Bool := s.attUnits != 0 && s.rangePresent (s.dirAddr i) 32

/-- DIR_BIND (R282). -/
def execDirBind (idx : Nat) (s : State) : Host.Outcome State Fault Refusal :=
  let e := s.dirEntry idx
  if s.dirHere idx && !deBound e && !deRelease e && deGen e != 0 then .next (bindEntry s idx) else .next s

/-- DIR_LENGTH (R283): pages up to COMMIT_LEN + 511. -/
def execDirLength (idx : Nat) (s : State) : Host.Outcome State Fault Refusal :=
  let e := s.dirEntry idx
  if s.dirHere idx && deBound e && deHome e && !deRelease e then .next (allocatePages s idx) else .next s

/-- DIR_PARK (R286): PARK = 1 parks the frames, PARK = 0 brings them back. -/
def execDirPark (idx : Nat) (s : State) : Host.Outcome State Fault Refusal :=
  let e := s.dirEntry idx
  if !s.dirHere idx || !deBound e || deRelease e || s.parkingOf idx then .next s
  else if dePark e && deHome e then .next (pumpAll (startPark s idx))
  else if !dePark e && !deHome e then .next (pumpAll (startUnpark s idx))
  else .next s

/-- DIR_RELEASE (R282). -/
def execDirRelease (idx : Nat) (s : State) : Host.Outcome State Fault Refusal :=
  let e := s.dirEntry idx
  if s.dirHere idx && deBound e && deRelease e && !s.parkReqs idx then .next (releaseEntry s idx) else .next s

end Sys2Proof.Machine
end

