-- ==== Sys2Proof/Machine/BeatGrid.lean ====
section
/-! DEFINITION. The beat boundary (R128, R137 to R149, R153, R165, R324, R338, R364, R365, R388), SERVE_BEGIN (R332) and
DRAIN_COMPLETE (R333). -/

namespace Sys2Proof.Machine

/-! ### The grid and the estimate (R128, R138, R139, R141) -/

/-- Slewing goes on in LOCKED and ROOT, and in HOLDOVER under PARENT_HOLD. -/
def State.slewing (s : State) : Bool :=
  s.time.state == .locked || s.time.state == .root || (s.time.state == .holdover && s.fld Reg.ddlStatus_parentHold == 1)

/-- Slips occur in LOCKED and in HOLDOVER under PARENT_HOLD. -/
def State.slipping (s : State) : Bool :=
  s.time.state == .locked || (s.time.state == .holdover && s.fld Reg.ddlStatus_parentHold == 1)

/-- What is slewed in one beat: at most 0.2 ns (R138). -/
def slewStep (x : Int) : Int := max (-65536) (min 65536 x)

/-- The next beat begins: the beat's slip and slew are in the estimate. -/
def nextBeat (s : State) : State :=
  let d := if s.slewing then slewStep s.time.slew else 0
  { s with
    clk := s.clk + (s.cycles 5119 + 1), beat := s.beat + 1, cyc := 0
    time := { s.time with est := s.time.est + s.time.slip * 131072 + d, slew := s.time.slew - d, slip := 0 } }

/-- HOLD_LEFT counts down, and time is LOST at the boundary at which it reaches 0, before any other change (Table 7.5, R144). -/
def holdDown (s : State) : State :=
  if s.time.state = .holdover then
    let h := s.fld Reg.holdStat_holdLeft - 1
    let s1 := s.setFld Reg.holdStat_holdLeft h
    if h = 0 then enterLost s1 else s1
  else s

/-- The phase error at this boundary in units of 1/256 ns, to the nearest; a free value where 8 bits do not hold it. -/
def phiUnits (s : State) : Nat :=
  let n := (s.time.est + 640) / 1280
  if -128 ≤ n ∧ n ≤ 127 then ofSigned 8 n else s.drawn % 256

/-- The phase error is taken, and the beat has a slip (R141). -/
def takePhase (s : State) : State :=
  let s1 := (s.setFld Reg.phase_phi (phiUnits s)).draw
  if !s.slipping then s1
  else if 65536 < s.time.est then { s1 with time := { s1.time with slip := -1 } }.count Reg.slipCnt_removed 1
  else if s.time.est < -65536 then { s1 with time := { s1.time with slip := 1 } }.count Reg.slipCnt_inserted 1
  else s1

/-! ### Steps (R153, R165, R275) -/

/-- A step of field `f` begins in this beat. -/
def State.stepBegins (s : State) (f : Nat) : Bool := s.firing && !(s.section 1 0).isEmpty && s.stepBeat f == 0

/-- Outlier counts of vectors that never came to ALIGN (log entry 71). -/
def flushStep (s : State) (f : Nat) : State :=
  (List.range 256).foldl (fun t v => match t.scan f v with
    | some x => flushCounts t f x
    | none => t) s

/-- What belongs to the ended step of a field goes: positions, scans, shadows, reserved slots, and windows served. -/
def clearStep (s : State) (f : Nat) : State :=
  let s1 := (fieldTiles f).foldl (fun t x => if (t.tile x).res.isEmpty then t else t.updTile x (fun y => { y with res := [] })) (flushStep s f)
  { s1 with
    sched := { s1.sched with pos := sclear (f * 256) (f * 256 + 256) s1.sched.pos }
    grid := { s1.grid with
      scans := sclear (f * 256) (f * 256 + 256) s1.grid.scans, shadows := s1.grid.shadows.filter (fun h => h.field != f) }
    att := { s1.att with served := s1.att.served.filter (fun x => winField (s1.attWin (x.2.2.2 - 1)) != f) } }

/-- Marks of late buffers last for a step of the link. -/
def clearMarks (s : State) (n : Nat) : State :=
  { s with sched := { s.sched with bufMark := s.sched.bufMark.filter (fun m => m.buf / 64 != n) } }

/-- Steps that end at this boundary. -/
def endSteps (s : State) : State :=
  let s1 := ((List.range 64).filter s.stepBegins).foldl clearStep s
  ((List.range 12).filter (fun n => s.stepBegins (64 + n))).foldl clearMarks s1

/-- Word `k` of entry `v` of the map of step `n`. -/
def State.mapWord (s : State) (n v k : Nat) : Nat := (s.word (0x44000 + 0x2000 * (n % 2) + 32 * v + 4 * k)).toNat

/-- The position that entry `v` of the map of step `n` gives (Table 13.4). -/
def mapPos (s : State) (n v : Nat) : Pos :=
  let w := s.mapWord n v 0
  if s.seqs.maps.contains n && hasBit w 15 then
    let p := s.mapWord n v 1
    { ctx :=
        { seqId := s.seqId (bits w 0 14), seqGen := bits w 16 16, adapter := bits (s.mapWord n v 2) 0 16, tenant := bits p 0 20
          cls := bits p 20 2, prio := bits p 22 2, tokenIdx := s.mapWord n v 5, token := s.mapWord n v 3, modelGen := s.mapWord n v 4 }
      null := false, failed := false }
  else { ctx := emptyCtx, null := true, failed := false }

/-- An ENTRY field takes its positions from the map; nulls of named positions count. -/
def loadMap (s : State) (f : Nat) : State :=
  let n := s.stepNo f
  let s1 := (List.range 256).foldl (fun t v => t.setPos f v (some (mapPos s n v))) s
  s1.count Reg.vecFillCnt_null (s.posClasses.filter (fun p => (mapPos s n p.1).null)).length

/-- Result records of the parity of step `n` are still to land (R278). -/
def clearLanded (s : State) (n : Nat) : State :=
  { s with seqs := { s.seqs with landed := s.seqs.landed.filter (fun k => k / 256 != n % 2) } }

/-- A step of field `f` begins. -/
def startStep (s : State) (f : Nat) : State :=
  let s1 := clearStep s f
  let s2 := if s.entryField = some f then clearLanded s1 (s.stepNo f) else s1
  if s.isEntry f then loadMap s2 f else s2

/-- Every step that begins in this beat. -/
def startSteps (s : State) : State := ((List.range 64).filter s.stepBegins).foldl startStep s

/-! ### Settings that wait for a boundary -/

/-- An adapter becomes resident in the fields that are on; one that is already keeps what it has (R102). -/
def landAdapter (s : State) (a : Adapter) : Adapter :=
  if a.resident then a else { a with resident := true, lost := (List.range 64).filter (fun f => !s.sramPresent f) }

/-- Shed level, drop trims, key slots, protected ranges and adapters (R101, R215, R260, R335, R365, R373). -/
def applySettings (s : State) : State :=
  let s1 := s.pow.dropPend.foldl (fun t k => setDrop t k (t.dropOf k - 15)) s
  let s2 := s1.fab.protNext.foldl (fun t r => setProt t r.1 r.2) s1
  { s2 with
    pow := { s2.pow with s := s2.pow.sNext.getD s2.pow.s, sNext := none, dropPend := [] }
    sec := { s2.sec with keySlots := s2.sec.keyPend.foldl (fun m k => sset noKey m k.1 k.2) s2.sec.keySlots, keyPend := [] }
    fab := { s2.fab with protNext := [] }
    grid := { s2.grid with adapters := (s2.grid.adapters.filter (fun a => !a.evict)).map (landAdapter s2) } }

/-- Remap entries and accepted trims take effect (R54, R111). -/
def applyTiles (s : State) : State :=
  (s.grid.tiles.map (fun e => e.1)).foldl (fun t x =>
    let t1 := if (t.tile x).remapEff = (t.tile x).live.remap then t else t.updTile x (fun y => { y with remapEff := y.live.remap })
    applyTrims t1 x) s

/-- The unit being rewritten has generation 0 from this boundary on (R239). -/
def applyUnit0 (s : State) : State :=
  match s.shard.unitNext with
  | some (u, b) => if b < s.beat then setUnitGen { s with shard := { s.shard with unitNext := none } } u 0 else s
  | none => s

/-- Sequences whose length stores failed for good end (R282). -/
def expireSeqs (s : State) : State :=
  (s.liveSeqs.filter (fun i => (s.seq i).expire)).foldl (fun t i => endSeq t i 6) s

/-! ### Links (R147 to R149, R144) -/

/-- A link goes out of step: recorded, and handed to retraining. -/
def linkOut (s : State) (n : Nat) : State :=
  match (s.lnk n).outPend with
  | some b =>
    if s.linkUp n then
      retrainLink (recordFault (s.setFld (Reg.linkBeat_outOfStep n) 1) 3 0x0302 (linkResetDomain n) 3 n {} (leBytes 4 b)) n
    else s
  | none => s

/-- The die sends markers. -/
def State.marks (s : State) : Bool := s.ddlOn && s.dieState != .outOfStep

/-- A link over the boundary: frame counts move on, a partner's missing marker counts, and the marker of this beat goes
out (Table 7.10). -/
def linkBeat (s : State) (n : Nat) : State :=
  let l := s.lnk n
  let due := s.ddlOn && s.exchanges n && s.linkUp n
  let lost := due && markerLink n && !l.markIn
  let on := due && s.marks
  let s1 := if lost then s.count (Reg.linkBeat_ackLate n) 1 else s
  let s2 := s1.updLnk n (fun l => { l with
    sentPrev2 := l.sentPrev, sentPrev := l.sent, sent := 0, holdTo := 0, freeAt := 0, markIn := l.early, early := false, before := none
    missed := if lost then l.missed + 1 else 0, beatsOk := if on && l.exch then l.beatsOk + 1 else 0, exch := on
    acks := if on then l.acks ++ [s.beat] else [] })
  if on then
    s2.emit (.marker n false { beat := s.beat % 2 ^ 32, tstate := s.time.state.code, frames := l.sent, skew := 0 })
  else s2

/-- The installed image uses the link for scheduled traffic. -/
def State.linkUsed (s : State) (n : Nat) : Bool :=
  !(s.section 7 n).isEmpty ||
    (let f := linkField n
     let d := s.section 5 f
     (List.range (d.length / 8)).any (fun i =>
       let e := fieldAt d (8 * i) 8
       decide (5 ≤ reIn e) && getAt Station.core (stationsOf f) (reIn e - 5) == .link n))

/-- Every link that the schedule uses is out of step (R144). -/
def State.allOut (s : State) : Bool :=
  let l := (List.range 12).filter s.linkUsed
  s.installed && !l.isEmpty && l.all (fun n => s.fld (Reg.linkBeat_outOfStep n) == 1)

/-- R144's second condition. -/
def outCheck (s : State) : State :=
  if (joinedPlus s.dieState || s.dieState == .holdover) && s.allOut then enterOutOfStep s else s

/-! ### Rejoin (R324) -/

/-- The die leaves OUT_OF_STEP once REJOIN has been accepted and time is locked. -/
def rejoinEnds (s : State) : State :=
  if s.dieState = .outOfStep ∧ (s.time.state = .locked ∨ s.time.state = .root) ∧ s.jobsOf 0x0201 ≠ [] then
    let s1 := enterState s (if s.loadable then .loaded else .joined)
    finishAll s1 0x0201 0 (leBytes 1 s1.dieState.code)
  else s

/-! ### The commands -/

/-- Dandelion's part of a boundary. -/
def timeBoundary (s : State) : State := pllBoundary (takePhase (relockCheck s (applyMove (lostClocks (holdDown s)))))

/-- The links' part. -/
def linkBoundary (s : State) : State := outCheck ((List.range 12).foldl linkBeat ((List.range 12).foldl linkOut s))

/-- What the control core and the power switches do. -/
def coreBoundary (s : State) : State := beginPower (applyGates (enterResets (applyUnit0 (applyTiles (applySettings s)))))

/-- An install whose domains came up during a swap goes on once the swap is over (R239, R364). -/
def lateInstalls (s : State) : State := if s.pow.pdReq.isEmpty && s.pow.pdBegun.isEmpty then resumeInstalls s else s

/-- What ends or goes on after a boundary. -/
def afterBoundary (s : State) : State :=
  pumpAll (notifyEnds (expireSeqs (joinCheck (lateInstalls (bringUps (countSwitches (closeRanges s)))))))

/-- BEAT_BOUNDARY. -/
def execBeatBoundary (s : State) : Host.Outcome State Fault Refusal :=
  if s.dieState = .off then .next s
  else
    let s1 := linkBoundary (timeBoundary (endSteps (nextBeat (flushLinks s 5119))))
    .next (afterBoundary (coreBoundary (startSteps (rejoinEnds s1))))

/-- The die begins to fire. -/
def beginFiring (s : State) (b : Nat) : State :=
  let s1 := (s.setFld Reg.schedStatus_firing 1).setFld Reg.startBeatLo_startLo (b % 2 ^ 32)
  let s2 := s1.setFld Reg.startBeatHi_startHi (b / 2 ^ 32)
  startSteps { s2 with sched := { s2.sched with startAt := none, bufMark := [] }, grid := { s2.grid with mesh := [] } }

/-- SERVE_BEGIN: the boundary START_BEAT; a die in HOLDOVER fires as well and remembers SERVING. -/
def execServeBegin (s : State) : Host.Outcome State Fault Refusal :=
  match s.sched.startAt with
  | none => .next s
  | some b =>
    if s.beat < b ∨ s.installed = false then .next s
    else if s.dieState = .loaded then .next (enterState (beginFiring s b) .serving)
    else if s.dieState = .holdover ∧ s.left = .loaded then .next { beginFiring s b with left := .serving }
    else .next s

/-- End DRAIN jobs with the number of sequences that MODE 1 ended. -/
def drainEnds (s : State) : State :=
  (s.jobsOf 0x0307).foldl (fun t j => jobDone t j.1 j.2 0 (t.job j.1 j.2).args) s

/-- DRAIN_COMPLETE: every entry of the sequence table is FREE. -/
def execDrainComplete (s : State) : Host.Outcome State Fault Refusal :=
  if s.dieState = .draining ∧ s.liveSeqs = [] then .next (drainEnds (enterState (stopFiring s) .loaded)) else .next s

end Sys2Proof.Machine
end

