-- ==== Sys2Proof/Machine/CalEvents.lean ====
section
/-! DEFINITION. M_SLOT, trims, drift, refresh, sampled checks, reference runs, tile records and tile
retirement (chapter 6, R57, R336). An event whose condition does not hold leaves the state unchanged. -/

namespace Sys2Proof.Machine

/-- TRIM_PERIOD_EXPIRE: a converter's trim becomes due (R109). -/
def execTrimPeriodExpire (tile conv : Nat) (s : State) : Host.Outcome State Fault Refusal :=
  if conv < 66 ∧ s.tileLive tile = true ∧ convOut (s.tile tile) conv = false ∧ s.trimDue tile conv = true then
    .next (updConv s tile conv (fun c => { c with due := true }))
  else .next s

/-- A trim of the converter may begin: it is due, neither it nor another converter of its tile is being trimmed, and a free
spare can stand in for it where it serves columns (R107, R111). -/
def canTrim (s : State) (t k : Nat) : Bool :=
  let r := (s.tile t).live
  decide (k < 66) && s.tileLive t && !convOut (s.tile t) k && (s.conv t k).due && !(s.conv t k).busy && (s.tile t).busyConvs == 0 &&
    (!converts r.convMap k || (freeSpare s t k).isSome)

/-- No converter of the field that may begin its trim comes before this one: ascending tile local index, then converter
number (R109). -/
def trimsFirst (s : State) (t k : Nat) : Bool :=
  ((fieldTiles (tileField t)).take (tileLocal t)).all (fun u => (List.range 66).all (fun c => !canTrim s u c)) &&
    (List.range k).all (fun c => !canTrim s t c)

/-- TRIM_TAKEOVER_START: at a beat boundary a free spare stands in for a converter whose trim is due; a spare
that stands in for nothing is trimmed in place (R107, R109, R111). -/
def execTrimTakeoverStart (tile conv : Nat) (s : State) : Host.Outcome State Fault Refusal :=
  let r := (s.tile tile).live
  if !canTrim s tile conv || decide (16 ≤ s.fieldTrims (tileField tile)) || !trimsFirst s tile conv then .next s
  else if !converts r.convMap conv then .next (updConv s tile conv (fun c => { c with busy := true, fails := 0 }))
  else match freeSpare s tile conv with
  | none => .next s
  | some y =>
    let s1 := updConv s tile conv (fun c => { c with busy := true, fails := 0, spare := some (y, s.beat) })
    .next (writeRecord (s1.updTile tile (fun x => { x with live := { x.live with
      convMap := cmSet x.live.convMap y false true (columnsOf r conv) } })) tile)

/-- A further trim may begin: no converter of the tile, and fewer than 16 of the field, are being trimmed (R107). -/
def State.trimRoom (s : State) (t : Nat) : Bool := (s.tile t).busyConvs == 0 && decide (s.fieldTrims (tileField t) < 16)

/-- An attempt on a converter may run now: its trim is in progress with the converter converting nothing for serving, or its
field serves nothing (R107, R110, R111). The trims of R113 take M slots. -/
def State.mayAttempt (s : State) (t k : Nat) : Bool :=
  let c := s.conv t k
  if s.passMode t then c.busy || s.trimRoom t
  else c.busy && (c.spare.isSome || !converts (s.tile t).live.convMap k)

/-- TRIM_ATTEMPT: one attempt on a converter that is offline, or in a field that serves nothing (R110 to R112). -/
def execTrimAttempt (tile conv : Nat) (gain off : Int) (sums : List Int) (s : State) : Host.Outcome State Fault Refusal :=
  let c := s.conv tile conv
  if conv < 66 ∧ s.tileLive tile = true ∧ convOut (s.tile tile) conv = false ∧ c.next = none ∧ c.out = none
      ∧ s.mayAttempt tile conv = true then
    .next (trimAttempt s tile conv gain off sums)
  else .next s

/-- DRIFT_AGE_TICK: a second passes for a tile that is not retired (R118). -/
def execDriftAgeTick (tile : Nat) (s : State) : Host.Outcome State Fault Refusal :=
  if (s.tile tile).live.retired then .next s
  else .next (s.updTile tile (fun x => { x with live := { x.live with age := min 0x3FFFFF (x.live.age + ageWeight s.pow.band) } }))

/-- REFRESH_PENDING: three quarters of the due age, or EARLY (R119). -/
def execRefreshPending (tile : Nat) (s : State) : Host.Outcome State Fault Refusal :=
  if (s.tile tile).live.retired = false ∧ (1944000 ≤ (s.tile tile).live.age ∨ s.fld (Reg.driftStat_early tile) = 1) then
    .next (s.setFld (Reg.driftStat_pending tile) 1)
  else .next s

/-- REFRESH_OVERDUE: the due age is reached before the refresh completes (R119). -/
def execRefreshOverdue (tile : Nat) (s : State) : Host.Outcome State Fault Refusal :=
  if (s.tile tile).live.retired = false ∧ 2592000 ≤ (s.tile tile).live.age ∧ s.fld (Reg.driftStat_overdue tile) = 0 then
    .next ((s.setFld (Reg.driftStat_overdue tile) 1).count (Reg.overdueCnt (tileField tile)) 1)
  else .next s

/-- TILE_RECORD_CHECKPOINT (R122): the record of a tile in a powered field is written. -/
def execTileRecordCheckpoint (tile : Nat) (s : State) : Host.Outcome State Fault Refusal :=
  if s.powered (tileField tile) then .next (writeRecord s tile) else .next s

/-- TILE_RETIREMENT: a cause noted before this beat takes effect (R57). -/
def execTileRetirement (tile : Nat) (s : State) : Host.Outcome State Fault Refusal :=
  match (s.tile tile).retire with
  | some (cause, b, _) =>
    if s.beat ≤ b then .next s
    else
      let s1 := s.updTile tile (fun x => { x with
        retire := none, check := none, live := { x.live with retired := true, cause := cause } })
      let s2 := (writeRecord s1 tile)
      let s3 := { s2 with grid := { s2.grid with change := s2.grid.change + 1 } }
      .next (recordFault s3 4 0x0401 (tileField tile) 1 tile {} (leBytes 1 cause))
  | none => .next s

/-! ### Checks and reference runs -/

/-- Tiles a sampled check may pick: not retired, holding weights of an installed unit, in a running field,
with a good image and no check running (R115, R232). -/
def checkable (s : State) : List Nat :=
  if s.fld Reg.shardStatus_activeValid = 1 then
    (List.range 8192).filter (fun t => s.usable t && s.sramPresent (tileField t) && !s.objBad t && (s.tile t).check.isNone
      && s.units.contains (s.tileUnit s.activeBase t))
  else []

/-- SAMPLED_CHECK_START: a tile and eight planes, drawn from the random source. -/
def execSampledCheckStart (s : State) : Host.Outcome State Fault Refusal :=
  let l := checkable s
  if l.isEmpty then .next s
  else .next (startCheck s.draw (getAt 0 l (s.drawn % l.length)))

/-- CHECK_ABANDON: Nettle's share has not completed within the tile's next 64 M slots (R115). -/
def execCheckAbandon (tile : Nat) (s : State) : Host.Outcome State Fault Refusal :=
  match (s.tile tile).check with
  | some k =>
    if k.driven && !k.nettle && decide (64 ≤ k.mSlots) then
      .next ((s.updTile tile (fun x => { x with check := none })).count (Reg.checkAbandonCnt (tileField tile)) 1)
    else .next s
  | none => .next s

/-- Fields of a REF_RUN's arguments (Table 15.6). -/
def rrBits (a : List Byte) : Nat := fieldAt a 2 1
def rrSigned (a : List Byte) : Bool := hasBit (fieldAt a 3 1) 0
def rrAnalog (a : List Byte) : Bool := hasBit (fieldAt a 3 1) 1
def rrIn (a : List Byte) : Nat := fieldAt a 8 8
def rrOut (a : List Byte) : Nat := fieldAt a 16 8

/-- Reference value of output j (R87, R336). -/
def refOutput (s : State) (img : Nat) (x : Slice) (a : List Int) (j : Nat) : Int :=
  if j < x.outs then
    4 * (a.zipIdx).foldl (fun acc e => acc + e.1 * s.imgWeight img x e.2 j) 0 * x.scale
  else 0

/-- Analog sum of output j over the driven planes (R74). -/
def analogOutput (x : Slice) (k : ChkSt) (ab : Nat) (signed : Bool) (j : Nat) : Int :=
  (k.codes.zipIdx).foldl (fun acc e =>
    (driveAdds { x with lane := 0 } (sigma ab signed e.2) (e.1.map (codeValue (getAt 0 k.ranges e.2)))).foldl
      (fun b c => if c.1 = j then b + c.2 else b) acc) 0

/-- A REF_RUN whose Nettle share and planes are complete writes its results and ends (R336, R314). -/
def refRunDone (s : State) (t : Nat) (k : ChkSt) : State :=
  let s1 := s.updTile t (fun x => { x with refRuns := x.refRuns.erase k, lastTq := k.tq })
  match k.job with
  | none => s1
  | some (m, j) =>
    let a := (s1.job m j).args
    let img := s1.imageAddr s1.activeBase t
    let x := s1.sliceAt img
    if !wbufOk s1 (rrOut a) (if rrAnalog a then 6144 else 3072) || !bufOk s1 (rrIn a) 512 then jobDone s1 m j 0x08 []
    else if s1.ueIn (rrIn a) 512 then jobDone (readUe s1 (rrIn a) 512 6) m j 0x6C []
    else
      let ins := refInputs s1 (rrIn a) (rrBits a) (rrSigned a)
      let refs := (List.range 512).flatMap (fun o => leBytes 6 (ofSigned 48 (refOutput s1 img x ins o)))
      let ana := if rrAnalog a then
          (List.range 512).flatMap (fun o => leBytes 6 (ofSigned 48 (analogOutput x k (rrBits a) (rrSigned a) o)))
        else []
      jobDone (s1.write (rrOut a) (refs ++ ana)) m j 0x00
        (leBytes 2 k.tq ++ leBytes 1 (k.ranges.getLastD 0) ++ leBytes 1 0 ++ leBytes 2 k.clamped)

/-- Finish class 3 work of a tile once both shares are there. -/
def settle (s : State) (t : Nat) : State :=
  let s1 := match (s.tile t).check with
    | some k => if k.driven && k.nettle then checkDone s t k else s
    | none => s
  match (s1.tile t).refRuns.find? (fun k => k.driven && k.nettle) with
  | some k => refRunDone s1 t k
  | none => s1

/-- Change the first element of a list that meets p. -/
def updFirst {α : Type} (p : α → Bool) (g : α → α) : List α → List α
  | [] => []
  | x :: l => if p x then g x :: l else x :: updFirst p g l

/-- Class 3 requests of a tile that Nettle has still to complete. -/
def Tile.requests (x : Tile) : List Nat := ((x.check.toList ++ x.refRuns).filter (fun k => !k.nettle)).map (fun k => k.no)

/-- The oldest class 3 request of a tile's field is one of this tile's; its number (R91, Table 5.1). -/
def State.nextRequest (s : State) (t : Nat) : Option Nat :=
  let mine := (s.tile t).requests
  let all := (fieldTiles (tileField t)).flatMap (fun u => (s.tile u).requests)
  mine.find? (fun n => all.all (fun m => decide (n ≤ m)))

/-- NETTLE_REF_DONE: Nettle completes the oldest class 3 request of the tile's field, a sampled check or a reference run,
where it is this tile's (R91, R104). -/
def execNettleRefDone (tile : Nat) (s : State) : Host.Outcome State Fault Refusal :=
  match s.nextRequest tile with
  | none => .next s
  | some n =>
    let done (k : ChkSt) : ChkSt := if k.no = n then { k with nettle := true } else k
    .next (settle (s.updTile tile (fun x => { x with check := x.check.map done, refRuns := x.refRuns.map done })) tile)

/-! ### M slots (R124) -/

/-- One of the tile's slots is free for maintenance: an M slot of the firing image, or any slot of a field that
is being brought up. -/
def mSlotOpen (s : State) (t slot : Nat) : Bool :=
  s.passMode t ||
    (s.firing && s.tileLive t && s.fieldEn (tileField t) &&
      match s.entryAt t (s.stepSlot (tileField t) slot) with
      | some e => seClass e == 3
      | none => false)

/-- The converter whose R113 trim has the tile's M slot: one whose attempts have begun there; else, where a further trim may
begin, the first that is due, past its period, and without a free spare. -/
def slotTrim (s : State) (t : Nat) : Option Nat :=
  let m := (s.tile t).live.convMap
  let here (k : Nat) : Bool := (s.conv t k).due && converts m k && (s.conv t k).spare.isNone && (s.conv t k).out.isNone
  match (List.range 66).find? (fun k => here k && (s.conv t k).busy) with
  | some k => some k
  | none =>
    if s.trimRoom t then
      (List.range 66).find? (fun k => here k && s.trimOld t k && !convOut (s.tile t) k && (freeSpare s t k).isNone)
    else none

/-- One plane of the check, or of the oldest reference run that still has planes to drive, at RANGE_CUR (R48, R115). -/
def drivePlaneM (s : State) (t : Nat) (err : List Int) : State :=
  let add (k : ChkSt) : ChkSt :=
    let cs := convertAll s t (s.rangeOf t) (getAt [] k.planes k.codes.length) err
    { k with ranges := k.ranges ++ [s.rangeOf t], codes := k.codes ++ [cs.map (fun c => c.1)], clamped := k.clamped + (cs.filter (fun c => c.2)).length }
  match (s.tile t).check with
  | some k =>
    if k.driven then settle (s.updTile t (fun x => { x with refRuns := updFirst (fun r => !r.driven) add x.refRuns })) t
    else settle (s.updTile t (fun x => { x with check := some (add k) })) t
  | none => settle (s.updTile t (fun x => { x with refRuns := updFirst (fun r => !r.driven) add x.refRuns })) t

/-- Count an M slot against a check that waits for Nettle. -/
def checkWait (s : State) (t : Nat) : State :=
  s.updTile t (fun x => { x with check := x.check.map (fun k => if k.driven && !k.nettle then { k with mSlots := k.mSlots + 1 } else k) })

/-- A pending refresh comes before another: EARLY first, then the older, then the lower tile index (R119). -/
def State.refreshBefore (s : State) (u t : Nat) : Bool :=
  let eu := s.fld (Reg.driftStat_early u)
  let et := s.fld (Reg.driftStat_early t)
  let au := (s.tile u).live.age
  let at_ := (s.tile t).live.age
  decide (et < eu) || (eu == et && (decide (at_ < au) || (au == at_ && decide (u < t))))

/-- Tiles of the running wave, which pulse in every slot (R233). -/
def State.waveTiles (s : State) : Nat :=
  match s.shard.progs with
  | p :: _ => match p.waves with
    | w :: _ => if p.begun then w.length else 0
    | [] => 0
  | [] => 0

/-- The tile may pulse in this slot: with the tiles of the running wave and the refreshes that come before it in the same
slot, at most 512 tiles of the die are pulsed (R119, R124, R233). -/
def State.mayPulse (s : State) (t slot : Nat) : Bool :=
  decide (s.waveTiles + ((List.range 8192).filter (fun u =>
    s.fld (Reg.driftStat_pending u) == 1 && s.refreshBefore u t && s.refreshReady u && mSlotOpen s u slot && (slotTrim s u).isNone)).length < 512)

/-- A reference-row measurement of the tile has work: one runs, the last is 600 s old, or the drift sample of its field waits
for it (R114, R124, R125). -/
def State.refRowWork (s : State) (t : Nat) : Bool :=
  (s.tile t).refRowM != 0 || decide ((s.tile t).refRowAt + 600000000000 ≤ s.ns) ||
    (sget zeroNat s.shard.bringUp (tileField t) == 40 && !(s.tile t).sampled)

/-- M_SLOT: the tile serves the first of trim, refresh, reference-row measurement and check that has work;
`work` is what the slot's measurement gives. Work for a lower place than the first leaves it waiting. A refresh has 16,384
M slots, the last of which ends it (R119). -/
def execMSlot (tile slot : Nat) (work : MWork) (s : State) : Host.Outcome State Fault Refusal :=
  if !mSlotOpen s tile slot then .next s
  else
    let s0 := checkWait (s.atSlot slot) tile
    match slotTrim s0 tile with
    | some k =>
      match work with
      | .trim c g o sums => .next (if c = k then trimAttempt s0 tile c g o sums else s0)
      | _ => .next s0
    | none =>
      if s0.refreshReady tile then
        match work with
        | .refreshPart =>
          if (s0.tile tile).refM < 16383 ∧ s0.mayPulse tile slot = true then
            .next ((notePulse (s0.setFld (Reg.driftStat_refreshing tile) 1) tile).updTile tile (fun x => { x with refM := x.refM + 1 }))
          else .next s0
        | .refreshEnd cells failed => if s0.mayPulse tile slot then .next (refreshDone s0 tile cells failed) else .next s0
        | _ => .next s0
      else
        match work with
        | .refRowPart => .next (s0.updTile tile (fun x => { x with refRowM := min 127 (x.refRowM + 1) }))
        | .refRow p n =>
          if (s0.tile tile).refRowM = 127 then .next (refRowDone s0 tile p n)
          else .next (s0.updTile tile (fun x => { x with refRowM := min 127 (x.refRowM + 1) }))
        | .check err => if s0.refRowWork tile then .next s0 else .next (drivePlaneM s0 tile err)
        | _ => .next s0

end Sys2Proof.Machine
end

