-- ==== Sys2Proof/Machine/FabricEvents.lean ====
section
/-! DEFINITION. Unscheduled frames as they arrive (R201, R202, R208, R214, R218, R221). -/

namespace Sys2Proof.Machine

/-- REQ_LOAD. -/
def execReqLoad (link : Nat) (r : ReqHdr) (s : State) : Host.Outcome State Fault Refusal := .next (reqWord s link 1 r [])

/-- REQ_STORE. -/
def execReqStore (link : Nat) (r : ReqHdr) (data : List Byte) (s : State) : Host.Outcome State Fault Refusal :=
  .next (reqWord s link 2 r data)

/-- REQ_FAA64. -/
def execReqFaa64 (link : Nat) (r : ReqHdr) (s : State) : Host.Outcome State Fault Refusal := .next (reqWord s link 3 r [])

/-- REQ_CAS64. -/
def execReqCas64 (link : Nat) (r : ReqHdr) (s : State) : Host.Outcome State Fault Refusal := .next (reqWord s link 4 r [])

/-- REQ_COPY (R214): the parts are put on their way. -/
def execReqCopy (link : Nat) (r : ReqHdr) (s : State) : Host.Outcome State Fault Refusal :=
  .next (pumpAll (reqCopyKvx s link 5 r))

/-- REQ_KVX (R221). -/
def execReqKvx (link : Nat) (r : ReqHdr) (s : State) : Host.Outcome State Fault Refusal :=
  .next (pumpAll (reqCopyKvx s link 6 r))

/-- COPY_COMPLETE: every part of a copy that this die serves is done, and the requester is answered. -/
def execCopyComplete (src tag : Nat) (s : State) : Host.Outcome State Fault Refusal :=
  match s.fab.copies.find? (fun c => c.hdr.src == src && c.hdr.tag == tag) with
  | none => .next s
  | some c =>
    if c.left ≠ 0 then .next s
    else
      let s1 := { s with fab := { s.fab with copies := s.fab.copies.filter (fun x => !(x.hdr.src == src && x.hdr.tag == tag)) } }
      if src = s.myId then .next (pumpAll (answerTag s1 tag c.ans)) else .next (respond10 s1 coreField c.hdr c.ans)

/-! ### KVX parts (R221, R328) -/

/-- The open range that a part falls into. -/
def rangeFor (s : State) (a len : Nat) : Option KvRange :=
  s.fab.recv.find? (fun r => decide (r.first * 65536 ≤ a) && decide (a + len ≤ (r.first + r.count) * 65536))

/-- Apply a part: the bytes are written, and a frame whose 16 parts have come gets its descriptor. -/
def applyPart (s : State) (r : KvRange) (a : Nat) (data : List Byte) : State :=
  let o := a - r.first * 65536
  let r1 := if data.length = 4096 ∧ o % 4096 = 0 ∧ ¬ r.parts.contains (o / 4096) then { r with parts := r.parts ++ [o / 4096] } else r
  let s1 := s.write a data
  let s2 := { s1 with fab := { s1.fab with recv := s1.fab.recv.map (fun x => if x.handle == r.handle then r1 else x) } }
  let i := o / 65536
  if !rangeFull r i && rangeFull r1 i then
    match s2.listOf r.idx r.au with
    | some l =>
      if i < auDescs (s2.attUnit r.au) ∧ deGen (s2.dirEntry r.idx) = r.gen then
        writeDesc s2 (l + 64 + 16 * i) (r.first + i) true r.slot (getAt 0 r.nonces i)
      else s2
    | none => s2
  else s2

/-- KVX_PART_WRITE: a part from a die of the other half, applied only inside an open range. -/
def execKvxPartWrite (link : Nat) (r : ReqHdr) (data : List Byte) (s : State) : Host.Outcome State Fault Refusal :=
  .next (reqFrame s link r data (fun t =>
    let a := fabLocal r.addr
    if r.op ≠ 6 then t
    else
      let fr := linkField link
      if t.fld Reg.fabCfg_en = 0 ∨ t.protHit (List.range 16) a data.length = true then respond10 (denied t).1 fr r (denied t).2
      else match rangeFor t a data.length with
      | none => respond10 (denied t).1 fr r (denied t).2
      | some k =>
        if !t.rangePresent a data.length then respond10 t fr r { status := 1 }
        else match meshTo t fr a with
        | none => respond10 t fr r { status := 1 }
        | some u =>
          if u.uePartial a data.length then respond10 (readUe u a data.length 4) (u.answerField fr a) r { status := 5 }
          else respond10 (applyPart u k a data) (u.answerField fr a) r { status := 0, len := data.length }))

/-! ### Responses, timeouts, transit -/

/-- RESP_FRAME: an answer for this die is matched by TAG, or dropped where its generation is stale (R390). One for
another die is a TRANSIT_FRAME. -/
def execRespFrame (link : Nat) (r : RespHdr) (data : List Byte) (s : State) : Host.Outcome State Fault Refusal :=
  if !(decide (link < 12) && s.linkUp link) then .next s
  else match rxDiscard s link r.rx (48 + data.length) false with
  | some t => .next t
  | none =>
  if crossBad s 4 r.src r.op then .next (s.count Reg.fabDenyCnt_crossHalf 1)
  else if r.dst ≠ s.myId then .next s
  else if r.dgen % 65536 ≠ s.ev.hdr.dieGen % 65536 then .next (s.count Reg.staleDrop_drops 1)
  else .next (pumpAll (answerTag s r.tag { status := r.status, len := r.len, old := r.old, data := data }))

/-- REQ_TIMEOUT (R218). -/
def execReqTimeout (tag : Nat) (s : State) : Host.Outcome State Fault Refusal :=
  match s.fab.reqs.find? (fun r => r.tag == tag) with
  | none => .next s
  | some r =>
    if s.beat < r.issue + s.reqTimeout then .next s
    else .next (pumpAll (answerTag (s.count Reg.fabReqCnt_timeout 1) tag { status := 8 }))

/-- TRANSIT_FRAME: a CTRL, REQ or RESP frame for another die is forwarded (R208); a frame with a reserved TYPE or KIND is
discarded (R196, R199), and so is a SCHED frame for another die (R200). A frame of any kind that its form gives to be discarded
comes by this command too. -/
def execTransitFrame (link : Nat) (f : TransitHdr) (s : State) : Host.Outcome State Fault Refusal :=
  if !(decide (link < 12) && s.linkUp link) then .next s
  else match rxDiscard s link f.rx (16 + f.body.length) (f.typ == 1) with
  | some t => .next t
  | none =>
  if f.typ = 0 ∨ 4 < f.typ then .next (s.count Reg.fabRxCnt_rxBad 1)
  else if f.typ = 2 ∧ ctrlReserved (fieldAt f.body 0 1) = true then .next (s.count Reg.fabRxCnt_rxBad 1)
  else if crossBad s f.typ f.src (fieldAt f.body 0 1) then .next (s.count Reg.fabDenyCnt_crossHalf 1)
  else if f.dst = s.myId then .next s
  else .next (transit s link f)

end Sys2Proof.Machine
end

