-- ==== Sys2Proof/Machine/PowerCmds.lean ====
section
/-! DEFINITION. Power, thermal, fault and service commands of Table 15.11 (R341 to R345, R391 to R394). -/

namespace Sys2Proof.Machine

/-! ### FIELD_POWER (R341) -/

/-- FIELD_MASK. -/
def fpMask (a : List Byte) : Nat := fieldAt a 0 8

/-- ON. -/
def fpOn (a : List Byte) : Nat := fieldAt a 8 1

/-- Arguments outside their ranges, or a retired field. -/
def fieldPowerArgs (a : List Byte) (s : State) : Bool :=
  decide (1 < fpOn a) || fieldAt a 9 3 != 0 || (List.range 64).any (fun f => hasBit (fpMask a) f && s.retiredDom f)

/-- FIELD_BUSY: the installed image works in a field of the mask that it does not keep gated. -/
def fieldBusy (a : List Byte) (s : State) : Option (Nat × List Byte) :=
  if fpOn a = 0 ∧ s.installed = true ∧ (List.range 64).any (fun f => hasBit (fpMask a) f && fieldWork s f && !hasBit (s.plan f) 12) = true then
    some (0x66, [])
  else none

/-- Gating waits for the next beat boundary; powering goes through the fields of the mask (R240). -/
def fieldPowerStart (m : Nat) (a : List Byte) (k : Nat) (s : State) : State :=
  if fpOn a = 0 then
    { s with pow := { s.pow with gateReq := s.pow.gateReq ++ (List.range 64).filter (hasBit (fpMask a)) } }
  else if fpMask a = 0 then loadedCheck (jobDone s m k 0 [])
  else bringUps s

/-- FIELD_POWER. -/
def execFieldPower (m : Nat) (s : State) : Host.Outcome State Fault Refusal :=
  .next (takeCommand m 0x0501 never fieldPowerArgs fieldBusy (.job (fieldPowerStart m)) s)

/-! ### POWER_CAP, THERMAL_CLEAR (R342, R372) -/

/-- POWER_CAP: the cap of the next housekeeping round. -/
def execPowerCap (m : Nat) (s : State) : Host.Outcome State Fault Refusal :=
  .next (takeCommand m 0x0502 never (fun a _ => decide (fieldAt a 0 4 < 100) || decide (780 < fieldAt a 0 4)) accepted
    (.now (fun a t => ({ t with pow := { t.pow with capNext := some (fieldAt a 0 4) } }, []))) s)

/-- A reset of the whole die is to begin 10 ms after the response; the first one asked for stands. -/
def askReset (s : State) (cause : Nat) : State := { s with dieReset := some (s.dieReset.getD cause) }

/-- NS of the shutdown that the latch records: that of the newest THERMAL_SHUTDOWN record. -/
def State.shutdownNs (s : State) : Nat := ((s.ev.records.reverse.find? (fun r => r.kind == 1)).map (fun r => r.ns)).getD 0

/-- THERMAL_CLEAR: the latch is cleared and recorded, and the reset follows. -/
def execThermalClear (m : Nat) (s : State) : Host.Outcome State Fault Refusal :=
  .next (takeCommand m 0x0503 never never (fun _ t => if 340 ≤ t.tempNow then some (0x68, []) else none)
    (.now (fun _ t =>
      (askReset (writeEvent (writeHeader t (fun h => { h with latch := false })) 0x04 (leBytes 8 t.shutdownNs)) 3, []))) s)

/-! ### DOMAIN_RESET (R343, R388, R391) -/

/-- DOMAIN. -/
def drDomain (a : List Byte) : Nat := fieldAt a 0 2

/-- Counted resets stay in the list while they can still count; a whole-die reset is none of them. -/
def countReset (s : State) (c : Nat) : State :=
  let l := (sget (fun _ => []) s.resetsAt c).filter (fun t => decide (s.aliveS < t + 600))
  { s with resetsAt := sset (fun _ => []) s.resetsAt c (s.aliveS :: l) }

/-- The reset waits for the next beat boundary; the fourth within 600 s retires the domain. -/
def domainResetStart (m : Nat) (a : List Byte) (k : Nat) (s : State) : State :=
  let c := drDomain a
  let r : DomReset :=
    { domain := c, mbx := m, slot := k, inReset := false, retire := decide (3 ≤ s.resetsInWindow c), enables := [], wait := 0 }
  { countReset s c with domResets := s.domResets ++ [r] }

/-- DOMAIN_RESET; code 0x0FF creates no job. -/
def execDomainReset (m : Nat) (s : State) : Host.Outcome State Fault Refusal :=
  let whole := drDomain (cmdArgs (s.mb m).cmd) == 0xFF
  .next (takeCommand m 0x0504 (fun a t => t.domResets.any (fun r => r.domain == drDomain a))
    (fun a _ => fieldAt a 2 2 != 0 || (drDomain a != 0xFF && !domainCode (drDomain a)))
    (fun a t => if drDomain a ≠ 0xFF ∧ t.retiredDom (drDomain a) = true then some (0x69, []) else none)
    (if whole then .now (fun _ t => (askReset t 2, [])) else .job (domainResetStart m)) s)

/-! ### Log reads (R344) -/

/-- A log read answers BAD_ARGS: LOG_BUF 0 returns at most 3 records, any other LOG_BUF is a written buffer (R314). -/
def logArgs (s : State) (buf first count maxFirst maxCount rest : Nat) : Bool :=
  rest != 0 || decide (maxFirst < first) || count == 0 || decide (maxCount < count) ||
    (if buf = 0 then decide (3 < count) else !wbufOk s buf (64 * count))

/-- Records from a position on, zeros beyond the last. -/
def logBytes (rs : List (List Byte)) (first count : Nat) : List Byte :=
  (List.range count).flatMap (fun i => slice (getAt [] rs (first + i)) 0 64)

/-- The records go to the buffer or into the response. -/
def logRead (s : State) (buf : Nat) (head recs : List Byte) : State × List Byte :=
  if buf = 0 then (s, head ++ recs) else (s.write buf recs, head)

/-- FAULT_LOG_READ. -/
def execFaultLogRead (m : Nat) (s : State) : Host.Outcome State Fault Refusal :=
  .next (takeCommand m 0x0505 never
    (fun a t => logArgs t (fieldAt a 0 8) (fieldAt a 8 1) (fieldAt a 9 1) 31 32 (fieldAt a 10 6)) accepted
    (.now (fun a t => logRead t (fieldAt a 0 8)
      (leBytes 1 t.faults.length ++ leBytes 3 0 ++ leBytes 4 (t.fld Reg.faultTotal_total))
      (logBytes (t.faults.map FaultRec.bytes) (fieldAt a 8 1) (fieldAt a 9 1)))) s)

/-- EVENT_LOG_READ. -/
def execEventLogRead (m : Nat) (s : State) : Host.Outcome State Fault Refusal :=
  .next (takeCommand m 0x0506 never
    (fun a t => logArgs t (fieldAt a 0 8) (fieldAt a 8 2) (fieldAt a 10 2) 1023 1024 (fieldAt a 12 4)) accepted
    (.now (fun a t => logRead t (fieldAt a 0 8) (leBytes 2 t.ev.records.length ++ leBytes 6 0)
      (logBytes (t.ev.records.map EvRec.bytes) (fieldAt a 8 2) (fieldAt a 10 2)))) s)

/-! ### SERVICE_CLEAR (R345, R394) -/

/-- SERVICE_CLEAR: recorded; the mark and the die-reset escalation are cleared; the reset follows. -/
def execServiceClear (m : Nat) (s : State) : Host.Outcome State Fault Refusal :=
  .next (takeCommand m 0x0507 never never (fun a _ => if fieldAt a 0 4 ≠ 0x5356434C then some (0x6A, []) else none)
    (.now (fun _ t =>
      (askReset (writeHeader (writeEvent t 0x06 []) (fun h => { h with oos := false, at0 := 0, at1 := 0, at0v := false, at1v := false })) 4, []))) s)

end Sys2Proof.Machine
end

