-- ==== Sys2Proof/Machine/Housekeeping.lean ====
section
/-! DEFINITION. The housekeeping round and the power and thermal events (R299, R369 to R376, R391, R396). -/

namespace Sys2Proof.Machine

/-- The die is out of OFF. -/
def State.awake (s : State) : Bool := s.dieState != .off

/-- What a round measures of a lane in use (R176, Table 9.7): three consecutive rounds above the limit, or 16 uncorrectable
codewords in one, fail it. -/
def laneRound (s : State) (e : LaneRead) : State :=
  let n := e.link
  let l := e.lane
  if 8 ≤ n ∨ 4 ≤ l ∨ laneFailState (s.lnk n).state = false then s
  else
    let k := if e.bad then getAt 0 (s.lnk n).berBad l + 1 else 0
    let s1 := ((s.updLnk n (fun x => { x with berBad := setAt x.berBad l k })).setFld (Reg.laneStat_berExp n l) (e.berExp % 256)).setFld
      (Reg.laneStat_eqMargin n l) (e.eq % 65536)
    if 3 ≤ k ∨ 16 ≤ e.uncorr then laneFail s1 n l else s1

/-- An uncorrectable error (R380, R381): SRAM words and HBM granules stay bad until they are written whole, and what reads them
meets the error; a table's stay until the next accepted SCHED_INSTALL; of the other memories the step that reads the granule fails. -/
def takeMemErr (s : State) (e : MemErr) : State :=
  if e.mem = 0 then { s with sue := let g := sramAddr (e.field % 64) (e.off % 0x200000) / 8; if s.sue.contains g then s.sue else s.sue ++ [g] }
  else if e.mem = 5 then spoilRecord s (e.field % 64) e.off e.vec
  else if e.mem = 6 then { s with ue := if s.ue.contains (e.off / 32) then s.ue else s.ue ++ [e.off / 32] }
  else if e.mem = 4 then { s with sched := { s.sched with badTab := (e.typ, e.inst, e.off / 8) :: s.sched.badTab } }
  else if s.live (e.field % 64) (e.vec % 256) then memFail s (e.field % 64) (e.vec % 256) e.mem e.off
  else s

/-- What the memories' checks and the receivers have found in the round (R380, Table 9.7). -/
def checksRound (i : RoundIn) (s : State) : State :=
  let s1 := (s.count Reg.eccSram_corr i.sramCorr).count Reg.eccSram_routerCorr i.flitCorr
  let s2 := i.fecCorr.foldl (fun t e => t.count (Reg.fecCorr_corr e.1) e.2)
    ((s1.count Reg.eccHbm0_corr i.hbmCorr.1).count Reg.eccHbm1_corr i.hbmCorr.2)
  i.memErrs.foldl takeMemErr s2

/-- The end of a round: voltage loop, shed level, band, reports, requests, lane checks, HEARTBEAT. -/
def roundEnd (i : RoundIn) (s : State) : State :=
  let s1 := bandRound (shedRound (avsRound s i.slack))
  let s2 := i.lanes.foldl laneRound (healthReports (budgetReqs (shedReport s1)))
  { s2.countWrap Reg.heartbeat_count with aliveRounds := s2.aliveRounds + 1 }

/-- HOUSEKEEPING_ROUND: the cap asked for, sensors, rails and bus, then the round's end. -/
def execHousekeepingRound (i : RoundIn) (s : State) : Host.Outcome State Fault Refusal :=
  if !s.awake || !s.coreUp then .next s
  else
    let s1 := match s.pow.capNext with
      | some c => { s.setFld Reg.powerCapCur_cap c with pow := { s.pow with capNext := none } }
      | none => s
    let s2 := busConvert (readSensors s1 i.temps) i.busCode
    let s3 := if s2.busValue i.busCode ≤ 12800000 then s2.setFld Reg.thermStatus_busOver 0 else s2
    .next (roundEnd i (checksRound i (pmbRound s3 i)))

/-- SENSOR_FAST_READ: a sensor at or above 97 °C, every 16 µs. -/
def execSensorFastRead (sensor : Nat) (reading : Option Int) (s : State) : Host.Outcome State Fault Refusal :=
  if !s.awake || !s.coreUp || decide (48 ≤ sensor) || s.fld (Reg.sens_fast sensor) == 0 then .next s
  else .next (updateTemp (readSensor s sensor reading))

/-- BAND_CHANGE: at the first beat boundary after the round (R116). -/
def execBandChange (s : State) : Host.Outcome State Fault Refusal :=
  match s.pow.bandNext with
  | some b => .next { s with pow := { s.pow with band := b, bandNext := none } }
  | none => .next s

/-- BROWNOUT: the converted bus voltage is below 38.0 V; `low` is the lowest code during the record write. -/
def execBrownout (code low : Nat) (s : State) : Host.Outcome State Fault Refusal :=
  if !s.awake || !s.sensorOn || s.fld Reg.thermStatus_brownout == 1 || decide (9728000 ≤ s.busValue code) then .next s
  else
    let s1 := busConvert s code
    let s2 := writeEvent s1 0x02 (leBytes 2 (min (s1.busUnits code) (s1.busUnits low)))
    let s3 := raiseInt (((busConvert s2 low).setFld Reg.thermStatus_brownout 1).count Reg.thermCnt_brownoutCnt 1) 10
    .next (raiseShed (s3.setFld Reg.powerStatus_brownout 1) 40)

/-- BROWNOUT_CLEAR: the bus is at 39.0 V or above; S stays forced for 10 rounds. -/
def execBrownoutClear (code : Nat) (s : State) : Host.Outcome State Fault Refusal :=
  if !s.awake || !s.sensorOn || s.fld Reg.thermStatus_brownout == 0 || decide (s.busValue code < 9984000) then .next s
  else
    let s1 := raiseInt ((busConvert s code).setFld Reg.thermStatus_brownout 0) 10
    .next { s1 with pow := { s1.pow with boHold := 10 } }

/-- BUS_OVER: the bus rises above 50.0 V. -/
def execBusOver (code : Nat) (s : State) : Host.Outcome State Fault Refusal :=
  if !s.awake || !s.sensorOn || s.fld Reg.thermStatus_busOver == 1 || decide (s.busValue code ≤ 12800000) then .next s
  else
    let s1 := (busConvert s code).setFld Reg.thermStatus_busOver 1
    .next (writeEvent s1 0x03 (leBytes 2 (s1.busUnits code)))

/-- TIMING_MONITOR_LOW: a monitor reads below 5 ps (R365, R366). -/
def execTimingMonitorLow (domain : Nat) (slack : Int) (s : State) : Host.Outcome State Fault Refusal :=
  if !s.awake || !s.coreUp || s.fld Reg.blockEnMisc_power == 0 || !s.avsEn || !s.powered domain || decide (5 ≤ slack) ||
      (railsOf domain).isEmpty then .next s
  else
    let s1 := limitCheck s domain slack
    let ks := (railsOf domain).map (fun n => avsKey n domain)
    .next { s1.count Reg.powerCnt_avsFast 1 with pow := { s1.pow with dropPend := s1.pow.dropPend ++ ks.filter (fun k => !s1.pow.dropPend.contains k) } }

/-- PMB_ALERT: STATUS_WORD of every rail is read in the next round. -/
def execPmbAlert (s : State) : Host.Outcome State Fault Refusal :=
  if !s.awake || s.fld Reg.blockEnMisc_power == 0 then .next s
  else .next { s with pow := { s.pow with railStats := true } }

/-- ALIVE_SECOND: 1,000 rounds since ALIVE_S last advanced. -/
def execAliveSecond (s : State) : Host.Outcome State Fault Refusal :=
  if s.awake ∧ 1000 ≤ s.aliveRounds then .next { s with aliveS := s.aliveS + 1, aliveRounds := 0 } else .next s

/-- HEADER_CHECKPOINT: the event-log header, every 3,600 s. -/
def execHeaderCheckpoint (s : State) : Host.Outcome State Fault Refusal :=
  if s.awake ∧ s.coreUp = true then .next (writeHeader s id) else .next s

end Sys2Proof.Machine
end

