-- ==== Sys2Proof/Machine/IntegrityEvents.lean ====
section
/-! DEFINITION. The end of a Speedwell pass (R354 to R360), and power and reset domains that become ready (R240, R360,
R364, R388). -/

namespace Sys2Proof.Machine

/-! ### SPEEDWELL_PASS_END -/

/-- What the pass read of a register: the value before a write that landed after the read, or the present one. -/
def State.passWord (s : State) (off : Nat) : Word := (sget noWord s.spw.seen off).getD (s.cfgWord off)

/-- What the pass read of CAL_CFG in field `f`. -/
def State.passCal (s : State) (f : Nat) : Word := s.passWord (Reg.calCfg_driftTol f).reg

/-- Fields that hold a value of CAL_CFG. -/
def State.calVotes (s : State) (w : Word) : Nat := ((List.range 64).filter (fun f => s.passCal f == w)).length

/-- The prevailing value: that of the most fields, of the lowest-numbered field where as many hold another (R358). -/
def State.prevailing (s : State) : Word :=
  s.passCal ((List.range 64).foldl (fun b f => if s.calVotes (s.passCal b) < s.calVotes (s.passCal f) then f else b) 0)

/-- Fields that hold another value. -/
def State.dissenting (s : State) : List Nat := (List.range 64).filter (fun f => s.passCal f != s.prevailing)

/-- The CRCs that the pass formed. -/
def passRegs (s : State) : State :=
  (List.range 128).foldl (fun t k => t.setWord (Reg.cfgBlkLast_last k).reg (passCrc s.passWord (blockCfg k)))
    (s.setWord Reg.cfgCrcLast_last.reg (passCrc s.passWord cfgOffsets))

/-- The pass matches (R356). -/
def State.passMatches (s : State) : Bool :=
  s.fld Reg.spwStatus_refValid == 1 && passCrc s.passWord cfgOffsets == s.word Reg.cfgCrcRef_ref.reg && s.dissenting.isEmpty

/-- Blocks that a pass finds wrong while they are enabled: their block CRC differs from the reference, or they are
dissenting fields (R359). `s` holds the pass's block CRCs. -/
def State.corrupt (s : State) : List Nat :=
  (List.range 128).filter (fun k => s.blockEn k &&
    (s.word (Reg.cfgBlkLast_last k).reg != s.word (Reg.cfgBlkRef_ref k).reg || (decide (64 ≤ k) && s.dissenting.contains (k - 64))))

/-- CONFIG_INTEGRITY on blocks, the lowest of which is named. -/
def configIntegrity (s : State) (ks : List Nat) : State :=
  match ks with
  | [] => s
  | k :: _ =>
    let s1 := raiseInt ((s.setFld Reg.spwStatus_integBlock k).setFld Reg.spwStatus_integSeen 1) 11
    let s2 := recordFault s1 5 0x0502 0xFF 5 k {} (leBytes 4 (s.word (Reg.cfgBlkLast_last k).reg).toNat ++ leBytes 4 (s.word (Reg.cfgBlkRef_ref k).reg).toNat)
    let s3 := ks.foldl clearEnable s2
    { s3 with spw := { s3.spw with integ := s3.spw.integ ++ ks.filter (fun x => !s3.spw.integ.contains x) } }

/-- CFG_COMMIT jobs accepted before the pass began end with it: OK where it matched and no configuration write has landed since
their acceptance (R320, R357). -/
def commitEnds (s : State) (ok : Bool) : State :=
  ((s.jobsOf 0x0104).filter (fun j => decide (fieldAt (s.job j.1 j.2).args 0 16 < s.spw.start))).foldl (fun t j =>
    jobDone t j.1 j.2 (if ok && fieldAt (t.job j.1 j.2).args 16 8 == t.spw.writes % 2 ^ 64 then 0 else 0x45) []) s

/-- Enables that waited for this pass follow it; those that waited for a pass to begin wait for the next (R354). -/
def waitsMove (s : State) : State :=
  let ws := s.spw.waits.filterMap (fun e => if e.2 = 1 then some (e.1, 2) else if e.2 = 2 then none else some e)
  let s1 : State := { s with spw := { s.spw with waits := ws } }
  let due := s1.domResets.filter (fun r => decide (64 ≤ r.domain) && !r.inReset && r.wait == 2)
  let s2 := due.foldl enableReset s1
  bringUps { s2 with domResets := s2.domResets.map (fun r => if r.wait = 1 ∧ 64 ≤ r.domain then { r with wait := 2 } else r) }

/-- The next pass begins. -/
def nextPass (s : State) : State := { s with spw := { s.spw with start := s.clk, seen := [], written := false } }

/-- SPEEDWELL_PASS_END: a pass takes 133,760 cycles. Every write after this one counts for the next pass, those of the
control core that follow a passed enable included. -/
def execSpeedwellPassEnd (s : State) : Host.Outcome State Fault Refusal :=
  if s.dieState = .off then .next s
  else
    let s0 := { s with clk := max s.clk (s.spw.start + 133760) }
    let ok := s0.passMatches
    let ds := s0.dissenting
    let s1 := (passRegs s0).countWrap Reg.spwPassCnt_passes
    let s2 := (((s1.setFld Reg.spwStatus_passDone 1).setFld Reg.spwStatus_match (b2n ok)).setFld Reg.spwStatus_agreeFail (b2n (!ds.isEmpty))).setFld
      Reg.spwStatus_clean (b2n (!s.spw.written))
    let s3 := commitEnds (configIntegrity s2 s2.corrupt) ok
    .next (waitsMove (nextPass s3))

/-! ### Domains that become ready -/

/-- Links of a domain that are enabled and still DISABLED begin training, except while their own domain is in reset. -/
def trainDomain (s : State) (d : Nat) : State :=
  (gatedLinks d).foldl (fun t n =>
    if t.fld (Reg.linkCfg_en n) = 1 ∧ (t.lnk n).state = .disabled ∧ t.inReset (linkResetDomain n) = false then startTraining t n else t) s

/-- DOMAIN_POWER_READY: 20 µs after the switch of a domain began to close. -/
def execDomainPowerReady (d : Nat) (s : State) : Host.Outcome State Fault Refusal :=
  if !s.pow.pdBegun.contains d then .next s
  else
    let s1 := { s with pow := { s.pow with pdBegun := s.pow.pdBegun.filter (fun x => x != d) } }
    if d < 64 then .next (fieldReady s1 d)
    else
      let s2 := { s1 with pow := { s1.pow with pdOn := setBit s1.pow.pdOn d } }
      .next (if d < 70 then resumeInstalls s2 else trainDomain s2 d)

/-- DOMAIN_RESET_RELEASE: 64 beats after the domain entered reset. -/
def execDomainResetRelease (d : Nat) (s : State) : Host.Outcome State Fault Refusal :=
  match s.domResets.find? (fun r => r.domain == d && r.inReset) with
  | some r => .next (releaseReset s r)
  | none => .next s

end Sys2Proof.Machine
end

