-- ==== Sys2Proof/Machine/RegAccess.lean ====
section
/-! DEFINITION. Accesses to mailboxes, registers and memory by the host over U4, and by the manager to MBX7
(R302, R303, R307 to R310, R348 to R354). A die in OFF answers nothing. -/

namespace Sys2Proof.Machine

/-- A write to a mailbox page: the host reaches MBX0 to MBX6, the obeyed manager MBX7; any other is denied
(R302, R310). -/
def mbxAccess (s : State) (m : Nat) (src : Option Nat) (g : State → State) : State :=
  if s.dieState = .off then s
  else match src with
  | none => if m = 7 then hostDenied s else g s
  | some d => if m = 7 ∧ s.manager = some d then g s else s.count Reg.fabDenyCnt_denied 1

/-- MBX_GO (R303). -/
def execMbxGo (m : Nat) (src : Option Nat) (s : State) : Host.Outcome State Fault Refusal :=
  .next (mbxAccess s m src (fun t => mbxGo t m src))

/-- Write words of a command area upwards. -/
def cmdWords (s : State) (m off : Nat) (bs : List Byte) : Nat → State
  | 0 => s
  | n + 1 => cmdWords (mbxCmd s m off (slice bs 0 4)) m (off + 4) (bs.drop 4) n

/-- MBX_CMD_WRITE: `data` at offset `off` of the command area, register by register (R303). -/
def execMbxCmdWrite (m off : Nat) (data : List Byte) (src : Option Nat) (s : State) : Host.Outcome State Fault Refusal :=
  .next (mbxAccess s m src (fun t => cmdWords t m off data (data.length / 4)))

/-- JOB_ACK (R307). -/
def execJobAck (m jobNo : Nat) (src : Option Nat) (s : State) : Host.Outcome State Fault Refusal :=
  .next (mbxAccess s m src (fun t => mbxAck t m jobNo))

/-- INT_MASK_WRITE (R308). -/
def execIntMaskWrite (v : Word) (s : State) : Host.Outcome State Fault Refusal :=
  .next (hostWrite s 0x10018 v)

/-- CONFIG_WRITE: a write of `v` to the register at CSR offset `off`, which holds configuration fields (R352). -/
def execConfigWrite (off : Nat) (v : Word) (s : State) : Host.Outcome State Fault Refusal :=
  .next (hostWrite s off v)

/-- ENABLE_WRITE: a write of `v` to a register with enable bits, some of them 1 in `v` (R353, R362). -/
def execEnableWrite (off : Nat) (v : Word) (s : State) : Host.Outcome State Fault Refusal :=
  .next (hostWrite s off v)

/-- DISABLE_WRITE: a write of `v` to a register with enable bits, some of them 0 in `v` (R353, R354). -/
def execDisableWrite (off : Nat) (v : Word) (s : State) : Host.Outcome State Fault Refusal :=
  .next (hostWrite s off v)

/-- READ_CLEAR: a read of a register with RC fields (R6). -/
def execReadClear (off : Nat) (s : State) : Host.Outcome State Fault Refusal :=
  .next (hostRead s off)

/-- FT_NS_LO_READ: the read that latches FT_NS_HI and FT_FRAC (R150). -/
def execFtNsLoRead (s : State) : Host.Outcome State Fault Refusal :=
  .next (hostRead s Reg.ftNsLo_nsLo.reg)

/-- REGISTER_WRITE: a write to any other register (R5, R6). -/
def execRegisterWrite (off : Nat) (v : Word) (s : State) : Host.Outcome State Fault Refusal :=
  .next (hostWrite s off v)

/-- Field of the station of U4 (Table 2.1). -/
def hostField : Nat := 56

/-- The answer of a U4 read. -/
def rdResp (s : State) (tag status addr : Nat) (data : List Byte) : State :=
  s.emit (.u4 0x81 status tag data.length addr data)

/-- The answer of a U4 write. -/
def wrResp (s : State) (tag status addr : Nat) : State := s.emit (.u4 0x82 status tag 0 addr [])

/-- U4_RD: a host read of CSR, HBM or SRAM space (R309, R348, R381). -/
def execU4Rd (tag len addr : Nat) (s : State) : Host.Outcome State Fault Refusal :=
  if s.dieState = .off then .next s
  else match u4Fault addr len false with
  | some a => .next (rdResp (busError s a false 0) tag 1 addr [])
  | none =>
    if region addr = 2 then
      match crossMesh s hostField coreField with
      | none => .next (rdResp s tag 4 addr [])
      | some t =>
        let r := csrRead t (csrOff addr) (len / 4)
        .next (rdResp r.1 tag 0 addr r.2)
    else if !s.rangePresent addr len then .next (rdResp s tag 4 addr [])
    else match meshTo s hostField addr with
    | none => .next (rdResp s tag 4 addr [])
    | some t =>
      if t.ueIn addr len then .next (rdResp (readUe t addr len 5) tag 3 addr [])
      else .next (rdResp t tag 0 addr (t.read addr len))

/-- U4_WR: a host write (R302, R309, R348). The protected ranges 0 and 1 refuse it. -/
def execU4Wr (tag addr : Nat) (data : List Byte) (s : State) : Host.Outcome State Fault Refusal :=
  let len := data.length
  if s.dieState = .off then .next s
  else match u4Fault addr len true with
  | some a => .next (wrResp (busError s a true 0) tag 1 addr)
  | none =>
    if region addr = 2 then
      if isMbx7 (csrOff addr) then .next (wrResp (hostDenied s) tag 2 addr)
      else match crossMesh s hostField coreField with
      | none => .next (wrResp s tag 4 addr)
      | some t => .next (wrResp (csrWriteAll t (csrOff addr) data none (len / 4)) tag 0 addr)
    else if s.protHit [0, 1] addr len then .next (wrResp s tag 2 addr)
    else if !s.rangePresent addr len then .next (wrResp s tag 4 addr)
    else match meshTo s hostField addr with
    | none => .next (wrResp s tag 4 addr)
    | some t =>
      if t.uePartial addr len then .next (wrResp (readUe t addr len 5) tag 3 addr)
      else .next (wrResp (t.write addr data) tag 0 addr)

/-- INT_WINDOW_END (R308). -/
def execIntWindowEnd (bit : Nat) (s : State) : Host.Outcome State Fault Refusal :=
  match s.intWin.find? (fun e => e.1 == bit) with
  | none => .next s
  | some e =>
    let s1 := { s with intWin := s.intWin.filter (fun x => x.1 != bit) }
    if e.2 && s.fld (intBit bit) == 1 then
      .next { s1 with out := s1.out ++ [intMsg s1 bit], intWin := s1.intWin ++ [(bit, false)] }
    else .next s1

end Sys2Proof.Machine
end

