-- ==== Sys2Proof/Machine/ResetEvents.lean ====
section
/-! DEFINITION. Resets and boot (R377, R378, R391, R393, R402 to R405, R422 to R424), fatal errors (R383) and the test
port (R419). -/

namespace Sys2Proof.Machine

/-! ### What a reset keeps -/

/-- A tile's resistive memory: both copies of its record and of its ledger entry. -/
def keepTile (x : Tile) : Tile :=
  { copyA := x.copyA, copyB := x.copyB, lastB := x.lastB, ledA := x.ledA, ledB := x.ledB, ledLastB := x.ledLastB }

/-- The tiles after a reset. -/
def keepTiles (l : Sparse Tile) : Sparse Tile :=
  l.filterMap (fun e => if keepTile e.2 = {} then none else some (e.1, keepTile e.2))

/-- Resistive memory, fuses and the always-on registers of R391 outlive a reset; everything else is at its reset value.
Waiting commands, sent messages, free values and the count of cycles are the model's own and go on. -/
def keepState (s : State) : State :=
  { pending := s.pending, out := s.out, free := s.free, clk := s.clk, supply := s.supply, firstBoot := s.firstBoot
    aged := s.aged, qpos := s.qpos, ev := s.ev, aliveS := s.aliveS, aliveRounds := s.aliveRounds
    sec := { fuses := s.sec.fuses, patchStore := s.sec.patchStore }
    grid := { tiles := keepTiles s.grid.tiles, cells := s.grid.cells }, spw := { start := s.clk } }

/-- THERM_TRIP_N is released when the die leaves THERMAL_SHUTDOWN (Table 20.3). -/
def releaseTrip (s : State) : State := if s.pow.thermTrip then s.emit (.pin pinThermTrip false) else s

/-! ### Entry to ROM_BOOT and OFF -/

/-- Entry to ROM_BOOT with a RESET_CAUSE. -/
def enterBoot (s : State) (cause : Nat) : State := (keepState (releaseTrip s)).setFld Reg.resetCause_cause cause

/-- Entry to OFF. A boot that the event cuts short has already been recorded. -/
def enterOff (s : State) : State :=
  let s1 := if s.booting then bootLog s else s
  { keepState (releaseTrip s1) with dieState := .off, qpos := 0 }

/-! ### Reset events -/

/-- RESET_N_ASSERT. -/
def execResetNAssert (s : State) : Host.Outcome State Fault Refusal :=
  if s.dieState = .off then .next s else .next (enterOff s)

/-- SUPPLY_LOSS: the always-on registers are lost as well. -/
def execSupplyLoss (s : State) : Host.Outcome State Fault Refusal :=
  let s1 := if s.dieState = .off then s else enterOff s
  .next { s1 with supply := false, firstBoot := true, aged := false, aliveS := 0, aliveRounds := 0 }

/-- RESET_N_RELEASE with the rails in range; after a power-on reset it counts as supply applied. -/
def execResetNRelease (qpos : Nat) (s : State) : Host.Outcome State Fault Refusal :=
  if s.dieState = .off then
    .next { enterBoot { s with supply := true } (if s.firstBoot then 0 else 1) with qpos := qpos % 4 }
  else .next s

/-- POWER_ON_RESET_RELEASE: VDD_AON rises above the power-on-reset level with RESET_N released. -/
def execPowerOnResetRelease (qpos : Nat) (s : State) : Host.Outcome State Fault Refusal :=
  if s.dieState = .off ∧ s.supply = false then .next { enterBoot { s with supply := true } 0 with qpos := qpos % 4 } else .next s

/-- WHOLE_DIE_RESET: 10 ms after the response that asked for it. -/
def execWholeDieReset (s : State) : Host.Outcome State Fault Refusal :=
  match s.dieReset with
  | some c => if s.dieState = .off then .next s else .next (enterBoot s c)
  | none => .next s

/-! ### ROM_BOOT_DONE (Table 19.2) -/

/-- Draw PATH_KEY, both HBM_KEYs and the start of the page-nonce counter (R205, R259, R263). -/
def drawKeys (s : State) : State :=
  { s with
    sec := { s.sec with pathKey := Config.freeNat s.free, hbmKey := [Config.freeNat (s.free + 1), Config.freeNat (s.free + 2)] }
    att := { s.att with nonce := Config.freeNat (s.free + 3) % 2 ^ 46 }
    free := s.free + 4 }

/-- Step 4: the patch bundle. -/
def bootPatch (s : State) : State :=
  let b := s.sec.patchStore
  if b.isEmpty then s
  else match bundleCheck s b with
  | .ok =>
    let s1 := s.setFld Reg.patchLevel_level (fieldAt b 12 4)
    { s1 with sec := { s1.sec with patchDigest := sha (b.take (fieldAt b 16 4)) } }
  | .badSig => sigFail (s.setFld Reg.coreStatus_patchReject 1)
  | .bad => s.setFld Reg.coreStatus_patchReject 1

/-- The state in which ROM_BOOT ends. -/
def bootEnd (s : State) : DieState :=
  let h := s.ev.hdr
  if h.latch then .thermalShutdown
  else if h.oos || hasBit h.retired 0x50 || hasBit h.retired 0x51 then .outOfService
  else .identified

/-- A retirement lets a power domain be powered at the end of ROM_BOOT. -/
def bootPowers (s : State) (d : Nat) : Bool :=
  if d < 64 then !s.retiredDom d else if d = 70 ∨ d = 71 then !s.retiredDom (d - 70 + 0x50) else d == 74

/-- Domains powered as the die enters its state: UCIe edge N always; fields and HBM in IDENTIFIED (R364). Each field loads
its records and ledger, and counts in CHANGE_COUNT (R34). -/
def bootPower (s : State) : State :=
  if s.dieState = .identified then
    let ds := (List.range 76).filter (bootPowers s)
    let fs := ds.filter (fun d => decide (d < 64))
    let s1 : State := { s with
      pow := { s.pow with pdOn := ds.foldl setBit s.pow.pdOn }, grid := { s.grid with change := s.grid.change + fs.length } }
    fs.foldl (fun t f => loadRecords t f false) s1
  else { s with pow := { s.pow with pdOn := setBit s.pow.pdOn 74 } }

/-- THERM_TRIP_N in a boot that ends in THERMAL_SHUTDOWN (R372). -/
def bootTrip (s : State) : State :=
  if s.dieState = .thermalShutdown then { s with pow := { s.pow with thermTrip := true } }.emit (.pin pinThermTrip true) else s

/-- ROM_BOOT_DONE; the registers of protected range 0 show the shard slots from then on (R224, log entry 80). A failed fuse check leaves the die in ROM_BOOT after step 2 (R402). -/
def execRomBootDone (s : State) : Host.Outcome State Fault Refusal :=
  if !s.booting || !s.coreUp then .next s
  else
    let s1 := bootLog s
    if s.sec.fuses.checkBad then .next (s1.setFld Reg.secStatus_fuseFail 1)
    else
      let s2 := setProt (bootPatch (drawKeys s1)) 0 (some (0, 2 ^ 33 - 1))
      .next (bootTrip (bootPower (enterState s2 (bootEnd s2))))

/-! ### Fatal errors (R383) -/

/-- CORE_FATAL in SRAM (0), ROM (1), which has parity alone, or the patch store (2): hardware records it; the core stops and the die fires nothing further. -/
def execCoreFatal (mem addr : Nat) (s : State) : Host.Outcome State Fault Refusal :=
  if s.dieState = .off ∨ s.coreUp = false then .next s
  else
    let s1 := writeEvent (if mem = 1 then s else s.count Reg.eccSram_uncorr 1) 0x13 (leBytes 1 mem ++ leBytes 3 0 ++ leBytes 4 addr)
    .next { stopFiring s1 with coreUp := false }

/-- No flit error known. -/
def noTime (_ : Nat) : Nat := 0

/-- ROUTER_LOST: a table-memory error (`why` 0), or an uncorrectable flit (1), whose second within 1,000 ms loses the
router; its time plus 1 is kept. -/
def execRouterLost (field why : Nat) (s : State) : Host.Outcome State Fault Refusal :=
  if s.dieState = .off ∨ 64 ≤ field ∨ s.routerOk field = false then .next s
  else
    let last := sget noTime s.grid.flitErr field
    let s0 := s.count Reg.eccSram_uncorr 1
    let s1 : State := { s0 with grid := { s0.grid with flitErr := sset noTime s0.grid.flitErr field (s.ns + 1) } }
    if why ≠ 0 ∧ (last = 0 ∨ last + 1000000000 < s.ns + 1) then .next s1
    else
      let s2 := s1.setFld (Reg.routerStat_routerOk field) 0
      let s3 : State := { s2 with grid := { s2.grid with change := s2.grid.change + 1 } }
      .next (writeEvent (recordFault s3 2 0x0203 (0x80 + field) 2 field {} (leBytes 1 (min why 1))) 0x14 (leBytes 1 field))

/-! ### The test port (R402, R419) -/

/-- A number with bit `i` blown. -/
def blow (v i : Nat) : Nat := setBit v i

/-- Blow one fuse (Table 19.1). -/
def Fuses.blowBit (z : Fuses) (b : Nat) : Fuses :=
  if b < 256 then { z with deviceSeed := blow z.deviceSeed b }
  else if b < 512 then { z with rootHash := blow z.rootHash (b - 256) }
  else if b < 1536 then { z with opHash := updAt z.opHash ((b - 512) / 256) (fun v => blow v ((b - 512) % 256)) }
  else if b = 1536 then { z with roleMgr := true }
  else if b = 1537 then { z with dbgKill := true }
  else if b < 2048 then { z with mfg := blow z.mfg (b - 1538) }
  else z

/-- A fuse is blown; whether the array's own check code holds afterwards is a free value, for the spec does not give the
code (log entry 30). -/
def blowFuse (s : State) (b : Nat) : State :=
  let z := s.sec.fuses.blowBit b
  if z = s.sec.fuses then s
  else { s.draw with sec := { s.sec with fuses := { z with checkBad := s.drawn % 2 == 1 } } }

/-- TEST_PORT_ACCESS: nothing once DBG_KILL is blown. Boundary scan and the self-test of ROM_BOOT change no state that the
spec describes. -/
def execTestPortAccess (op : TestOp) (s : State) : Host.Outcome State Fault Refusal :=
  if s.sec.fuses.dbgKill || s.dieState == .off then .next s
  else match op with
  | .boundaryScan => .next s
  | .blowFuse b => .next (blowFuse s b)
  | .readKwk => .next (s.emit (.testData (leBytes 32 (Config.kwk s.sec.fuses.deviceSeed).toNat)))
  | .selfTest => .next s

end Sys2Proof.Machine
end

