-- ==== Sys2Proof/Machine/RouterEvents.lean ====
section
/-! DEFINITION. ROUTER_ENTRY, DEPARTURE and SCHED_FRAME (R158 to R170, R192, R200). An entry that the installed
image does not hold in this beat, or that comes while the die does not fire, does nothing. -/

namespace Sys2Proof.Machine

/-- The reads of an entry from an HBM station are delayed past their beat, by a fault in a pseudo-channel (R265). -/
def lateRead (s : State) (f e : Nat) (late : Option Nat) : State :=
  match late, getAt Station.core (stationsOf f) (reIn e - 5) with
  | some pc, .hbm side => if 5 ≤ reIn e then hbmLate s side f (reTag e) pc else s
  | _, _ => s

/-- A router entry moves its flits from one input to every output it names. -/
def execRouterEntry (field : Nat) (x : EntryRun) (s : State) : Host.Outcome State Fault Refusal :=
  match s.routerEntry field x.idx with
  | none => .next s
  | some e =>
    if !s.firing || decide (64 ≤ field) || reBeat e != s.stepBeat field then .next s
    else
      let s0 := s.atCycle (reSlot e) (reCycle e)
      if !s0.routerOk field then .next s0
      else
        let r := routerInput (lateRead s0 field e x.late) field e
        .next (((List.range 7).filter (fun p => hasBit (reOut e) p)).foldl (fun t p => deliver t field e r.2 p) r.1)

/-- Send one scheduled frame on a link and note what it holds (R161, R192). -/
def sendSched (s : State) (n e : Nat) (fr : SchedFrame) : State :=
  let start := deSlot e * 80 + deCycle e
  let hold := s.frameHold n (deFlits e)
  if n < 8 ∧ (start < (s.lnk n).holdTo ∨ 5120 < start + hold) then s.count (Reg.degradeDrop_drops n) 1
  else (s.emit (.sched n { fr with fpv := s.fld (Reg.linkStatus_fpv n) })).updLnk n (fun l => { l with sent := l.sent + 1, holdTo := start + hold })

/-- A departure sends its frame at its scheduled cycle: the payload of a live position, a NULL frame for a null
position or one that carries nothing, a FAIL frame for a failed one (R170). A payload not complete in time is
LATE and fails the position (R167). -/
def execDeparture (link idx : Nat) (s : State) : Host.Outcome State Fault Refusal :=
  match s.departureEntry link idx with
  | none => .next s
  | some e =>
    if !s.firing || decide (12 ≤ link) || deBeat e != s.stepBeat (64 + link) then .next s
    else
      let s0 := s.atCycle (deSlot e) (deCycle e)
      let f := linkField link
      let v := deVec e
      if (s0.lnk link).state ≠ .inService then .next (s0.count (Reg.linkBeat_unsentCnt link) 1)
      else
        let late := s0.live f v && !payloadReady s0 f v (deSrc e) (deFlits e) (s0.stepSlot f (deSlot e))
        let s1 := if late then
            failStepIn (s0.count (Reg.linkSched_lateCnt link) 1) (linkResetDomain link) f v 0x0101 3 link
              (leBytes 1 5 ++ leBytes 1 (deSlot e))
          else s0
        let s1 := if s1.live f v && s1.fieldRuns f then
            ((tableFault s1 f v 7 link (16 * idx) 16).orElse (fun _ => sramFault s1 f v (deSrc e) (128 * deFlits e))).getD s1
          else s1
        let zeros : List Byte := List.replicate (128 * deFlits e) 0
        let base : SchedFrame :=
          { dst := deDest e, src := s1.myId, isNull := true, isFail := false, ctx := { emptyCtx with modelGen := s1.modelGen }
            vec := v, destBuf := deBuf e, beat := s1.beat % 2 ^ 32, data := zeros }
        let fr := match s1.posOf f v with
          | none => if s1.mbFailed f (s1.mbOf f v) then { base with isNull := false, isFail := true } else base
          | some p =>
            if p.null && !p.failed then base
            else if p.failed then { base with isNull := false, isFail := true, ctx := { p.ctx with modelGen := s1.modelGen } }
            else if !s1.fieldRuns f then base
            else { base with isNull := false, ctx := { p.ctx with modelGen := s1.modelGen }, data := s1.sram f (deSrc e) (128 * deFlits e) }
        let s2 := if s1.live f v && !s1.fieldRuns f then fieldDown s1 f v else s1
        let fr2 := if s1.live f v && !s1.fieldRuns f then
            { base with isNull := false, isFail := true, ctx := { ((s1.posOf f v).getD { ctx := emptyCtx, null := true, failed := false }).ctx with modelGen := s1.modelGen } }
          else fr
        .next (sendSched s2 link e fr2)

/-- A drain of the buffer falls in this slot or the next, so that a frame completing now misses its deadline
(R167). -/
def drainNear (s : State) (n buf slot : Nat) : Bool :=
  let f := linkField n
  let q := s.stepSlot f slot
  let d := s.section 5 f
  s.firing && (List.range (d.length / 8)).any (fun i =>
    let e := fieldAt d (8 * i) 8
    let c := reBeat e * 64 + reSlot e
    decide (5 ≤ reIn e) && getAt Station.core (stationsOf f) (reIn e - 5) == .link n && reTag e % 64 == buf &&
      (c == (q + 1) % (planBeats (s.plan f) * 64) || (c == q && decide (s.cyc % 80 < reCycle e))))

/-- A frame comes for a buffer that a drain has already found empty for it: the drain counted it, and it is discarded. -/
def dropCounted (s : State) (m : BufMark) : State :=
  { s with sched := { s.sched with bufMark := { m with frame := true } :: s.sched.bufMark.erase m } }

/-- SCHED_FRAME: a scheduled frame arrives whole in `slot` of this beat (R162, R200). -/
def execSchedFrame (link slot : Nat) (f : SchedFrame) (s : State) : Host.Outcome State Fault Refusal :=
  if (s.lnk link).state ≠ .inService ∨ 12 ≤ link then .next s
  else match rxDiscard s link f.rx (40 + f.data.length) true with
  | some t => .next t
  | none =>
    let s0 := (s.atSlot slot).updLnk link (fun l => { l with rcvd := l.rcvd + 1 })
    let k := bufKey link (f.destBuf % 64)
    if f.dst ≠ s.myId then .next (s0.count Reg.fabRouteCnt_misroute 1)
    else if dieHalf f.src ≠ dieHalf s.myId then .next (s0.count Reg.fabDenyCnt_crossHalf 1)
    else if (sget noFrame s0.sched.bufs k).isSome then .next (s0.count (Reg.linkSched_bufBusy link) 1)
    else
      match s0.sched.bufMark.find? (fun m => !m.frame && m.fits k f.vec) with
      | some m => .next (dropCounted s0 m)
      | none =>
        if drainNear s0 link (f.destBuf % 64) slot then
          .next (markBuf (s0.count (Reg.linkSched_lateCnt link) 1) k f.vec true)
        else .next (nextFrame (setBuf s0 k (some { fr := f, no := s0.sched.frames })))

end Sys2Proof.Machine
end

