-- ==== Sys2Proof/Machine/ShardEvents.lean ====
section
/-! DEFINITION. Swap, programming and fetch events: SWAP_COMMIT, PROG_WAVE_END, PROG_WAVE_TIMEOUT, ROCE_READ_RESPONSE,
ROCE_ACK, ROCE_NAK, ROCE_TIMEOUT, SHARD_REDIGEST (R228 to R241, R287). -/

namespace Sys2Proof.Machine

/-! ### The commit (R239, R287) -/

/-- MODEL_GEN and SHARD_DIGEST of the installed image name the new shard, and the schedule digest is recomputed. -/
def updateImage (s : State) : State :=
  if s.installed && s.rangePresent s.shard.imgAddr s.shard.imgLen then
    let s1 := (s.write (s.shard.imgAddr + 20) (leBytes 4 s.modelGen)).write (s.shard.imgAddr + 32) (slice s.shard.digest 0 32)
    { s1 with sched := { s1.sched with digest := sha (s1.read s1.shard.imgAddr s1.shard.imgLen) } }
  else s

/-- An attention die writes its MODEL_GEN_CUR into every page-list header and sets every COMMIT_LEN to 0 (R287). -/
def resetLists (s : State) : State :=
  if s.attUnits = 0 then s
  else (List.range 16384).foldl (fun t i =>
    if deBound (t.dirEntry i) then
      let t1 := (t.listsOf i).foldl (fun a p => a.write (p.2 + 8) (leBytes 4 a.modelGen)) t
      let w := fieldAt (t1.dirEntry i) 8 8
      t1.write (t1.dirAddr i + 8) (leBytes 8 (w - bits w 0 20))
    else t) s

/-- The swap commits. -/
def commitSwap (s : State) (job : Option (Nat × Nat)) : State :=
  let s1 := swapIdle (takeShard s (1 - s.activeSlot))
  let s2 := resetLists (updateImage (setAllGens s1 s1.modelGen))
  let s3 := swapSeqs { s2 with seqs := { s2.seqs with places := [] } }
  finish (pumpAll s3) job 0 []

/-- SWAP_COMMIT: in READY, at beat boundary COMMIT_BEAT. -/
def execSwapCommit (s : State) : Host.Outcome State Fault Refusal :=
  match s.shard.commitAt with
  | some (b, job) => if s.swapState = 4 ∧ b ≤ s.beat then .next (commitSwap s job) else .next s
  | none => .next s

/-! ### Programming waves (R233, R234) -/

/-- Columns of a tile that failed in a wave. -/
def failedOf (outs : List ProgOutcome) (t : Nat) : List Nat :=
  match outs.find? (fun o => o.tile == t) with
  | some o => o.failed.filter (fun c => decide (c < 520))
  | none => []

/-- PROG_WAVE_END: every tile of the running wave is complete; `outs` gives the columns that failed. -/
def execProgWaveEnd (outs : List ProgOutcome) (s : State) : Host.Outcome State Fault Refusal :=
  .next (bringUps (waveEnd s (fun t => some (failedOf outs t))))

/-- PROG_WAVE_TIMEOUT: the wave's unfinished tiles are retired with cause 5, the others are complete, less the columns that
failed. -/
def execProgWaveTimeout (x : WaveTimeout) (s : State) : Host.Outcome State Fault Refusal :=
  .next (bringUps (waveEnd s (fun t => if x.unfinished.contains t then none else some (failedOf x.outs t))))

/-- The sources of the last fetch are still configured: their links are enabled. -/
def State.sourcesOn (s : State) : List Src := s.shard.lastSrc.filter (fun x => s.fld (Reg.linkCfg_en x.port) == 1)

/-- The bad objects of the active slot are read again from the sources of the last fetch, once no fetch runs (R231). -/
def reread (s : State) : State :=
  if s.shard.bad.isEmpty || s.sourcesOn.isEmpty then { s with shard := { s.shard with reread := false } }
  else if s.shard.fetch.isSome then { s with shard := { s.shard with reread := true } }
  else startRepair s none (s.sourcesOn.map (fun x => { x with live := true, tries := 0, flight := [] }))

/-- A fetch may have ended: what waits for it goes on. -/
def afterFetch (s : State) : State := if s.shard.reread && s.shard.fetch.isNone then reread s else s

/-! ### RoCEv2 (Table 11.5) -/

/-- ROCE_READ_RESPONSE: data of shard bytes from `off` arrives from source `src`. -/
def execRoceReadResponse (src off : Nat) (data : List Byte) (s : State) : Host.Outcome State Fault Refusal :=
  .next (afterFetch (landData s src off data))

/-- ROCE_ACK: an acknowledgement answers no READ and changes nothing. -/
def execRoceAck (_src _psn : Nat) (s : State) : Host.Outcome State Fault Refusal := .next s

/-- ROCE_NAK: go-back-N from the first missing PSN; a NAK outside the PSNs in flight is discarded. -/
def execRoceNak (src psn : Nat) (s : State) : Host.Outcome State Fault Refusal :=
  match s.shard.fetch with
  | none => .next s
  | some f =>
    let n := f.objs.foldl (fun n o => if o.src = src then n + o.pagesOut else n) 0
    let d := ((getAt noSrc f.srcs src).psn + 2 ^ 24 - psn % 2 ^ 24) % 2 ^ 24
    if 1 ≤ d ∧ d ≤ n then .next (afterFetch (retryOrDrop s src)) else .next s

/-- ROCE_TIMEOUT: 1 ms without a response. -/
def execRoceTimeout (src : Nat) (s : State) : Host.Outcome State Fault Refusal := .next (afterFetch (retryOrDrop s src))

/-! ### Re-digest (R231) -/

/-- Objects of the active slot that fail their digest, or hold an uncorrectable granule: tiles, sections, manifest. -/
def badNow (s : State) : List Nat :=
  let b := s.activeBase
  (List.range 8192).filter (fun t => s.tilePresent b t && (s.ueIn (s.imageAddr b t) imageLen || !tileImageOk s b t)) ++
    (((List.range (s.shardSections b)).filter (fun k =>
      s.ueIn (b + s.hbm (sectionAddr b k + 8) 8) (s.hbm (sectionAddr b k + 16) 8) || !sectionOk s b k)).map (fun k => 8192 + k)) ++
    (if s.ueIn b s.shard.signed || !manifestOk s then [16384] else [])

/-- SHARD_REDIGEST: failing objects become bad, and are read again from the sources of the last fetch. -/
def execShardRedigest (s : State) : Host.Outcome State Fault Refusal :=
  if !s.coreAwake || s.fld Reg.shardStatus_activeValid == 0 || !s.rangePresent s.activeBase (2 ^ 32) then .next s
  else
    let l := badNow s
    let new := (l.filter (fun k => !s.shard.bad.contains k)).length
    let s1 := l.foldl markBad (s.setFld Reg.redigestStat_lastPass (s.ns / 10 ^ 9))
    .next (reread (s1.count Reg.shardErrCnt_redigestFail new))

end Sys2Proof.Machine
end

