-- ==== Sys2Proof/Machine/TileEvents.lean ====
section
/-! DEFINITION. Tile commands: TILE_DRIVE, S_SLOT_DRIVE, RERUN_COMMIT, RANGE_WINDOW_CLOSE, RANGE_CHANGE
(chapter 3; R98, R99). -/

namespace Sys2Proof.Machine

/-- The re-run claim of a tile at its vector's first drive slot (R98): 16 S slots and a shadow, or denied. -/
def rerunClaim (s : State) (f t q : Nat) (x : Scan) (v : Nat) : State :=
  let outlier := x.els.any (fun e => e.kind == 3 && e.block == (s.sliceMap t).block)
  if !outlier || !hasBit (s.ndesc f x.uidx 0) 22 then s
  else
    let avail := (s.sAvail t q).take 16
    if avail.length < 16 || decide (2 ≤ (s.grid.shadows.filter (fun h => h.field == f)).length) then
      s.count (Reg.rerunDenied f) 1
    else if s.objBad t then failStep s f v 0x0108 1 t []
    else
      let s1 := s.updTile t (fun y => { y with
        res := y.res ++ avail.map (fun a => { slot := a, rerun := true, vec := v, uidx := x.uidx, plane := 0 }) })
      { s1 with grid := { s1.grid with shadows := s1.grid.shadows ++
          [{ field := f, tile := t, vec := v, last := getAt 0 avail 15, lanes := [] }] } }

/-- The claim of the tile that begins to drive a vector in slot `q`, once per vector. -/
def judgeClaim (f q : Nat) (s : State) (t : Nat) : State :=
  match s.entryAt t q with
  | none => s
  | some e =>
    let v := seVec e
    if seOp e ≠ 1 || s.firstDrive t v != some q || !s.live f v || (s.tile t).live.retired then s
    else match s.scan f v with
    | none => s
    | some x =>
      if x.claimed.contains t then s
      else setScan (rerunClaim s f t q x v) f v (some { x with claimed := t :: x.claimed })

/-- Claims of the tiles of a field in slot `q`, judged in ascending local index (R98). -/
def judgeClaims (s : State) (f q : Nat) : State := (fieldTiles f).foldl (judgeClaim f q) s

/-- The drive proper, once its position is live and its planes are in time (R49 to R52). -/
def drivePlane (s : State) (f t q : Nat) (e : Nat) (x : Scan) (err : List Int) : State :=
  let v := seVec e
  let plane := sePlane e + (q - seFirst e)
  let first := s.firstDrive t v == some q
  let s0 := if first then judgeClaims s f q else s
  let s1 := if first && s0.live f v then addLanes s0 f t v (outlierAdds s0 f t x) else s0
  if !s1.live f v then s1
  else match sramFault s1 f v (sePaddr e * 64 + 64 * plane) 64 with
  | some u => u
  | none =>
    let taken := (x.els.filter (fun l => l.block == (s1.sliceMap t).block && (l.kind == 1 || l.kind == 2))).map (fun l => l.row)
    let rows := (planeRows (s1.sram f (sePaddr e * 64 + 64 * plane) 64)).filter (fun i => !taken.contains i)
    if rows.isEmpty then s1.count (Reg.skipCnt t) 1
    else
      let avail := s1.sAvail t q
      let l := fitLevel (splitLevel rows.length (fullRows (s1.rangeOf t))) avail.length
      let base : SRes := { slot := q, vec := v, uidx := seUidx e, plane := plane, level := l, limit := min (l + 2) 4 }
      let s2 := s1.updTile t (fun y => { y with
        res := y.res ++ ((avail.take (2 ^ l - 1)).zipIdx.map (fun (a, j) =>
          { base with slot := a, rows := part rows l (j + 1) })) })
      let p0 := part rows l 0
      if p0.isEmpty then s2 else drivePart s2 f t q { base with rows := p0 } err

/-- A tile drives one bit-plane in its scheduled slot (R41, R156). Without a DRIVE entry for the slot, and
while the die does not fire, nothing happens. -/
def execTileDrive (tile slot : Nat) (err : List Int) (s : State) : Host.Outcome State Fault Refusal :=
  let f := tileField tile
  let q := s.stepSlot f slot
  if !s.firing || decide (8192 ≤ tile) || decide (64 ≤ slot) then .next s
  else match s.entryAt tile q with
  | none => .next s
  | some e =>
    if seOp e ≠ 1 then .next s
    else
      let s0 := s.atSlot slot
      let v := seVec e
      if !s0.live f v then .next s0
      else if !s0.fieldRuns f then .next (fieldDown s0 f v)
      else
        let s1 := genCheck s0 f v (seUidx e)
        if !s1.live f v then .next s1
        else match entryFault s1 f v 3 tile 8 ((s1.slotEntries tile).idxOf e) (seUidx e) with
        | some t => .next t
        | none =>
        if (s1.tile tile).live.retired then
          .next (failStep s1 f v 0x0103 1 tile [])
        else match s1.scan f v with
        | none => .next (lateField s1 f v 1 slot)
        | some x =>
          match x.planes with
          | none => .next (lateField s1 f v 1 slot)
          | some p => if p + 2 ≤ q then .next (drivePlane s1 f tile q e x err) else .next (lateField s1 f v 1 slot)

/-- A tile drives a reserved part or half in an S slot (R51, R52). A slot of a re-run, and a part without
active rows, drive nothing (R50, R99); the parts of a failed position are not driven (R168), nor those of a field that
has been disabled (R59, R354). -/
def execSSlotDrive (tile slot : Nat) (err : List Int) (s : State) : Host.Outcome State Fault Refusal :=
  let f := tileField tile
  let q := s.stepSlot f slot
  if !s.firing || decide (8192 ≤ tile) || decide (64 ≤ slot) then .next s
  else match (s.tile tile).res.find? (fun r => r.slot == q) with
  | none => .next s
  | some r =>
    let s0 := s.atSlot slot
    if !s0.live f r.vec then .next s0
    else if !s0.fieldRuns f then .next (fieldDown s0 f r.vec)
    else if r.rerun then .next s0
    else
      let s1 := s0.updTile tile (fun y => { y with res := y.res.filter (fun a => a.slot != q) })
      if r.rows.isEmpty then .next s1
      else if (s1.tile tile).live.retired then .next (failStep s1 f r.vec 0x0103 1 tile [])
      else
        let s2 := if r.react then s1.count (Reg.splitCnt_reactive tile) 1 else s1.count (Reg.splitCnt_preEmptive tile) 1
        .next (drivePart s2 f tile q r err)

/-- At the last reserved S slot of a re-run the reference contribution, if Nettle has completed it, or the
shadow enters the lanes, and the shadow is freed (R99). For a failed position nothing enters. -/
def execRerunCommit (tile slot : Nat) (refDone : Bool) (s : State) : Host.Outcome State Fault Refusal :=
  let f := tileField tile
  let q := s.stepSlot f slot
  match s.grid.shadows.find? (fun h => h.tile == tile && h.last == q) with
  | none => .next s
  | some h =>
    let s0 := s.atSlot slot
    let s1 := { s0 with grid := { s0.grid with
      shadows := s0.grid.shadows.filter (fun g => !(g.tile == tile && g.vec == h.vec)) } }
    if !s1.live f h.vec then .next s1
    else
      match refDone, s1.scan f h.vec with
      | true, some x =>
        .next ((addLanes s1 f tile h.vec (referenceAdds s1 f (s1.imageAddr s1.activeBase tile) x)).count (Reg.rerunCnt f) 1)
      | _, _ => .next ((addLanes s1 f tile h.vec h.lanes).count (Reg.rerunFallback f) 1)

/-- A window of 2^20 conversions closes: RANGE_WIN shows it and the range loop decides (R47). -/
def execRangeWindowClose (tile : Nat) (s : State) : Host.Outcome State Fault Refusal :=
  let x := s.tile tile
  match x.closed with
  | [] => .next s
  | (sat, near) :: more =>
    let f := tileField tile
    let s1 := (s.setFld (Reg.rangeWin_satW tile) (min 0xFFFF sat)).setFld (Reg.rangeWin_nearW tile) (min 0xFFFF near)
    let target := s1.fld (Reg.rangeLoopCfg_satTarget f)
    let range := s1.rangeOf tile
    let fine := if near ≤ target / 2 then x.fine + 1 else 0
    if s1.fld (Reg.tileCfg_rangeFixed tile) = 1 then .next (s1.updTile tile (fun y => { y with closed := more }))
    else if target < sat ∧ range < s1.fld (Reg.tileCfg_rangeMax tile) then
      .next (s1.updTile tile (fun y => { y with closed := more, fine := 0, rangeNext := some (range + 1, s.beat) }))
    else if max 1 (s1.fld (Reg.rangeLoopCfg_fineWindows f)) ≤ fine ∧ s1.fld (Reg.tileCfg_rangeMin tile) < range then
      .next (s1.updTile tile (fun y => { y with closed := more, fine := 0, rangeNext := some (range - 1, s.beat) }))
    else .next (s1.updTile tile (fun y => { y with closed := more, fine := fine }))

/-- A decided range change takes effect at the first beat boundary after the close (R48). -/
def execRangeChange (tile : Nat) (s : State) : Host.Outcome State Fault Refusal :=
  match (s.tile tile).rangeNext with
  | some (r, b) =>
    if b < s.beat then
      .next ((s.setFld (Reg.tileStatus_rangeCur tile) r).updTile tile (fun y => { y with rangeNext := none }))
    else .next s
  | none => .next s

end Sys2Proof.Machine
end

