-- ==== Sys2Proof/Machine/TimeEvents.lean ====
section
/-! DEFINITION. PTP messages and the lock states (R133 to R140). PTP message kinds are those of IEEE
1588 (0 Sync, 2 Pdelay_Req, 3 Pdelay_Resp; PRESUMED, log entry 15). -/

namespace Sys2Proof.Machine

/-- clockIdentity of a die (R134): B5-A1-FF-FE and the die ID. -/
def clockIdOf (d : Nat) : Nat := 0xB5A1FFFE * 2 ^ 32 + d

/-- The message that port `p` sends: the die's clockIdentity and port number, epoch, state, sequence number, the TLV, and the local
fabric time as origin timestamp (R127, R134 to R136). -/
def State.ptpMsg (s : State) (p seqNo : Nat) : PtpMsg :=
  { domain := s.fld Reg.ddlCfg_domain, sdo := 0, clockId := clockIdOf s.myId, portNo := p + 1, twoStep := false, epoch := s.epoch
    seconds := s.ns / 10 ^ 9, nanos := s.ns % 10 ^ 9, correct := s.frac
    holdLeft := if s.time.state = .holdover then s.fld Reg.holdStat_holdLeft else 0x7FFF
    tstate := s.time.state.code, seqNo := seqNo, offset := (s.ft / 5 : Nat) }

/-- SYNC_SEND: a one-step Sync with the Voxvi TLV on every port that carries time downwards. -/
def execSyncSend (s : State) : Host.Outcome State Fault Refusal :=
  let ports := s.syncPorts
  if ports.isEmpty then .next s
  else
    .next { s with out := s.out ++ ports.map (fun p => Msg.ptp p 0 (s.ptpMsg p (s.time.syncs % 65536))), time := { s.time with syncs := s.time.syncs + 1 } }

/-- A port carries time: a candidate time port or one that Sync is sent on, on a link that carries PTP
(Tables 7.2, 9.3). -/
def State.timePort (s : State) (p : Nat) : Bool :=
  s.ddlOn && s.linkUp p && (s.candidate p || s.syncPorts.contains p)

/-- PDELAY_REQ_SEND on one port. -/
def execPdelayReqSend (port : Nat) (s : State) : Host.Outcome State Fault Refusal :=
  if s.timePort port then
    .next { s with out := s.out ++ [Msg.ptp port 2 (s.ptpMsg port (s.time.pdelays % 65536))], time := { s.time with pdelays := s.time.pdelays + 1 } }
  else .next s

/-- The announcement of port `p` (Table 7.3): arbitrary timescale, currentUtcOffset 0. -/
def State.annMsg (s : State) (p : Nat) : AnnMsg :=
  { clockClass := if s.time.state = .holdover then 14 else 13, seqNo := s.time.announces % 65536, domain := s.fld Reg.ddlCfg_domain
    clockId := clockIdOf s.myId, portNo := p + 1 }

/-- ANNOUNCE_SEND: clockClass 13 while LOCKED or ROOT, 14 while HOLDOVER (Table 7.3). -/
def execAnnounceSend (s : State) : Host.Outcome State Fault Refusal :=
  let ports := s.syncPorts
  if ports.isEmpty then .next s
  else
    .next { s with out := s.out ++ ports.map (fun p => Msg.announce p (s.annMsg p)), time := { s.time with announces := s.time.announces + 1 } }

/-- Discard a PTP message (R133, R135). -/
def ptpDiscard (s : State) : State := s.count Reg.ptpDiscardCnt_discards 1

/-- The message is of a kind of Table 7.3, and its domainNumber and sdoId are the configured ones (R133). -/
def ptpMine (s : State) (m : PtpMsg) : Bool := !m.other && m.domain == s.fld Reg.ddlCfg_domain && m.sdo == 0

/-- The message carries the Voxvi TLV of Table 7.4. -/
def hasVoxvi (m : PtpMsg) : Bool := m.tlv == some (3, 14, 0x0B5A1F, 1)

/-- A Sync comes from a source that R135 accepts: TIME_PARENT, or TIME_ALT with TSTATE 3 while the
parent is silent; in the die's own rack with the obeyed map's epoch. A root with an external
grandmaster takes any clock on P7 (R131). A Sync without the TLV of Table 7.4 comes from no such die (log entry 87). -/
def syncAccepted (s : State) (m : PtpMsg) : Bool :=
  if s.role = 2 then true
  else match s.myEntry with
    | none => false
    | some e =>
      let alt := hasBit e.alt 31 && clockIdOf (bits e.alt 0 18) == m.clockId && m.tstate == 3 && s.time.parent == 0
      let sameRack := decide (m.clockId / 256 = clockIdOf s.myId / 256)
      hasVoxvi m && ((clockIdOf e.parent == m.clockId && e.time != 2) || alt) && (!sameRack || m.epoch == s.epoch)

/-- Offset of a Sync (R136, R138): arrival less origin, less the mean peer delay and the asymmetry of
the port, in units of 2^-16 ns / 5. -/
def syncOffset (s : State) (p : Nat) (m : PtpMsg) : Int :=
  m.offset * 5 - meanOf (getAt [] s.time.delays p) - toSigned 16 (s.fld (Reg.portAsym_asym p)) * 5120

/-- ±20 ns of the current estimate (R139). -/
def consistent (o : Int) : Bool := decide (-6553600 ≤ o) && decide (o ≤ 6553600)

/-- Spread of at most 2 ns over 16 offsets (Table 7.5). -/
def tight (l : List Int) : Bool :=
  l.length == 16 && decide (l.foldl max (l.headD 0) - l.foldl min (l.headD 0) ≤ 655360)

/-- An offset in units of 1/64 ns; a free value where 16 bits do not hold it (Table 7.11). -/
def offsetUnits (s : State) (o : Int) : Nat :=
  if -32768 ≤ o / 5120 ∧ o / 5120 ≤ 32767 then ofSigned 16 (o / 5120) else s.drawn % 65536

/-- The move of a Sync with TSTATE 4, which gives way to a move that an earlier row of Table 7.5 has decided in this
beat. -/
def parentHold (t : Option TimeMove) (left : Nat) : Option TimeMove :=
  match t with
  | some (.switchPort p) => some (.switchPort p)
  | some .holdOwn => some .holdOwn
  | _ => some (.holdParent left)

/-- An accepted offset on the time port, by time state (Table 7.5). -/
def servo (s : State) (m : PtpMsg) (o : Int) : State :=
  let s1 := (s.setFld Reg.phase_lastOffset (offsetUnits s o)).draw
  let t := s1.time
  match t.state with
  | .acquiring =>
    let offs := (o :: t.offs).take 16
    { s1 with time := { t with offs := offs, move := if tight offs && s1.fld Reg.ddlStatus_recovLock == 1 then some .lock else t.move } }
  | .locked =>
    let bad := if consistent o then 0 else t.bad + 1
    let t1 := { t with bad := bad, slew := if consistent o then -o else t.slew }
    if 4 ≤ bad then
      { s1 with time := { t1 with move := match s1.alternate with
          | some p => some (.switchPort p)
          | none => some .holdOwn } }
    else if m.tstate = 4 then { s1 with time := { t1 with move := parentHold t1.move m.holdLeft } }
    else { s1 with time := t1 }
  | .holdover =>
    if consistent o then
      let good := if m.tstate = 2 ∨ m.tstate = 3 then t.good + 1 else 0
      let move := if 4 ≤ good then some TimeMove.relock else t.move
      { s1 with time := { t with good := good, slew := -o, move := move } }
    else { s1 with time := { t with good := 0, move := some .lose } }
  | .root => { s1 with time := { t with slew := -o } }
  | .free => s1
  | .lost => s1

/-- What a Sync on port `p` marks: the port valid, its offset consistent or not, the parent heard, the sender's TSTATE. -/
def syncMarks (s : State) (p : Nat) (m : PtpMsg) : State :=
  let t := s.time
  let isParent := match s.myEntry with
    | some e => clockIdOf e.parent == m.clockId
    | none => false
  { s with time := { t with
    valid := setBit t.valid p
    consist := if consistent (syncOffset s p m) then setBit t.consist p else clrBit t.consist p
    parent := if isParent then setBit t.parent p else t.parent } }.updLnk p (fun l => { l with peerT := m.tstate })

/-- An accepted Sync on port `p`: the port's source is valid, and its TSTATE is what the far end reports (R191); the lowest valid candidate is the time
port while acquiring and in ROOT, and in HOLDOVER once the old one is invalid (DEDUCED, log entry 14). Under PARENT_HOLD each
accepted Sync lowers HOLD_LEFT to its own (R139). -/
def syncTake (s : State) (p : Nat) (m : PtpMsg) : State :=
  let o := syncOffset s p m
  let t := s.time
  let tpDead := !hasBit t.valid (s.fld Reg.ddlStatus_timePort)
  let s1 := syncMarks s p m
  let s2 := match s1.bestPort with
    | some q =>
      if ((t.state == .acquiring || t.state == .root) && q != s.fld Reg.ddlStatus_timePort) || ((t.state == .acquiring || t.state == .holdover) && tpDead)
      then takePort s1 q else s1
    | none => s1
  let s2 := if t.state = .holdover ∧ s2.fld Reg.ddlStatus_parentHold = 1 then
      s2.setFld Reg.holdStat_holdLeft (min (s2.fld Reg.holdStat_holdLeft) m.holdLeft)
    else s2
  let s3 := if p = s2.fld Reg.ddlStatus_timePort then servo s2 m o else s2
  let s4 := if s3.time.state = .root then s3.setFld Reg.ddlStatus_extLost 0 else s3
  showAlt s4

/-- A complete Sync, one-step or with its Follow_Up. -/
def syncDone (s : State) (p : Nat) (m : PtpMsg) : State :=
  if s.candidate p && syncAccepted s m then syncTake s p m else ptpDiscard s

/-- No message kept. -/
def noPtp (_ : Nat) : Option PtpMsg := none

/-- SYNC_RECEIVED: one-step Syncs are judged at once, two-step Syncs wait for their Follow_Up. -/
def execSyncReceived (port : Nat) (msg : PtpMsg) (s : State) : Host.Outcome State Fault Refusal :=
  if !s.ddlOn || !s.linkUp port then .next s
  else if !ptpMine s msg then .next (ptpDiscard s)
  else if msg.twoStep then
    .next { s with time := { s.time with twoStep := sset noPtp s.time.twoStep port (some msg) } }
  else .next (syncDone s port msg)

/-- FOLLOW_UP_RECEIVED: completes the two-step Sync of the same sequence number; any other is
discarded. The completed measurement is the Follow_Up's. -/
def execFollowUpReceived (port : Nat) (msg : PtpMsg) (s : State) : Host.Outcome State Fault Refusal :=
  if !s.ddlOn || !s.linkUp port then .next s
  else if !ptpMine s msg then .next (ptpDiscard s)
  else match sget noPtp s.time.twoStep port with
    | some m =>
      if m.seqNo = msg.seqNo ∧ m.clockId = msg.clockId then
        .next (syncDone { s with time := { s.time with twoStep := sset noPtp s.time.twoStep port none } } port { m with offset := msg.offset })
      else .next (ptpDiscard s)
    | none => .next (ptpDiscard s)

/-- PDELAY_REQ_RECEIVED: answered with a Pdelay_Resp on a port that carries time. -/
def execPdelayReqReceived (port : Nat) (msg : PtpMsg) (s : State) : Host.Outcome State Fault Refusal :=
  if !s.ddlOn || !s.linkUp port then .next s
  else if !ptpMine s msg then .next (ptpDiscard s)
  else if s.timePort port then .next (s.emit (.ptp port 3 (s.ptpMsg port msg.seqNo)))
  else .next s

/-- Take a measured peer delay of a port: the last 16 are kept (R138). -/
def takeDelay (s : State) (p : Nat) (d : Int) : State :=
  { s with time := { s.time with delays := updAt s.time.delays p (fun l => (d * 5 :: l).take 16) } }

/-- PDELAY_RESP_RECEIVED: one-step responses give the delay, two-step ones wait. -/
def execPdelayRespReceived (port : Nat) (msg : PtpMsg) (s : State) : Host.Outcome State Fault Refusal :=
  if !s.ddlOn || !s.linkUp port then .next s
  else if !ptpMine s msg then .next (ptpDiscard s)
  else if msg.twoStep then
    .next { s with time := { s.time with pdResp := sset noPtp s.time.pdResp port (some msg) } }
  else .next (takeDelay s port msg.offset)

/-- PDELAY_RESP_FU_RECEIVED: completes the exchange. -/
def execPdelayRespFuReceived (port : Nat) (msg : PtpMsg) (s : State) : Host.Outcome State Fault Refusal :=
  if !s.ddlOn || !s.linkUp port then .next s
  else if !ptpMine s msg then .next (ptpDiscard s)
  else match sget noPtp s.time.pdResp port with
    | some m =>
      if m.seqNo = msg.seqNo then
        .next (takeDelay { s with time := { s.time with pdResp := sset noPtp s.time.pdResp port none } } port msg.offset)
      else .next (ptpDiscard s)
    | none => .next (ptpDiscard s)

/-- ANNOUNCE_RECEIVED: checked for its domain only (Table 7.3). -/
def execAnnounceReceived (port : Nat) (msg : PtpMsg) (s : State) : Host.Outcome State Fault Refusal :=
  if !s.ddlOn || !s.linkUp port then .next s
  else if ptpMine s msg then .next s else .next (ptpDiscard s)

/-- SYNC_SOURCE_TIMEOUT: 4 Sync intervals without a valid Sync on a port (R139). -/
def execSyncSourceTimeout (port : Nat) (s : State) : Host.Outcome State Fault Refusal :=
  if hasBit s.time.valid port then .next (sourceGone s port) else .next s

/-- ACQUIRE_TIMEOUT: 64 Sync intervals without lock (Table 7.5). -/
def execAcquireTimeout (s : State) : Host.Outcome State Fault Refusal :=
  if s.time.state = .acquiring then .next (s.setFld Reg.ddlStatus_acqSlow 1) else .next s

/-- HOLD_LEFT_EXPIRE: HOLD_LEFT has reached 0 (Table 7.5). -/
def execHoldLeftExpire (s : State) : Host.Outcome State Fault Refusal :=
  if s.time.state = .holdover ∧ s.fld Reg.holdStat_holdLeft = 0 then .next (enterLost s) else .next s

/-- EXT_GM_LOST: the root loses its external grandmaster (R131). -/
def execExtGmLost (s : State) : Host.Outcome State Fault Refusal :=
  if s.time.state = .root ∧ s.fld Reg.ddlCfg_gmSource = 1 then .next (s.setFld Reg.ddlStatus_extLost 1) else .next s

/-! ### Beat exchange (R147 to R149) -/

/-- BEAT_MARKER: a marker from a die partner is acknowledged at once, with what the port measures of its arrival as SKEW; it must
arrive in its own beat, and its FRAMES must agree with the scheduled frames received since the last marker. One that arrives
outside its beat is not missing. -/
def execBeatMarker (link : Nat) (mk : Marker) (s : State) : Host.Outcome State Fault Refusal :=
  if !(s.ddlOn && markerLink link && s.linkUp link) then .next s
  else
    let l := s.lnk link
    let ack : Marker := { beat := mk.beat, tstate := s.time.state.code, frames := l.rcvd, skew := mk.arrival }
    let s1 := s.emit (.marker link true ack)
    let s2 := if mk.frames ≠ l.rcvd then s1.count (Reg.linkBeat_frameMismatch link) 1 else s1
    let s3 := s2.updLnk link (fun l => { l with rcvd := 0, peerT := mk.tstate })
    if mk.beat = s.beat % 2 ^ 32 then
      .next (s3.updLnk link (fun l => { l with markIn := true, offBeat := 0, missed := 0 }))
    else
      let next := mk.beat == (s.beat + 1) % 2 ^ 32
      let s4 := (s3.count (Reg.linkBeat_ackLate link) 1).updLnk link (fun l => { l with
        offBeat := l.offBeat + 1, early := l.early || next, missed := if next then l.missed else l.missed - 1 })
      if 4 ≤ l.offBeat + 1 then .next (beatEvent s4 link mk.beat)
      else .next s4

/-- BEAT_ACK: counts only if it arrives before boundary b + 2; a late one is an event of R149. FRAMES
is compared with what the marker carried. One that no marker waits for changes nothing. -/
def execBeatAck (link : Nat) (mk : Marker) (s : State) : Host.Outcome State Fault Refusal :=
  if !(s.ddlOn && s.exchanges link && s.linkUp link) then .next s
  else
    let l := s.lnk link
    match l.acks.find? (fun b => b % 2 ^ 32 == mk.beat % 2 ^ 32) with
    | none => .next s
    | some b =>
      let s0 := s.updLnk link (fun l => { l with acks := l.acks.filter (fun x => x != b) })
      if b + 2 ≤ s.beat then .next (beatEvent (s0.count (Reg.linkBeat_ackLate link) 1) link mk.beat)
      else
        let sent := if b = s.beat then l.sentPrev else l.sentPrev2
        let s1 := if mk.frames ≠ sent then s0.count (Reg.linkBeat_frameMismatch link) 1 else s0
        .next (s1.updLnk link (fun l => { l with peerT := if markerLink link then mk.tstate else l.peerT }))

/-- BEAT_ACK_TIMEOUT: by the deadline boundary an acknowledgement is missing (why = 0), two consecutive
markers are missing (1), or four consecutive ones arrived outside their beat (2). A marker of beat b is to be acknowledged
before boundary b + 2; missing and late markers have been counted as they came. -/
def execBeatAckTimeout (link why : Nat) (s : State) : Host.Outcome State Fault Refusal :=
  let l := s.lnk link
  if !(s.ddlOn && s.exchanges link && s.linkUp link) then .next s
  else match why with
  | 0 =>
    match l.acks.find? (fun b => decide (b + 2 ≤ s.beat)) with
    | none => .next s
    | some b =>
      .next (beatEvent ((s.updLnk link (fun l => { l with acks := l.acks.filter (fun x => x != b) })).count (Reg.linkBeat_ackLate link) 1) link b)
  | 1 => if markerLink link && decide (2 ≤ l.missed) then .next (beatEvent s link (s.beat - 1)) else .next s
  | _ => if markerLink link && decide (4 ≤ l.offBeat) then .next (beatEvent s link s.beat) else .next s

end Sys2Proof.Machine
end

