-- ==== Sys2Proof/Machine/Dispatch.lean ====
section
/-! DEFINITION. The dispatcher: one arm per command, each one direct call of its meaning. -/

namespace Sys2Proof.Machine

/-- The effect of a command on everything but the queue. -/
def exec (i : Instr) (s : State) : Host.Outcome State Fault Refusal :=
  match i with
  | .echo m => Sys2Proof.Machine.execEcho m s
  | .getInfo m => Sys2Proof.Machine.execGetInfo m s
  | .healthRead m => Sys2Proof.Machine.execHealthRead m s
  | .setDieId m => Sys2Proof.Machine.execSetDieId m s
  | .setRole m => Sys2Proof.Machine.execSetRole m s
  | .timeRoot m => Sys2Proof.Machine.execTimeRoot m s
  | .cfgCommit m => Sys2Proof.Machine.execCfgCommit m s
  | .configure m => Sys2Proof.Machine.execConfigure m s
  | .mapInstall m => Sys2Proof.Machine.execMapInstall m s
  | .mapPublish m => Sys2Proof.Machine.execMapPublish m s
  | .keySlotWrite m => Sys2Proof.Machine.execKeySlotWrite m s
  | .keySlotClear m => Sys2Proof.Machine.execKeySlotClear m s
  | .patchInstall m => Sys2Proof.Machine.execPatchInstall m s
  | .attest m => Sys2Proof.Machine.execAttest m s
  | .identityRead m => Sys2Proof.Machine.execIdentityRead m s
  | .endorseInstall m => Sys2Proof.Machine.execEndorseInstall m s
  | .rejoin m => Sys2Proof.Machine.execRejoin m s
  | .distRead m => Sys2Proof.Machine.execDistRead m s
  | .remoteOp m => Sys2Proof.Machine.execRemoteOp m s
  | .protectSet m => Sys2Proof.Machine.execProtectSet m s
  | .protectClear m => Sys2Proof.Machine.execProtectClear m s
  | .kvRecvOpen m => Sys2Proof.Machine.execKvRecvOpen m s
  | .kvRecvClose m => Sys2Proof.Machine.execKvRecvClose m s
  | .shardFetch m => Sys2Proof.Machine.execShardFetch m s
  | .shardActivate m => Sys2Proof.Machine.execShardActivate m s
  | .shardProgram m => Sys2Proof.Machine.execShardProgram m s
  | .shardRepair m => Sys2Proof.Machine.execShardRepair m s
  | .schedInstall m => Sys2Proof.Machine.execSchedInstall m s
  | .serveStart m => Sys2Proof.Machine.execServeStart m s
  | .drain m => Sys2Proof.Machine.execDrain m s
  | .swapStage m => Sys2Proof.Machine.execSwapStage m s
  | .unitRewrite m => Sys2Proof.Machine.execUnitRewrite m s
  | .commitPrepare m => Sys2Proof.Machine.execCommitPrepare m s
  | .swapAbort m => Sys2Proof.Machine.execSwapAbort m s
  | .adapterLoad m => Sys2Proof.Machine.execAdapterLoad m s
  | .adapterEvict m => Sys2Proof.Machine.execAdapterEvict m s
  | .refRun m => Sys2Proof.Machine.execRefRun m s
  | .seqSubmit m => Sys2Proof.Machine.execSeqSubmit m s
  | .seqCancel m => Sys2Proof.Machine.execSeqCancel m s
  | .seqPause m => Sys2Proof.Machine.execSeqPause m s
  | .seqResume m => Sys2Proof.Machine.execSeqResume m s
  | .seqRead m => Sys2Proof.Machine.execSeqRead m s
  | .seqNotify m => Sys2Proof.Machine.execSeqNotify m s
  | .budgetSet m => Sys2Proof.Machine.execBudgetSet m s
  | .fieldPower m => Sys2Proof.Machine.execFieldPower m s
  | .powerCap m => Sys2Proof.Machine.execPowerCap m s
  | .thermalClear m => Sys2Proof.Machine.execThermalClear m s
  | .domainReset m => Sys2Proof.Machine.execDomainReset m s
  | .faultLogRead m => Sys2Proof.Machine.execFaultLogRead m s
  | .eventLogRead m => Sys2Proof.Machine.execEventLogRead m s
  | .serviceClear m => Sys2Proof.Machine.execServiceClear m s
  | .mbxGo m src => Sys2Proof.Machine.execMbxGo m src s
  | .mbxCmdWrite m off data src => Sys2Proof.Machine.execMbxCmdWrite m off data src s
  | .jobAck m jobNo src => Sys2Proof.Machine.execJobAck m jobNo src s
  | .intMaskWrite v => Sys2Proof.Machine.execIntMaskWrite v s
  | .configWrite off v => Sys2Proof.Machine.execConfigWrite off v s
  | .enableWrite off v => Sys2Proof.Machine.execEnableWrite off v s
  | .disableWrite off v => Sys2Proof.Machine.execDisableWrite off v s
  | .readClear off => Sys2Proof.Machine.execReadClear off s
  | .ftNsLoRead => Sys2Proof.Machine.execFtNsLoRead s
  | .registerWrite off v => Sys2Proof.Machine.execRegisterWrite off v s
  | .u4Rd tag len addr => Sys2Proof.Machine.execU4Rd tag len addr s
  | .u4Wr tag addr data => Sys2Proof.Machine.execU4Wr tag addr data s
  | .intWindowEnd bit => Sys2Proof.Machine.execIntWindowEnd bit s
  | .resetNAssert => Sys2Proof.Machine.execResetNAssert s
  | .resetNRelease qpos => Sys2Proof.Machine.execResetNRelease qpos s
  | .supplyLoss => Sys2Proof.Machine.execSupplyLoss s
  | .romBootDone => Sys2Proof.Machine.execRomBootDone s
  | .wholeDieReset => Sys2Proof.Machine.execWholeDieReset s
  | .housekeepingRound r => Sys2Proof.Machine.execHousekeepingRound r s
  | .sensorFastRead sensor reading => Sys2Proof.Machine.execSensorFastRead sensor reading s
  | .bandChange => Sys2Proof.Machine.execBandChange s
  | .brownout code low => Sys2Proof.Machine.execBrownout code low s
  | .brownoutClear code => Sys2Proof.Machine.execBrownoutClear code s
  | .busOver code => Sys2Proof.Machine.execBusOver code s
  | .timingMonitorLow domain slack => Sys2Proof.Machine.execTimingMonitorLow domain slack s
  | .pmbAlert => Sys2Proof.Machine.execPmbAlert s
  | .aliveSecond => Sys2Proof.Machine.execAliveSecond s
  | .headerCheckpoint => Sys2Proof.Machine.execHeaderCheckpoint s
  | .beatBoundary => Sys2Proof.Machine.execBeatBoundary s
  | .serveBegin => Sys2Proof.Machine.execServeBegin s
  | .drainComplete => Sys2Proof.Machine.execDrainComplete s
  | .tileDrive tile slot err => Sys2Proof.Machine.execTileDrive tile slot err s
  | .sSlotDrive tile slot err => Sys2Proof.Machine.execSSlotDrive tile slot err s
  | .rerunCommit tile slot refDone => Sys2Proof.Machine.execRerunCommit tile slot refDone s
  | .mSlot tile slot work => Sys2Proof.Machine.execMSlot tile slot work s
  | .rangeWindowClose tile => Sys2Proof.Machine.execRangeWindowClose tile s
  | .rangeChange tile => Sys2Proof.Machine.execRangeChange tile s
  | .fieldScan field slot vec => Sys2Proof.Machine.execFieldScan field slot vec s
  | .fieldExponent field slot vec => Sys2Proof.Machine.execFieldExponent field slot vec s
  | .fieldAlign field slot vec => Sys2Proof.Machine.execFieldAlign field slot vec s
  | .fieldOpen field slot vec => Sys2Proof.Machine.execFieldOpen field slot vec s
  | .fieldClose field slot vec => Sys2Proof.Machine.execFieldClose field slot vec s
  | .fieldSelect field slot vec => Sys2Proof.Machine.execFieldSelect field slot vec s
  | .tqWindowClose field nidx => Sys2Proof.Machine.execTqWindowClose field nidx s
  | .tqChange field nidx => Sys2Proof.Machine.execTqChange field nidx s
  | .routerEntry field idx => Sys2Proof.Machine.execRouterEntry field idx s
  | .departure link idx => Sys2Proof.Machine.execDeparture link idx s
  | .schedFrame link slot f => Sys2Proof.Machine.execSchedFrame link slot f s
  | .attWindow w => Sys2Proof.Machine.execAttWindow w s
  | .attGather w => Sys2Proof.Machine.execAttGather w s
  | .beatMarker link mk => Sys2Proof.Machine.execBeatMarker link mk s
  | .beatAck link mk => Sys2Proof.Machine.execBeatAck link mk s
  | .beatAckTimeout link why => Sys2Proof.Machine.execBeatAckTimeout link why s
  | .syncSend => Sys2Proof.Machine.execSyncSend s
  | .pdelayReqSend port => Sys2Proof.Machine.execPdelayReqSend port s
  | .announceSend => Sys2Proof.Machine.execAnnounceSend s
  | .syncReceived port msg => Sys2Proof.Machine.execSyncReceived port msg s
  | .followUpReceived port msg => Sys2Proof.Machine.execFollowUpReceived port msg s
  | .pdelayReqReceived port msg => Sys2Proof.Machine.execPdelayReqReceived port msg s
  | .pdelayRespReceived port msg => Sys2Proof.Machine.execPdelayRespReceived port msg s
  | .pdelayRespFuReceived port msg => Sys2Proof.Machine.execPdelayRespFuReceived port msg s
  | .announceReceived port msg => Sys2Proof.Machine.execAnnounceReceived port msg s
  | .syncSourceTimeout port => Sys2Proof.Machine.execSyncSourceTimeout port s
  | .acquireTimeout => Sys2Proof.Machine.execAcquireTimeout s
  | .holdLeftExpire => Sys2Proof.Machine.execHoldLeftExpire s
  | .extGmLost => Sys2Proof.Machine.execExtGmLost s
  | .helloSend link => Sys2Proof.Machine.execHelloSend link s
  | .hello link h => Sys2Proof.Machine.execHello link h s
  | .helloTimeout link => Sys2Proof.Machine.execHelloTimeout link s
  | .epochWaitTimeout link => Sys2Proof.Machine.execEpochWaitTimeout link s
  | .pcsAligned link good delay => Sys2Proof.Machine.execPcsAligned link good delay s
  | .phyTrainTimeout link => Sys2Proof.Machine.execPhyTrainTimeout link s
  | .downRetry link => Sys2Proof.Machine.execDownRetry link s
  | .laneFail link lane => Sys2Proof.Machine.execLaneFail link lane s
  | .fastRetrainDone link ok good delay => Sys2Proof.Machine.execFastRetrainDone link ok good delay s
  | .ucieRepairFail link => Sys2Proof.Machine.execUcieRepairFail link s
  | .linkAdmit link => Sys2Proof.Machine.execLinkAdmit link s
  | .reqLoad link r => Sys2Proof.Machine.execReqLoad link r s
  | .reqStore link r data => Sys2Proof.Machine.execReqStore link r data s
  | .reqFaa64 link r => Sys2Proof.Machine.execReqFaa64 link r s
  | .reqCas64 link r => Sys2Proof.Machine.execReqCas64 link r s
  | .reqCopy link r => Sys2Proof.Machine.execReqCopy link r s
  | .copyComplete src tag => Sys2Proof.Machine.execCopyComplete src tag s
  | .reqKvx link r => Sys2Proof.Machine.execReqKvx link r s
  | .kvxPartWrite link r data => Sys2Proof.Machine.execKvxPartWrite link r data s
  | .respFrame link r data => Sys2Proof.Machine.execRespFrame link r data s
  | .reqTimeout tag => Sys2Proof.Machine.execReqTimeout tag s
  | .transitFrame link f => Sys2Proof.Machine.execTransitFrame link f s
  | .managerAlive src epoch time => Sys2Proof.Machine.execManagerAlive src epoch time s
  | .managerAliveSend => Sys2Proof.Machine.execManagerAliveSend s
  | .standbyTakeover => Sys2Proof.Machine.execStandbyTakeover s
  | .mapNotice src epoch len addr digest => Sys2Proof.Machine.execMapNotice src epoch len addr digest s
  | .mapNoticeResend => Sys2Proof.Machine.execMapNoticeResend s
  | .mapObey => Sys2Proof.Machine.execMapObey s
  | .takeoverMapReady => Sys2Proof.Machine.execTakeoverMapReady s
  | .mapPublishSigned => Sys2Proof.Machine.execMapPublishSigned s
  | .budgetReq src tenant reqNo units => Sys2Proof.Machine.execBudgetReq src tenant reqNo units s
  | .budgetGrant src tenant reqNo units => Sys2Proof.Machine.execBudgetGrant src tenant reqNo units s
  | .shedReport src sv cause round => Sys2Proof.Machine.execShedReport src sv cause round s
  | .healthReport src payload => Sys2Proof.Machine.execHealthReport src payload s
  | .vectorMapWrite field stepNo => Sys2Proof.Machine.execVectorMapWrite field stepNo s
  | .seqCommit => Sys2Proof.Machine.execSeqCommit s
  | .deadlineExpire idx => Sys2Proof.Machine.execDeadlineExpire idx s
  | .dirBind idx => Sys2Proof.Machine.execDirBind idx s
  | .dirLength idx => Sys2Proof.Machine.execDirLength idx s
  | .dirPark idx => Sys2Proof.Machine.execDirPark idx s
  | .dirRelease idx => Sys2Proof.Machine.execDirRelease idx s
  | .swapCommit => Sys2Proof.Machine.execSwapCommit s
  | .progWaveEnd outs => Sys2Proof.Machine.execProgWaveEnd outs s
  | .progWaveTimeout unfinished => Sys2Proof.Machine.execProgWaveTimeout unfinished s
  | .tileRetirement tile => Sys2Proof.Machine.execTileRetirement tile s
  | .roceReadResponse src off data => Sys2Proof.Machine.execRoceReadResponse src off data s
  | .roceAck src psn => Sys2Proof.Machine.execRoceAck src psn s
  | .roceNak src psn => Sys2Proof.Machine.execRoceNak src psn s
  | .roceTimeout src => Sys2Proof.Machine.execRoceTimeout src s
  | .shardRedigest => Sys2Proof.Machine.execShardRedigest s
  | .patrolScrub side addr result => Sys2Proof.Machine.execPatrolScrub side addr result s
  | .placementWindowClose side counts hot => Sys2Proof.Machine.execPlacementWindowClose side counts hot s
  | .migrationCopyDone side oldFrame => Sys2Proof.Machine.execMigrationCopyDone side oldFrame s
  | .oldFrameReturn side oldFrame => Sys2Proof.Machine.execOldFrameReturn side oldFrame s
  | .trimPeriodExpire tile conv => Sys2Proof.Machine.execTrimPeriodExpire tile conv s
  | .trimTakeoverStart tile conv => Sys2Proof.Machine.execTrimTakeoverStart tile conv s
  | .trimAttempt tile conv gain off sums => Sys2Proof.Machine.execTrimAttempt tile conv gain off sums s
  | .driftAgeTick tile => Sys2Proof.Machine.execDriftAgeTick tile s
  | .refreshPending tile => Sys2Proof.Machine.execRefreshPending tile s
  | .refreshOverdue tile => Sys2Proof.Machine.execRefreshOverdue tile s
  | .sampledCheckStart => Sys2Proof.Machine.execSampledCheckStart s
  | .checkAbandon tile => Sys2Proof.Machine.execCheckAbandon tile s
  | .nettleRefDone tile => Sys2Proof.Machine.execNettleRefDone tile s
  | .tileRecordCheckpoint tile => Sys2Proof.Machine.execTileRecordCheckpoint tile s
  | .speedwellPassEnd => Sys2Proof.Machine.execSpeedwellPassEnd s
  | .domainPowerReady d => Sys2Proof.Machine.execDomainPowerReady d s
  | .domainResetRelease d => Sys2Proof.Machine.execDomainResetRelease d s
  | .coreFatal mem addr => Sys2Proof.Machine.execCoreFatal mem addr s
  | .routerLost field why => Sys2Proof.Machine.execRouterLost field why s
  | .powerOnResetRelease qpos => Sys2Proof.Machine.execPowerOnResetRelease qpos s
  | .testPortAccess op => Sys2Proof.Machine.execTestPortAccess op s
  | .hbmStackTrained side => Sys2Proof.Machine.execHbmStackTrained side s

end Sys2Proof.Machine
end

