-- ==== Sys2Proof/Machine/Idle.lean ====
section
/-! DEFINITION. What the block does when no command waits in its queue: the control core takes the next
mailbox command in the order of R304, or else one cycle of the clock passes (DESIGN CHOICE, log entry 2). -/

namespace Sys2Proof.Machine

/-- The command of an opcode on mailbox `m`; an opcode outside the set goes to ECHO's row, whose common
checks answer it. -/
def cmdOf (op m : Nat) : Instr :=
  match op with
  | 0x0002 => .getInfo m | 0x0003 => .healthRead m
  | 0x0101 => .setDieId m | 0x0102 => .setRole m | 0x0103 => .timeRoot m | 0x0104 => .cfgCommit m
  | 0x0105 => .configure m | 0x0106 => .mapInstall m | 0x0107 => .mapPublish m | 0x0108 => .keySlotWrite m
  | 0x0109 => .keySlotClear m | 0x010A => .patchInstall m | 0x010B => .attest m | 0x010C => .identityRead m
  | 0x010D => .endorseInstall m
  | 0x0201 => .rejoin m | 0x0202 => .distRead m | 0x0203 => .remoteOp m | 0x0204 => .protectSet m
  | 0x0205 => .protectClear m | 0x0206 => .kvRecvOpen m | 0x0207 => .kvRecvClose m
  | 0x0301 => .shardFetch m | 0x0302 => .shardActivate m | 0x0303 => .shardProgram m | 0x0304 => .shardRepair m
  | 0x0305 => .schedInstall m | 0x0306 => .serveStart m | 0x0307 => .drain m | 0x0308 => .swapStage m
  | 0x0309 => .unitRewrite m | 0x030A => .commitPrepare m | 0x030B => .swapAbort m | 0x030C => .adapterLoad m
  | 0x030D => .adapterEvict m | 0x030E => .refRun m
  | 0x0401 => .seqSubmit m | 0x0402 => .seqCancel m | 0x0403 => .seqPause m | 0x0404 => .seqResume m
  | 0x0405 => .seqRead m | 0x0406 => .seqNotify m | 0x0407 => .budgetSet m
  | 0x0501 => .fieldPower m | 0x0502 => .powerCap m | 0x0503 => .thermalClear m | 0x0504 => .domainReset m
  | 0x0505 => .faultLogRead m | 0x0506 => .eventLogRead m | 0x0507 => .serviceClear m
  | _ => .echo m

/-- The mailbox command the core takes when the queue is empty. -/
def coreTakes (s : State) : Option Instr :=
  (nextMailbox s).map (fun m => cmdOf (cmdHdr (s.mb m).cmd).opcode m)

/-- One cycle of the clock, within the beat, and what the links send in it; a remove beat has no cycle 15 (R141). -/
def tick (s : State) : State :=
  let t := s.toCycle (min 5119 (if s.cyc = 14 ∧ s.time.slip < 0 then 16 else s.cyc + 1))
  flushLinks t t.cyc

end Sys2Proof.Machine
end

