-- ==== Sys2Proof/Safety.lean ====
section
/-! DEFINITION. The terms that claims use: the invariant of the machine, what it means that a mailbox command is
accepted, and the commands that write no memory. -/

namespace Sys2Proof.Machine

/-- The invariant of the machine: registers and memory in canonical form, and a cycle of a beat (5,120 cycles). -/
def State.sound (s : State) : Prop := swf regReset s.csr = true ∧ memWf s.mem = true ∧ s.cyc < 5120

/-! ### Mailbox commands -/

/-- The header in the command area of mailbox `m` (R305). -/
def State.hdr (s : State) (m : Nat) : CmdHdr := cmdHdr (s.mb m).cmd

/-- The arguments in the command area of mailbox `m` (R305). -/
def State.args (s : State) (m : Nat) : List Byte := cmdArgs (s.mb m).cmd

/-- A command waits in mailbox `m`, a running core is there to take it, and no mailbox comes before it (R303, R304). -/
def State.waiting (s : State) (m : Nat) : Prop := nextMailbox s = some m

/-- A command with opcode `op` waits in mailbox `m` and passes the checks of Table 14.7 that every command has: header,
opcode, mailbox class, die state, ARG_LEN. -/
def State.accepts (s : State) (m op : Nat) : Prop :=
  s.waiting m ∧ badHeader (s.hdr m) = false ∧ (s.hdr m).opcode = op ∧ commonStatus s m (s.hdr m) = 0 ∧ argLenOk (s.hdr m) = true

/-- The command of mailbox `m` is answered OK with `data`, after its effect has made the state `t` (R306). -/
def State.answer (s : State) (m : Nat) (t : State) (data : List Byte) : State := respond t m (s.hdr m) s.ns 0 0 data

/-- The command of mailbox `m` is answered ACCEPTED with `data`, and its job runs in slot `k` (R306, R307). -/
def State.begun (s : State) (m k : Nat) (data : List Byte) : State :=
  respond (startJob (s.cmdCounted m) m k (s.hdr m) (s.args m)) m (s.hdr m) s.ns 1 (nextJobNo s m k) data

/-- The mailbox and the opcode of a mailbox command (Table 15.1). -/
def mailboxOf : Instr → Option (Nat × Nat)
  | .echo m => some (m, 0x0001) | .getInfo m => some (m, 0x0002) | .healthRead m => some (m, 0x0003)
  | .setDieId m => some (m, 0x0101) | .setRole m => some (m, 0x0102) | .timeRoot m => some (m, 0x0103)
  | .cfgCommit m => some (m, 0x0104) | .configure m => some (m, 0x0105) | .mapInstall m => some (m, 0x0106)
  | .mapPublish m => some (m, 0x0107) | .keySlotWrite m => some (m, 0x0108) | .keySlotClear m => some (m, 0x0109)
  | .patchInstall m => some (m, 0x010A) | .attest m => some (m, 0x010B) | .identityRead m => some (m, 0x010C)
  | .endorseInstall m => some (m, 0x010D)
  | .rejoin m => some (m, 0x0201) | .distRead m => some (m, 0x0202) | .remoteOp m => some (m, 0x0203)
  | .protectSet m => some (m, 0x0204) | .protectClear m => some (m, 0x0205) | .kvRecvOpen m => some (m, 0x0206)
  | .kvRecvClose m => some (m, 0x0207)
  | .shardFetch m => some (m, 0x0301) | .shardActivate m => some (m, 0x0302) | .shardProgram m => some (m, 0x0303)
  | .shardRepair m => some (m, 0x0304) | .schedInstall m => some (m, 0x0305) | .serveStart m => some (m, 0x0306)
  | .drain m => some (m, 0x0307) | .swapStage m => some (m, 0x0308) | .unitRewrite m => some (m, 0x0309)
  | .commitPrepare m => some (m, 0x030A) | .swapAbort m => some (m, 0x030B) | .adapterLoad m => some (m, 0x030C)
  | .adapterEvict m => some (m, 0x030D) | .refRun m => some (m, 0x030E)
  | .seqSubmit m => some (m, 0x0401) | .seqCancel m => some (m, 0x0402) | .seqPause m => some (m, 0x0403)
  | .seqResume m => some (m, 0x0404) | .seqRead m => some (m, 0x0405) | .seqNotify m => some (m, 0x0406)
  | .budgetSet m => some (m, 0x0407)
  | .fieldPower m => some (m, 0x0501) | .powerCap m => some (m, 0x0502) | .thermalClear m => some (m, 0x0503)
  | .domainReset m => some (m, 0x0504) | .faultLogRead m => some (m, 0x0505) | .eventLogRead m => some (m, 0x0506)
  | .serviceClear m => some (m, 0x0507)
  | _ => none

/-! ### Serving and fabric commands -/

/-- A field that runs meets entry `e` for vector `vec` in this slot; `t` is the state of that slot after the generation check
(R157, R237). -/
def State.meets (s : State) (field slot vec e : Nat) (t : State) : Prop :=
  s.firing = true ∧ field < 64 ∧ slot < 64 ∧ (s.atSlot slot).fieldRuns field = true ∧ t = genCheck (s.atSlot slot) field vec (faUidx e)

/-- A field action of kind `act` that the installed table holds (entry `e`) begins in this slot, for a live position, in a
field that runs and whose tables read without error; `t` is the state of that slot after the generation check (R157, R237, R380). -/
def State.acts (s : State) (act field slot vec e : Nat) (t : State) : Prop :=
  s.meets field slot vec e t ∧ s.actionAt field act (s.stepSlot field slot) vec = some e ∧
    (s.atSlot slot).live field vec = true ∧ t.live field vec = true ∧
    entryFault t field vec 4 field 8 ((t.actions field).idxOf e) (faUidx e) = none

/-- A frame of `rest` bytes after its EtherType comes to this die on a link in use, from a die of its half, and is not
discarded for its form or for want of room (R182, R196, R209, R220). -/
def State.receives (s : State) (link : Nat) (x : RxIn) (src dst rest : Nat) : Prop :=
  link < 12 ∧ s.linkUp link = true ∧ dst = s.myId ∧ dieHalf src = dieHalf s.myId ∧ rxDiscard s link x rest false = none

/-- A request of operation `op` with `n` bytes of data on link `link` is this die's to apply: it is received, and every check of
R212, R215, R216 and R219 passes; `y` says whether its route is Y-first. -/
def State.takesReq (s : State) (link op : Nat) (r : ReqHdr) (n : Nat) (y : Bool) : Prop :=
  let a := fabLocal r.addr
  s.receives link r.rx r.src r.dst (64 + n) ∧ r.op = op ∧ fabDie r.addr = s.myId ∧
    s.fld Reg.fabCfg_en = 1 ∧ badReq op a r.len r.opnd1 = false ∧ region a < 2 ∧ lateApply s r.src op r.issueBeat = false ∧
    (op ≠ 1 → s.protHit (List.range 16) a (opLen op r.len) = false) ∧ s.rangePresent a (opLen op r.len) = true ∧
    s.reach (linkField link) a = some y ∧ s.ueIn a (opLen op r.len) = false ∧ s.uePartial a (opLen op r.len) = false

/-! ### Frames -/

/-- The commands that may write the memory (HBM and the fields' SRAM); no other command does. -/
def writesMemory : Instr → Bool
  | .attest .. | .distRead .. | .shardProgram .. | .drain .. | .unitRewrite .. | .commitPrepare ..
  | .swapAbort .. | .seqSubmit .. | .seqCancel .. | .seqPause .. | .seqResume .. | .fieldPower ..
  | .faultLogRead .. | .eventLogRead .. | .u4Wr .. | .resetNAssert | .resetNRelease .. | .supplyLoss
  | .wholeDieReset | .beatBoundary | .mSlot .. | .fieldAlign .. | .fieldClose .. | .fieldSelect ..
  | .routerEntry .. | .attWindow .. | .attGather .. | .reqLoad .. | .reqStore .. | .reqFaa64 .. | .reqCas64 ..
  | .reqCopy .. | .copyComplete .. | .reqKvx .. | .kvxPartWrite .. | .respFrame .. | .reqTimeout ..
  | .mapNotice .. | .takeoverMapReady | .mapPublishSigned | .healthReport .. | .vectorMapWrite .. | .seqCommit
  | .deadlineExpire .. | .dirBind .. | .dirLength .. | .dirPark .. | .dirRelease .. | .swapCommit
  | .progWaveEnd .. | .progWaveTimeout .. | .roceReadResponse .. | .migrationCopyDone .. | .nettleRefDone ..
  | .speedwellPassEnd | .domainPowerReady .. | .domainResetRelease .. | .powerOnResetRelease .. | .housekeepingRound .. => true
  | _ => false

end Sys2Proof.Machine
end

