-- ==== Sys2Proof/Certificates/Slice0/Obligations.lean ====
section
/-! DEFINITION. Statements for the provers: what a step is, what every step keeps, and for each command what it does
where it completes. The spec's rules are cited as R<n>. -/

section
open Sys2Proof Sys2Proof.Machine

/-! ### The step, the invariant, the frames of every command -/

/-- A step takes the command at the front of the queue and runs it on the state with the queue's rest. -/
def Obligations.StepRunsFrontCommand : Prop :=
  ∀ (c : Instr) (rest : List Instr) (s : State), step { s with pending := c :: rest } = exec c { s with pending := rest }

/-- On an empty queue the block runs the mailbox command that the control core takes, or else one cycle of the clock passes
(the model's choice, log entry 2). The core takes MBX0 first, then MBX7, then MBX1 to MBX6 round-robin from the mailbox after
the last one it served (R304). -/
def Obligations.EmptyQueueServesMailboxOrTicks : Prop :=
  (∀ s : State, s.pending = [] →
    (∀ c : Instr, coreTakes s = some c → step s = exec c s) ∧ (coreTakes s = none → step s = .next (tick s))) ∧
  (∀ (s : State) (m : Nat), nextMailbox s = some m ↔
    s.coreUp = true ∧ s.dieState ≠ .off ∧ s.dieState ≠ .romBoot ∧ (s.mb m).state = .running ∧
      (m = 0 ∨ (s.mb 0).state ≠ .running ∧ (m = 7 ∨ (s.mb 7).state ≠ .running ∧ 1 ≤ m ∧ m ≤ 6 ∧
        ∀ k, 1 ≤ k → k ≤ 6 → (s.mb k).state = .running → (m + 5 - s.rr % 6) % 6 ≤ (k + 5 - s.rr % 6) % 6)))

/-- The state after reset has the invariant. -/
def Obligations.ResetIsSound : Prop := State.reset.sound

/-- Every step from a state with the invariant ends in a state with the invariant: the registers and the memory stay
canonical, and the clock stays inside its beat of 5,120 cycles. -/
def Obligations.EveryStepKeepsSound : Prop := ∀ s t : State, s.sound → step s = .next t → t.sound

/-- No command changes the queue, and the fuses change at the test port alone (R402, R419): no register, mailbox or fabric
command, no reset and no boot writes any of them. -/
def Obligations.QueueKeptAndFusesChangeOnlyAtTestPort : Prop :=
  ∀ (c : Instr) (s t : State), s.sound → exec c s = .next t →
    t.pending = s.pending ∧ ((∀ op, c ≠ .testPortAccess op) → t.sec.fuses = s.sec.fuses)

/-- A command outside the list `writesMemory` leaves every byte of HBM and SRAM as it was. -/
def Obligations.OtherCommandsKeepMemory : Prop :=
  ∀ (c : Instr) (s t : State), writesMemory c = false → exec c s = .next t → ∀ a, rdByte t.mem a = rdByte s.mem a

/-- A write of a register field by hardware changes that field alone: the field reads the value cut to its width, the other
bits of its register and every other register read as before, and so do memory, clock, time, mailboxes and links. -/
def Obligations.RegisterFieldWriteFrame : Prop :=
  ∀ (s : State) (x : Fld) (v : Nat), s.sound → x.lo + x.n ≤ 32 →
    (s.setFld x v).fld x = v % 2 ^ x.n ∧
    (∀ p, p ≠ x.reg → (s.setFld x v).word p = s.word p) ∧
    (∀ y : Fld, y.reg = x.reg → y.lo + y.n ≤ 32 → (y.lo + y.n ≤ x.lo ∨ x.lo + x.n ≤ y.lo) → (s.setFld x v).fld y = s.fld y) ∧
    (s.setFld x v).mem = s.mem ∧ (s.setFld x v).mbx = s.mbx ∧ (s.setFld x v).time = s.time ∧ (s.setFld x v).links = s.links ∧
    (s.setFld x v).beat = s.beat ∧ (s.setFld x v).cyc = s.cyc ∧ (s.setFld x v).out = s.out

/-- A counter stops at its all-ones value (Table 0.5, R59). -/
def Obligations.CountersStopAtAllOnes : Prop :=
  ∀ (s : State) (x : Fld) (k : Nat), s.sound → x.lo + x.n ≤ 32 →
    (s.count x k).fld x = min (2 ^ x.n - 1) (s.fld x + k) ∧ (∀ p, p ≠ x.reg → (s.count x k).word p = s.word p)

/-! ### Mailboxes: refusals that every command shares -/

/-- A mailbox command that fails a check which every command has is answered with the status of Table 14.7: BAD_STATE
outside its die states, WRONG_MAILBOX outside its class (R301, R306, R311). It counts as taken and has no other effect. -/
def Obligations.CommonRefusalsHaveNoSideEffect : Prop :=
  ∀ (c : Instr) (m op : Nat) (s : State), mailboxOf c = some (m, op) → s.waiting m → badHeader (s.hdr m) = false →
    (s.hdr m).opcode = op → commonStatus s m (s.hdr m) ≠ 0 →
    exec c s = .next (respond (s.cmdCounted m) m (s.hdr m) s.ns (commonStatus s m (s.hdr m)) 0 [])

/-- A mailbox that is not RUNNING or not the one to be served next (R304), a stopped core and a die in OFF or ROM_BOOT take no
command: nothing changes. -/
def Obligations.NothingIsTakenWithoutCommandOrCore : Prop :=
  ∀ (c : Instr) (m op : Nat) (s : State), mailboxOf c = some (m, op) →
    (s.coreUp = false ∨ s.dieState = .off ∨ s.dieState = .romBoot ∨ (s.mb m).state ≠ .running ∨ nextMailbox s ≠ some m) → exec c s = .next s

/-- A response (R303, R306): the mailbox becomes RESPONDED; bytes 0 to 23 of the response area are the header of Table 14.6,
then come the data; the memory, the other mailboxes and the time stay. -/
def Obligations.ResponseLayout : Prop :=
  ∀ (s : State) (m acc st jobNo : Nat) (h : CmdHdr) (data : List Byte), m < s.mbx.length → data.length ≤ 232 → st < 256 → jobNo < 65536 →
    let t := respond s m h acc st jobNo data
    (t.mb m).state = .responded ∧ ((t.mb m).resp).length = 256 ∧
    fieldAt (t.mb m).resp 0 2 = h.opcode % 65536 ∧ fieldAt (t.mb m).resp 2 1 = st ∧ fieldAt (t.mb m).resp 8 2 = data.length ∧
    fieldAt (t.mb m).resp 10 2 = jobNo ∧ slice (t.mb m).resp 24 data.length = data ∧
    (∀ n, n ≠ m → t.mb n = s.mb n) ∧ t.mem = s.mem ∧ t.time = s.time ∧ t.beat = s.beat ∧ t.cyc = s.cyc

/-! ### Mailboxes: commands that complete -/

/-- ECHO, GET_INFO, HEALTH_READ, SEQ_READ and IDENTITY_READ answer OK with their data and change nothing else. FAULT_LOG_READ, EVENT_LOG_READ and DIST_READ: with LOG_BUF 0 the records follow the head in the response, otherwise they
are written at LOG_BUF; the distance table is written at its buffer before the response. -/
def Obligations.ReadCommandsComplete : Prop :=
  (∀ (s : State) (m : Nat),
      (s.accepts m 0x0001 → exec (.echo m) s = .next (s.answer m (s.cmdCounted m) (s.args m))) ∧
      (s.accepts m 0x0002 → exec (.getInfo m) s = .next (s.answer m (s.cmdCounted m) (infoBytes (s.cmdCounted m)))) ∧
      (s.accepts m 0x0003 → exec (.healthRead m) s = .next (s.answer m (s.cmdCounted m) (healthBytes (s.cmdCounted m)))) ∧
      (s.accepts m 0x0405 → fieldAt (s.args m) 0 2 ≤ 16383 → fieldAt (s.args m) 2 2 = 0 →
        exec (.seqRead m) s = .next (s.answer m (s.cmdCounted m) (seqBytes (s.cmdCounted m) (fieldAt (s.args m) 0 2)))) ∧
      (s.accepts m 0x010C →
        exec (.identityRead m) s = .next (s.answer m (s.cmdCounted m) ((s.cmdCounted m).idPub ++ leBytes 4 (s.cmdCounted m).dieIdWord)))) ∧
  (∀ (s : State) (m : Nat),
      (s.accepts m 0x0505 → fieldAt (s.args m) 10 6 = 0 → fieldAt (s.args m) 8 1 ≤ 31 → 1 ≤ fieldAt (s.args m) 9 1 →
        let head := leBytes 1 s.faults.length ++ leBytes 3 0 ++ leBytes 4 (s.fld Reg.faultTotal_total)
        let recs := logBytes (s.faults.map FaultRec.bytes) (fieldAt (s.args m) 8 1) (fieldAt (s.args m) 9 1)
        (fieldAt (s.args m) 0 8 = 0 → fieldAt (s.args m) 9 1 ≤ 3 →
          exec (.faultLogRead m) s = .next (s.answer m (s.cmdCounted m) (head ++ recs))) ∧
        (fieldAt (s.args m) 0 8 ≠ 0 → fieldAt (s.args m) 9 1 ≤ 32 → wbufOk s (fieldAt (s.args m) 0 8) (64 * fieldAt (s.args m) 9 1) = true →
          exec (.faultLogRead m) s = .next (s.answer m ((s.cmdCounted m).write (fieldAt (s.args m) 0 8) recs) head))) ∧
      (s.accepts m 0x0506 → fieldAt (s.args m) 12 4 = 0 → fieldAt (s.args m) 8 2 ≤ 1023 → 1 ≤ fieldAt (s.args m) 10 2 →
        let head := leBytes 2 s.ev.records.length ++ leBytes 6 0
        let recs := logBytes (s.ev.records.map EvRec.bytes) (fieldAt (s.args m) 8 2) (fieldAt (s.args m) 10 2)
        (fieldAt (s.args m) 0 8 = 0 → fieldAt (s.args m) 10 2 ≤ 3 →
          exec (.eventLogRead m) s = .next (s.answer m (s.cmdCounted m) (head ++ recs))) ∧
        (fieldAt (s.args m) 0 8 ≠ 0 → fieldAt (s.args m) 10 2 ≤ 1024 → wbufOk s (fieldAt (s.args m) 0 8) (64 * fieldAt (s.args m) 10 2) = true →
          exec (.eventLogRead m) s = .next (s.answer m ((s.cmdCounted m).write (fieldAt (s.args m) 0 8) recs) head))) ∧
      (s.accepts m 0x0202 → wbufOk s (fieldAt (s.args m) 0 8) 10384 = true →
        exec (.distRead m) s =
          .next (s.answer m ((s.cmdCounted m).write (fieldAt (s.args m) 0 8) (distTable (s.cmdCounted m))) (leBytes 4 s.grid.change))))

/-- SET_DIE_ID (R10, R319): a valid die ID whose bits [1:0] are the strapped position is assigned; an invalid one is answered
0x40 and one of another position 0x41, and the die keeps its ID and its state. -/
def Obligations.SetDieIdAssignsOrRefuses : Prop :=
  ∀ (s : State) (m : Nat), s.accepts m 0x0101 →
    let d := fieldAt (s.args m) 0 4
    (2 ^ 18 ≤ d → exec (.setDieId m) s = .next (respond (s.cmdCounted m) m (s.hdr m) s.ns 0x06 0 [])) ∧
    (dieValid d = true → d % 4 = s.qpos →
      exec (.setDieId m) s = .next (s.answer m { s.cmdCounted m with sec := { s.sec with dieId := some d } } [])) ∧
    (d < 2 ^ 18 → dieValid d = false → ∃ t, exec (.setDieId m) s = .next t ∧ t = respond (s.cmdCounted m) m (s.hdr m) s.ns 0x40 0 [] ∧
      t.dieState = .identified ∧ t.sec.dieId = s.sec.dieId) ∧
    (dieValid d = true → d % 4 ≠ s.qpos → ∃ t, exec (.setDieId m) s = .next t ∧
      t = respond (s.cmdCounted m) m (s.hdr m) s.ns 0x41 0 [] ∧ t.dieState = .identified ∧ t.sec.dieId = s.sec.dieId)

/-- SET_ROLE, TIME_ROOT and CONFIGURE where they are accepted (R17, R319, R320): the role, the start time of a root, and the
state CONFIGURED. Commands whose effect is a setting, most of which waits for a beat boundary or a round: KEY_SLOT_WRITE, KEY_SLOT_CLEAR,
PROTECT_SET, PROTECT_CLEAR, KV_RECV_CLOSE, ADAPTER_EVICT, POWER_CAP, BUDGET_SET (R322, R327, R328, R335, R340, R342). -/
def Obligations.SettingCommandsComplete : Prop :=
  (∀ (s : State) (m : Nat),
      (s.accepts m 0x0102 → fieldAt (s.args m) 0 1 ≤ 2 → fieldAt (s.args m) 1 3 = 0 → (fieldAt (s.args m) 0 1 = 0 ∨ s.sec.fuses.roleMgr = true) →
        exec (.setRole m) s = .next (s.answer m (takePosition (((s.cmdCounted m).setFld Reg.secRole_role (fieldAt (s.args m) 0 1)).setFld
          Reg.secRole_manager (b2n (fieldAt (s.args m) 0 1 != 0)))) [])) ∧
      (s.accepts m 0x0103 → s.time.state = .free →
        exec (.timeRoot m) s = .next (s.answer m { s.cmdCounted m with sec := { s.sec with startNs := fieldAt (s.args m) 0 8 } } [])) ∧
      (s.accepts m 0x0105 → missing s = 0 → exec (.configure m) s = .next (s.answer m (enterState (s.cmdCounted m) .configured) []))) ∧
  (∀ (s : State) (m : Nat),
      (s.accepts m 0x0108 → kwSlot (s.args m) ≤ 4095 → fieldAt (s.args m) 2 2 = 0 → kwTenant (s.args m) < 2 ^ 20 → kwKeyId (s.args m) ≠ 0 →
        ∀ k, unwrapKey s (s.args m) = some k → (∀ o, s.keySlot (kwSlot (s.args m)) = some o → o.tenant = kwTenant (s.args m)) →
        exec (.keySlotWrite m) s = .next (s.answer m (keyLater (s.cmdCounted m) (kwSlot (s.args m)) (some k)) [])) ∧
      (s.accepts m 0x0109 → fieldAt (s.args m) 0 2 ≤ 4095 → fieldAt (s.args m) 2 2 = 0 →
        exec (.keySlotClear m) s = .next (s.answer m (keyLater (s.cmdCounted m) (fieldAt (s.args m) 0 2) none) [])) ∧
      (s.accepts m 0x0204 → protectArgs (s.args m) s = false → protectClash (s.args m) s = none →
        exec (.protectSet m) s = .next (s.answer m
          (protLater (s.cmdCounted m) (fieldAt (s.args m) 0 1) (some (fieldAt (s.args m) 8 8, fieldAt (s.args m) 16 8))) [])) ∧
      (s.accepts m 0x0205 → fieldAt (s.args m) 1 3 = 0 → 2 ≤ fieldAt (s.args m) 0 1 → fieldAt (s.args m) 0 1 ≤ 15 →
        exec (.protectClear m) s = .next (s.answer m (protLater (s.cmdCounted m) (fieldAt (s.args m) 0 1) none) [])) ∧
      (s.accepts m 0x0207 → fieldAt (s.args m) 1 3 = 0 → fieldAt (s.args m) 0 1 ≤ 15 →
        exec (.kvRecvClose m) s = .next (s.answer m { s.cmdCounted m with fab := { s.fab with recv := s.fab.recv.map (fun r =>
          if r.handle == fieldAt (s.args m) 0 1 then { r with closing := true } else r) } } [])) ∧
      (s.accepts m 0x030D → fieldAt (s.args m) 0 2 ≠ 0 → fieldAt (s.args m) 2 2 = 0 → (s.adapter (fieldAt (s.args m) 0 2)).isSome = true →
        exec (.adapterEvict m) s = .next (s.answer m { s.cmdCounted m with grid := { s.grid with adapters := s.grid.adapters.map (fun x =>
          if x.handle == fieldAt (s.args m) 0 2 then { x with evict := true } else x) } } [])) ∧
      (s.accepts m 0x0502 → 100 ≤ fieldAt (s.args m) 0 4 → fieldAt (s.args m) 0 4 ≤ 780 →
        exec (.powerCap m) s = .next (s.answer m { s.cmdCounted m with pow := { s.pow with capNext := some (fieldAt (s.args m) 0 4) } } [])) ∧
      (s.accepts m 0x0407 → bsTenant (s.args m) < 2 ^ 20 → bsBurst (s.args m) ≤ 2 ^ 40 → budgetRefused (s.args m) s = none →
        exec (.budgetSet m) s = .next (s.answer m (setTenant (s.args m) (s.cmdCounted m)) [])))

/-- BUDGET_SET gives the tenant its rate and burst and caps the level at the new burst; every other tenant is kept (R340). A manager grants at most what was asked for and what the tenant's level holds, and the level falls by the grant (R289). -/
def Obligations.BudgetsStayBounded : Prop :=
  (∀ (a : List Byte) (s : State), (bsRate a ≠ 0 ∨ bsBurst a ≠ 0) →
      (∃ t ∈ (setTenant a s).seqs.tenants, t.tenant = bsTenant a) ∧
      (∀ t ∈ (setTenant a s).seqs.tenants, t.tenant = bsTenant a →
        t.rate = bsRate a ∧ t.burst = bsBurst a ∧ t.level ≤ bsBurst a * 10 ^ 9) ∧
      (∀ t, t.tenant ≠ bsTenant a → (t ∈ (setTenant a s).seqs.tenants ↔ t ∈ s.seqs.tenants))) ∧
  (∀ (s : State) (src k no units : Nat) (x : TenantRate), s.seqs.tenants.find? (fun x => x.tenant == k) = some x →
      (x.settle s.ns).answered.find? (fun e => e.1 == src && e.2.1 == no) = none →
      let r := answerBudget s src k no units
      r.2 ≤ units ∧ r.2 * 10 ^ 9 ≤ (x.settle s.ns).level ∧
      (∀ y ∈ r.1.seqs.tenants, y.tenant = k → y.level = (x.settle s.ns).level - r.2 * 10 ^ 9) ∧
      (∀ y, y.tenant ≠ k → (y ∈ r.1.seqs.tenants ↔ y ∈ s.seqs.tenants)))

/-- A job command (R307): the response is ACCEPTED with the job number of the lowest FREE slot, and the job runs there with
the command's opcode and tag. -/
def Obligations.JobStartsInLowestFreeSlot : Prop :=
  ∀ (s : State) (m k : Nat) (data : List Byte), m < 8 → s.mbx.length = 8 → (s.mb m).jobs.length = 8 → freeSlot s m = some k → data.length ≤ 232 →
    let t := s.begun m k data
    (s.job m k).state = .free ∧ (∀ j, j < k → (s.job m j).state ≠ .free) ∧
    (t.job m k).state = .running ∧ (t.job m k).jobNo = nextJobNo s m k ∧ (t.job m k).opcode = (s.hdr m).opcode ∧ (t.job m k).tag = (s.hdr m).tag ∧
    (∀ n j, (n ≠ m ∨ j ≠ k) → t.job n j = s.job n j) ∧ (t.mb m).state = .responded

/-- REJOIN moves TIME_STATE from LOST to ACQUIRING, and leaves any other time state unchanged (R324). -/
def Obligations.RejoinMovesLostToAcquiring : Prop :=
  ∀ (s : State) (m k : Nat), s.accepts m 0x0201 → freeSlot s m = some k →
    (s.time.state = .lost → ∃ t, exec (.rejoin m) s = .next t ∧ t.time.state = .acquiring ∧ t = enterAcquiring (s.begun m k [])) ∧
    (s.time.state ≠ .lost → exec (.rejoin m) s = .next (s.begun m k []) ∧ (s.begun m k []).time = s.time)

/-- Boot and configuration jobs where they are accepted: CFG_COMMIT takes its snapshot, and MAP_INSTALL, MAP_PUBLISH,
PATCH_INSTALL, ENDORSE_INSTALL and ATTEST begin their work (R320, R321, R323, R357, R410, R412, R417). Fabric jobs and KV_RECV_OPEN where they are accepted (R326, R328): REMOTE_OP issues its request, and the opened range is
answered with its handle and address. -/
def Obligations.BootAndFabricCommandsComplete : Prop :=
  (∀ (s : State) (m k : Nat), freeSlot s m = some k →
      (s.accepts m 0x0104 → exec (.cfgCommit m) s =
        .next ((snapshot (s.begun m k [])).updJob m k (fun j => { j with args := leBytes 16 s.clk ++ leBytes 8 s.spw.writes }))) ∧
      (s.accepts m 0x0106 → mapArgs (s.args m) = false → bufOk s (mapBuf (s.args m)) (mapLen (s.args m)) = true →
        exec (.mapInstall m) s = .next (installMap m (s.args m) k (s.begun m k []))) ∧
      (s.accepts m 0x0107 → mapArgs (s.args m) = false → wbufOk s (mapBuf (s.args m)) (mapLen (s.args m) + sigLen) = true → s.mayPublish = true →
        exec (.mapPublish m) s = .next (publishMap m (s.args m) k (s.begun m k []))) ∧
      (s.accepts m 0x010A → 64 ≤ fieldAt (s.args m) 8 4 → fieldAt (s.args m) 8 4 ≤ 262144 → fieldAt (s.args m) 12 4 = 0 →
        bufOk s (fieldAt (s.args m) 0 8) (fieldAt (s.args m) 8 4) = true →
        exec (.patchInstall m) s = .next (installPatch m (s.args m) k (s.begun m k []))) ∧
      (s.accepts m 0x010B → wbufOk s (fieldAt (s.args m) 32 8) 24576 = true →
        exec (.attest m) s = .next (jobDone (((s.begun m k []).write (fieldAt (s.args m) 32 8)
          (reportBytes (s.begun m k []) ((s.args m).take 32))).count Reg.secCnt_attestCnt 1) m k 0 (leBytes 4 17600))) ∧
      (s.accepts m 0x010D → bufOk s (fieldAt (s.args m) 0 8) endorseLen = true → wbufOk s (fieldAt (s.args m) 8 8) 262144 = true →
        s.fld Reg.secRole_manager = 1 → exec (.endorseInstall m) s = .next (installEndorse m (s.args m) k (s.begun m k [])))) ∧
  (∀ (s : State) (m k : Nat),
      (s.accepts m 0x0203 → freeSlot s m = some k → remoteArgs (s.args m) s = false →
        exec (.remoteOp m) s = .next (remoteStart m (s.args m) k (s.begun m k []))) ∧
      (s.accepts m 0x0206 → openArgs (s.args m) s = false → openRefused (s.args m) s = none →
        exec (.kvRecvOpen m) s = .next (s.answer m (openRange (s.args m) (s.cmdCounted m)).1 (openRange (s.args m) (s.cmdCounted m)).2)))

/-- A patch bundle is written only after it has been verified: one that fails leaves the patch store unchanged and its job
ends SIG_INVALID (R323). -/
def Obligations.BadPatchLeavesStoreUnchanged : Prop :=
  ∀ (s : State) (m k : Nat) (a : List Byte), s.ueIn (fieldAt a 0 8) (fieldAt a 8 4) = false →
    let b := s.read (fieldAt a 0 8) (fieldAt a 8 4)
    (bundleCheck s b ≠ .ok → (installPatch m a k s).sec.patchStore = s.sec.patchStore ∧
      installPatch m a k s = sigInvalid s (bundleCheck s b) m k) ∧
    (bundleCheck s b = .ok → (installPatch m a k s).sec.patchStore = b)

/-- Shard, install, adapter and reference-run commands where they are accepted (R228, R236, R330, R331, R335, R336). Serving and model swap where the commands are accepted (R239, R332 to R334): SERVE_START names the beat, DRAIN enters
DRAINING, and the swap state moves through STAGED, REWRITE, READY and ABORT. -/
def Obligations.ShardAndSwapCommandsComplete : Prop :=
  (∀ (s : State) (m k : Nat), freeSlot s m = some k →
      (s.accepts m 0x0301 → s.swapState = 0 → fetchArgs (s.args m) s = false → s.shard.fetch = none → s.ueIn (sfBuf (s.args m)) (64 * sfCount (s.args m)) = false →
        exec (.shardFetch m) s = .next (startFetch (s.begun m k []) (m, k)
          (srcsOf (s.read (sfBuf (s.args m)) (64 * sfCount (s.args m))) (sfCount (s.args m))))) ∧
      (s.accepts m 0x0304 → fetchArgs (s.args m) s = false → s.shard.fetch = none → s.ueIn (sfBuf (s.args m)) (64 * sfCount (s.args m)) = false →
        exec (.shardRepair m) s = .next (startRepair (s.begun m k []) (some (m, k))
          (srcsOf (s.read (sfBuf (s.args m)) (64 * sfCount (s.args m))) (sfCount (s.args m))))) ∧
      (s.accepts m 0x0302 → s.fld Reg.shardStatus_stageValid = 1 →
        exec (.shardActivate m) s = .next (s.answer m (activate (s.cmdCounted m)) (leBytes 4 (activate (s.cmdCounted m)).modelGen))) ∧
      (s.accepts m 0x0303 → fieldAt (s.args m) 0 1 ≤ 1 → fieldAt (s.args m) 1 3 = 0 → s.fld Reg.shardStatus_activeValid = 1 →
        exec (.shardProgram m) s = .next (addProg (s.begun m k []) { why := .shard, job := some (m, k) })) ∧
      (s.accepts m 0x0305 → s.swapState = 0 → siVocab (s.args m) ≠ 0 → siVocab (s.args m) ≤ 2 ^ 31 → bufOk s (siBuf (s.args m)) 64 = true →
        s.fld Reg.shardStatus_activeValid = 1 → exec (.schedInstall m) s = .next (runInstall (s.begun m k []) m k)) ∧
      (s.accepts m 0x030C → 64 ≤ alLen (s.args m) → alLen (s.args m) ≤ 0x4000000 → alHandle (s.args m) ≠ 0 → fieldAt (s.args m) 14 2 = 0 →
        alTenant (s.args m) < 2 ^ 20 → bufOk s (alBuf (s.args m)) (alLen (s.args m)) = true →
        (∀ x ∈ s.grid.adapters, x.handle ≠ alHandle (s.args m)) →
        exec (.adapterLoad m) s = .next (loadAdapter m (s.args m) k (s.begun m k []))) ∧
      (s.accepts m 0x030E → refArgs (s.args m) s = false → s.fld Reg.shardStatus_activeValid = 1 → s.usable (fieldAt (s.args m) 0 2) = true →
        s.objBad (fieldAt (s.args m) 0 2) = false → exec (.refRun m) s = .next (refStart m (s.args m) k (s.begun m k [])))) ∧
  (∀ (s : State) (m k : Nat), freeSlot s m = some k →
      (s.accepts m 0x0306 → beatArg (s.args m) < 2 ^ 53 → s.beat + 64 ≤ beatArg (s.args m) → beatArg (s.args m) ≤ s.beat + 2 ^ 24 →
        (s.time.state = .locked ∨ s.time.state = .root) →
        exec (.serveStart m) s = .next (s.answer m { s.cmdCounted m with sched := { s.sched with startAt := some (beatArg (s.args m)) } } [])) ∧
      (s.accepts m 0x0307 → fieldAt (s.args m) 0 1 ≤ 1 → fieldAt (s.args m) 1 3 = 0 →
        exec (.drain m) s = .next (drainStart m (s.args m) k (s.begun m k []))) ∧
      (s.accepts m 0x0308 → s.swapState = 0 → s.fld Reg.shardStatus_stageValid ≠ 0 → swapFits s = true →
        exec (.swapStage m) s = .next (s.answer m { ((s.cmdCounted m).setFld Reg.shardStatus_swapState 1).setFld Reg.modelGenNext_gen (s.shardGen s.stageBase) with
          shard := { s.shard with rewritten := [], unitNext := none } } (leBytes 4 (s.shardGen s.stageBase)))) ∧
      (s.accepts m 0x0309 → (s.swapState = 1 ∨ s.swapState = 3) → s.tileUnits.contains (fieldAt (s.args m) 0 4) = true →
        s.unitGen (fieldAt (s.args m) 0 4) ≠ s.fld Reg.modelGenNext_gen →
        let t := ((s.begun m k []).setFld Reg.shardStatus_swapState 2).setFld Reg.swapUnit_unitId (fieldAt (s.args m) 0 4)
        exec (.unitRewrite m) s = .next (addProg { t with shard := { t.shard with unitNext := some (fieldAt (s.args m) 0 4, t.beat) } }
          { why := .rewrite, job := some (m, k) })) ∧
      (s.accepts m 0x030A → s.swapState = 3 → beatArg (s.args m) < 2 ^ 53 → (∀ u ∈ s.tileUnits, s.unitGen u ≠ s.modelGen) → s.beat + 64 ≤ beatArg (s.args m) →
        let t := loadGood ((s.begun m k []).setFld Reg.shardStatus_swapState 4) (s.begun m k []).stageBase (fun _ => true)
        exec (.commitPrepare m) s = .next { t with shard := { t.shard with commitAt := some (beatArg (s.args m), some (m, k)) } }) ∧
      (s.accepts m 0x030B → 1 ≤ s.swapState → s.swapState ≤ 3 → exec (.swapAbort m) s = .next (abortStart m k (s.begun m k []))))

/-- Sequence commands where they are accepted (R273, R285, R286, R292, R338, R339): a submit is admitted, a cancel ends the
sequence with cause 2, a pause and a resume move it, a notify waits. -/
def Obligations.SequenceCommandsComplete : Prop :=
  ∀ (s : State) (m k : Nat), freeSlot s m = some k →
    (s.accepts m 0x0401 → submitArgs (s.args m) s = false → submitRefused (s.args m) s = none →
      exec (.seqSubmit m) s = .next (submit m (s.args m) k (s.begun m k (submitData (s.args m) (s.cmdCounted m))))) ∧
    (s.accepts m 0x0402 → fieldAt (s.args m) 6 2 = 0 → seqRefused (s.args m) s = none →
      exec (.seqCancel m) s = .next (s.answer m (pumpAll (endSeq (s.cmdCounted m) (sqIdx (s.args m)) 2)) [])) ∧
    (s.accepts m 0x0403 → fieldAt (s.args m) 6 1 ≤ 1 → fieldAt (s.args m) 7 1 = 0 → seqRefused (s.args m) s = none →
      let t := pauseCheck ((s.cmdCounted m).updSeq (sqIdx (s.args m)) (fun e => { e with pHost := true })) (sqIdx (s.args m))
      exec (.seqPause m) s = .next (s.answer m
        (pumpAll (if fieldAt (s.args m) 6 1 = 1 ∧ (t.seq (sqIdx (s.args m))).park = false then parkSeq t (sqIdx (s.args m)) else t)) [])) ∧
    (s.accepts m 0x0404 → fieldAt (s.args m) 6 2 = 0 → seqRefused (s.args m) s = none →
      let e := s.seq (sqIdx (s.args m))
      let t := (s.cmdCounted m).updSeq (sqIdx (s.args m)) (fun e => { e with pHost := false })
      (e.pHost = false → exec (.seqResume m) s = .next (s.answer m (s.cmdCounted m) [])) ∧
      (e.pHost = true → exec (.seqResume m) s = .next (s.answer m
        (pumpAll (resumeCheck (if e.pCap then t else unparkSeq t (sqIdx (s.args m))) (sqIdx (s.args m)))) []))) ∧
    (s.accepts m 0x0406 → (∀ j ∈ s.jobsOf 0x0406, j.1 ≠ m) → exec (.seqNotify m) s = .next (s.begun m k []))

/-- Power and service commands where they are accepted (R341, R343, R345, R371, R372, R391, R394). THERMAL_CLEAR clears the
latch and records it, SERVICE_CLEAR clears the out-of-service mark, and both ask for a reset of the whole die, as does
DOMAIN_RESET of the whole die. -/
def Obligations.PowerAndServiceCommandsComplete : Prop :=
  ∀ (s : State) (m k : Nat),
    (s.accepts m 0x0501 → freeSlot s m = some k → fieldPowerArgs (s.args m) s = false → fieldBusy (s.args m) s = none →
      exec (.fieldPower m) s = .next (fieldPowerStart m (s.args m) k (s.begun m k []))) ∧
    (s.accepts m 0x0503 → s.tempNow < 340 →
      exec (.thermalClear m) s = .next (s.answer m (askReset (writeEvent
        (writeHeader (s.cmdCounted m) (fun h => { h with latch := false })) 0x04 (leBytes 8 s.shutdownNs)) 3) [])) ∧
    (s.accepts m 0x0504 → fieldAt (s.args m) 2 2 = 0 → (∀ r ∈ s.domResets, r.domain ≠ drDomain (s.args m)) →
      (drDomain (s.args m) = 0xFF → exec (.domainReset m) s = .next (s.answer m (askReset (s.cmdCounted m) 2) [])) ∧
      (drDomain (s.args m) ≠ 0xFF → domainCode (drDomain (s.args m)) = true → s.retiredDom (drDomain (s.args m)) = false → freeSlot s m = some k →
        exec (.domainReset m) s = .next (domainResetStart m (s.args m) k (s.begun m k [])))) ∧
    (s.accepts m 0x0507 → fieldAt (s.args m) 0 4 = 0x5356434C →
      exec (.serviceClear m) s = .next (s.answer m (askReset (writeHeader (writeEvent (s.cmdCounted m) 0x06 [])
        (fun h => { h with oos := false, at0 := 0, at1 := 0, at0v := false, at1v := false })) 4) []))


/-! ### Host accesses -/

/-- A host write of a register (CONFIG_WRITE, ENABLE_WRITE, DISABLE_WRITE, REGISTER_WRITE, INT_MASK_WRITE) reaches its
register; MBX7's page is flagged, a reserved offset is a bus error, and a die in OFF answers nothing (R302, R348). INT_MASK takes bits [13:8] and [6:0] of the written value (R308). -/
def Obligations.HostWritesReachTheRegister : Prop :=
  (∀ (s : State) (off : Nat) (v : Word),
      (s.dieState ≠ .off → exec (.intMaskWrite v) s = .next (writeReg s 0x10018 v)) ∧
      ∀ c ∈ [Instr.configWrite off v, .enableWrite off v, .disableWrite off v, .registerWrite off v],
        (s.dieState ≠ .off → isMbx7 off = false → off % 4 = 0 → csrReserved off = false → exec c s = .next (csrWrite1 s off v none)) ∧
        (s.dieState ≠ .off → isMbx7 off = true → exec c s = .next (hostDenied s)) ∧
        (s.dieState ≠ .off → isMbx7 off = false → (off % 4 ≠ 0 ∨ csrReserved off = true) →
          exec c s = .next (busError s (csrBase + off) true 0)) ∧
        (s.dieState = .off → exec c s = .next s)) ∧
  (∀ (s : State) (v : Word), s.sound → s.dieState ≠ .off →
      ∃ t, exec (.intMaskWrite v) s = .next t ∧ t.word 0x10018 = (s.word 0x10018 &&& ~~~0x3F7F#32) ||| (v &&& 0x3F7F#32) ∧
        ∀ p, p ≠ 0x10018 → t.word p = s.word p)

/-- A write of a register without configuration fields and enable bits: RW and RWS fields take the written bits, W1C fields
clear where a 1 is written, every other bit and every other register keeps its value (R6, Table 0.5). -/
def Obligations.RegisterWriteFollowsAccessCodes : Prop :=
  ∀ (s : State) (off : Nat) (v : Word) (r : RegSpec), s.sound → regSpec off = some r → r.cfgMask = 0 → r.maskOf [.en] = 0 →
    s.gatedAt off = false →
    (writeReg s off v).word off =
      mergeBits (s.word off) v (r.maskOf [.rw, .rws]) &&& ~~~(v &&& BitVec.ofNat 32 (r.maskOf [.w1c])) ∧
    (∀ p, p ≠ off → (writeReg s off v).word p = s.word p)

/-- A configuration write to an enabled block changes no configuration: the register keeps its value and WR_BLOCKED is set
(R352). A 1 written to a clear enable bit is accepted only while Speedwell's reference is valid, the last pass matched and no
configuration write has been accepted since it began; a refused one leaves the bit 0 and sets EN_REFUSED (R353). -/
def Obligations.SpeedwellLocksAndGates : Prop :=
  (∀ (s : State) (off mask : Nat) (v : Word), s.sound → s.blockEn (off / 0x10000) = true → 0x30000 ≤ off →
      mergeBits (s.cfgWord off) v mask ≠ s.cfgWord off →
      (writeCfg s off mask v).word off = s.word off ∧ (writeCfg s off mask v).fld Reg.spwStatus_wrBlocked = 1 ∧
      (writeCfg s off mask v).gated = s.gated) ∧
  (∀ (s : State) (off b : Nat), s.sound → s.blockEn b = false →
      (s.fld Reg.spwStatus_refValid = 0 ∨ s.fld Reg.spwStatus_match = 0 ∨ s.fld Reg.spwStatus_clean = 0) →
      let t := writeEnable s off b 1
      t.blockEn b = false ∧ t.fld Reg.spwStatus_enRefused = 1 ∧
        t.fld Reg.cfgEventCnt_enRefused = min (2 ^ Reg.cfgEventCnt_enRefused.n - 1) (s.fld Reg.cfgEventCnt_enRefused + 1))

/-- READ_CLEAR and FT_NS_LO_READ give the reader the value before the read; FT_NS_LO latches FT_NS_HI and FT_FRAC of the
same time (R6, R150). -/
def Obligations.ReadsDeliverTheValue : Prop :=
  ∀ s : State, s.dieState ≠ .off →
    (∀ off, off % 4 = 0 → csrReserved off = false →
      exec (.readClear off) s = .next ((csrReadEffects s off).emit (.regRead off (csrWord s off)))) ∧
    (s.sound → ∃ t, exec .ftNsLoRead s = .next t ∧ t.out = s.out ++ [.regRead 0x30008 (BitVec.ofNat 32 s.ns)] ∧
      t.word Reg.ftNsHi_nsHi.reg = BitVec.ofNat 32 (s.ns / 2 ^ 32) ∧ t.word Reg.ftFrac_frac.reg = BitVec.ofNat 32 s.frac)

/-- MBX_GO, MBX_CMD_WRITE and JOB_ACK complete for the host on MBX0 to MBX6 and for the obeyed manager on MBX7 (R302, R303, R307, R310): GO
submits a mailbox that is not RUNNING and clears its response area; a RUNNING mailbox is flagged instead and keeps its
command; the acknowledgement frees the DONE job it names; no other mailbox and nothing else changes. INT_WINDOW_END (R308): a
cause noted in the window is sent if the bit is still set, and opens a new window; without one the window closes; no
window, no effect. -/
def Obligations.MailboxPagesAndInterruptWindows : Prop :=
  (∀ (s : State) (m : Nat) (src : Option Nat), s.dieState ≠ .off →
      ((src = none ∧ m ≠ 7) ∨ (m = 7 ∧ src.isSome = true ∧ src = s.manager)) →
      exec (.mbxGo m src) s = .next (s.updMb m (fun b =>
        if b.state = .running then b.flagged else { b with state := .running, resp := List.replicate 256 0, submitter := src })) ∧
      (∀ (off : Nat) (d : List Byte), d.length = 4 → exec (.mbxCmdWrite m off d src) s = .next (s.updMb m (fun b =>
        if b.state = .running then b.flagged else { b with cmd := patchAt b.cmd off d }))) ∧
      (∀ (off : Nat) (d : List Byte), exec (.mbxCmdWrite m off d src) s = .next (cmdWords s m off d (d.length / 4))) ∧
      (∀ n, exec (.jobAck m n src) s = .next (s.updMb m (fun b => { b with jobs := b.jobs.map (fun j =>
        if j.state = .done ∧ j.jobNo = n then { state := .free, gen := j.gen } else j) })))) ∧
  (∀ (s : State) (m off : Nat) (d : List Byte) (g : Mailbox → Mailbox), m < s.mbx.length →
      (s.updMb m g).mb m = g (s.mb m) ∧ (∀ n, n ≠ m → (s.updMb m g).mb n = s.mb n) ∧
      s.updMb m g = { s with mbx := (s.updMb m g).mbx } ∧
      (∀ k, (∀ n, n ≠ m → (cmdWords s m off d k).mb n = s.mb n) ∧ cmdWords s m off d k = { s with mbx := (cmdWords s m off d k).mbx })) ∧
  (∀ (s : State) (b : Nat),
      (s.intWin.find? (fun e => e.1 == b) = some (b, true) → s.fld (intBit b) = 1 →
        exec (.intWindowEnd b) s = .next { s with
          out := s.out ++ [intMsg s b], intWin := s.intWin.filter (fun x => x.1 != b) ++ [(b, false)] }) ∧
      (∀ k, s.intWin.find? (fun e => e.1 == b) = some (b, k) → (k = false ∨ s.fld (intBit b) ≠ 1) →
        exec (.intWindowEnd b) s = .next { s with intWin := s.intWin.filter (fun x => x.1 != b) }) ∧
      (s.intWin.find? (fun e => e.1 == b) = none → exec (.intWindowEnd b) s = .next s))

/-- U4 accesses complete (R25, R309): a legal read of present memory in reach answers its bytes, a legal write stores them, and
CSR space is read and written register by register over the route to the control core. -/
def Obligations.U4AccessesComplete : Prop :=
  ∀ (s : State) (tag addr : Nat), s.dieState ≠ .off →
    (∀ len t, u4Fault addr len false = none → region addr ≠ 2 → s.rangePresent addr len = true → meshTo s hostField addr = some t →
      s.ueIn addr len = false → exec (.u4Rd tag len addr) s = .next (rdResp t tag 0 addr (s.read addr len))) ∧
    (∀ len t, u4Fault addr len false = none → region addr = 2 → crossMesh s hostField coreField = some t →
      exec (.u4Rd tag len addr) s =
        .next (rdResp (csrRead t (csrOff addr) (len / 4)).1 tag 0 addr (csrRead t (csrOff addr) (len / 4)).2)) ∧
    (∀ (d : List Byte) t, u4Fault addr d.length true = none → region addr ≠ 2 → s.protHit [0, 1] addr d.length = false →
      s.rangePresent addr d.length = true → meshTo s hostField addr = some t → s.uePartial addr d.length = false →
      exec (.u4Wr tag addr d) s = .next (wrResp (t.write addr d) tag 0 addr)) ∧
    (∀ (d : List Byte) t, u4Fault addr d.length true = none → region addr = 2 → isMbx7 (csrOff addr) = false →
      crossMesh s hostField coreField = some t →
      exec (.u4Wr tag addr d) s = .next (wrResp (csrWriteAll t (csrOff addr) d none (d.length / 4)) tag 0 addr)) ∧
    (∀ t, (meshTo s hostField addr = some t ∨ crossMesh s hostField coreField = some t) →
      t = s ∨ t = s.setFld (Reg.routerStat_altUsed hostField) 1)

/-- What the host wrote it reads again, and every other byte reads as before: a U4_WR that is answered OK, then a U4_RD of the
same bytes (R309). -/
def Obligations.U4ReadAfterWrite : Prop :=
  ∀ (s : State) (tag tag' addr : Nat) (d : List Byte), s.sound → s.dieState ≠ .off → u4Fault addr d.length true = none →
    u4Fault addr d.length false = none → region addr ≠ 2 → s.protHit [0, 1] addr d.length = false →
    s.rangePresent addr d.length = true → (s.reach 56 addr).isSome = true → s.ueIn addr d.length = false →
    s.uePartial addr d.length = false →
    ∃ t u, exec (.u4Wr tag addr d) s = .next t ∧ exec (.u4Rd tag' d.length addr) t = .next u ∧
      u.out = t.out ++ [.u4 0x81 0 tag' d.length addr d] ∧
      (∀ a, (a < addr ∨ addr + d.length ≤ a) → rdByte t.mem a = rdByte s.mem a)

/-! ### Time -/

/-- SYNC_SEND, PDELAY_REQ_SEND and ANNOUNCE_SEND: one message on every port that carries it, with the next sequence number, the
port's identity and the time in seconds, nanoseconds and fraction (R127, R134 to R136, Table 7.3). PTP messages that arrive on a port in
service (R133, R135, R138): one of another domain or kind is discarded; a one-step message is taken at once, a two-step
one waits for its Follow_Up; Pdelay_Req is answered on a port that carries time; Announce changes nothing. -/
def Obligations.PtpMessagesAreSentAndTaken : Prop :=
  (∀ s : State,
      (s.syncPorts ≠ [] → exec .syncSend s = .next { s with
        out := s.out ++ s.syncPorts.map (fun p => .ptp p 0 (s.ptpMsg p (s.time.syncs % 65536))), time := { s.time with syncs := s.time.syncs + 1 } }) ∧
      (s.syncPorts ≠ [] → exec .announceSend s = .next { s with
        out := s.out ++ s.syncPorts.map (fun p => .announce p (s.annMsg p)), time := { s.time with announces := s.time.announces + 1 } }) ∧
      (s.syncPorts = [] → exec .syncSend s = .next s ∧ exec .announceSend s = .next s) ∧
      (∀ p, s.timePort p = true → exec (.pdelayReqSend p) s = .next { s with
        out := s.out ++ [.ptp p 2 (s.ptpMsg p (s.time.pdelays % 65536))], time := { s.time with pdelays := s.time.pdelays + 1 } }) ∧
      (∀ p n, let m := s.ptpMsg p n
        m.seqNo = n ∧ m.clockId = 0xB5A1FFFE * 2 ^ 32 + s.myId ∧ m.portNo = p + 1 ∧ m.seconds = s.ns / 10 ^ 9 ∧ m.nanos = s.ns % 10 ^ 9 ∧
        m.correct = s.frac ∧ m.epoch = s.epoch ∧ m.tstate = s.time.state.code ∧ hasVoxvi m = true) ∧
      (∀ p, let m := s.annMsg p
        m.seqNo = s.time.announces % 65536 ∧ m.clockClass = (if s.time.state = .holdover then 14 else 13) ∧
        m.clockId = 0xB5A1FFFE * 2 ^ 32 + s.myId ∧ m.portNo = p + 1)) ∧
  (∀ (s : State) (p : Nat) (m : PtpMsg), s.ddlOn = true → s.linkUp p = true →
      (ptpMine s m = false → ∀ c ∈ [Instr.syncReceived p m, .followUpReceived p m, .pdelayReqReceived p m, .pdelayRespReceived p m,
        .pdelayRespFuReceived p m, .announceReceived p m], exec c s = .next (ptpDiscard s)) ∧
      (ptpMine s m = true →
        exec (.announceReceived p m) s = .next s ∧
        (s.timePort p = true → exec (.pdelayReqReceived p m) s = .next (s.emit (.ptp p 3 (s.ptpMsg p m.seqNo)))) ∧
        (s.timePort p = false → exec (.pdelayReqReceived p m) s = .next s) ∧
        (m.twoStep = false → s.candidate p = true → syncAccepted s m = true → exec (.syncReceived p m) s = .next (syncTake s p m)) ∧
        (m.twoStep = false → (s.candidate p = false ∨ syncAccepted s m = false) → exec (.syncReceived p m) s = .next (ptpDiscard s)) ∧
        (m.twoStep = true → exec (.syncReceived p m) s = .next { s with time := { s.time with twoStep := sset noPtp s.time.twoStep p (some m) } } ∧
          sget noPtp (sset noPtp s.time.twoStep p (some m)) p = some m) ∧
        (∀ k, sget noPtp s.time.twoStep p = some k → k.seqNo = m.seqNo → k.clockId = m.clockId →
          exec (.followUpReceived p m) s = .next (syncDone { s with time := { s.time with twoStep := sset noPtp s.time.twoStep p none } } p
            { k with offset := m.offset })) ∧
        (m.twoStep = false → exec (.pdelayRespReceived p m) s = .next (takeDelay s p m.offset)) ∧
        (m.twoStep = true → exec (.pdelayRespReceived p m) s =
          .next { s with time := { s.time with pdResp := sset noPtp s.time.pdResp p (some m) } }) ∧
        (∀ k, sget noPtp s.time.pdResp p = some k → k.seqNo = m.seqNo →
          exec (.pdelayRespFuReceived p m) s =
            .next (takeDelay { s with time := { s.time with pdResp := sset noPtp s.time.pdResp p none } } p m.offset))))

/-- SYNC_SOURCE_TIMEOUT, ACQUIRE_TIMEOUT, HOLD_LEFT_EXPIRE and EXT_GM_LOST (R131, R139, R140, Table 7.5). -/
def Obligations.TimeTimeoutsComplete : Prop :=
  ∀ s : State,
    (∀ p, hasBit s.time.valid p = true → exec (.syncSourceTimeout p) s = .next (sourceGone s p) ∧
      (sourceGone s p).time.valid = clrBit s.time.valid p ∧ (sourceGone s p).time.state = s.time.state ∧
      (p = s.fld Reg.ddlStatus_timePort → s.time.state = .locked → (sourceGone s p).time.move ≠ none)) ∧
    (s.time.state = .acquiring → exec .acquireTimeout s = .next (s.setFld Reg.ddlStatus_acqSlow 1)) ∧
    (s.time.state = .holdover → s.fld Reg.holdStat_holdLeft = 0 → exec .holdLeftExpire s = .next (enterLost s) ∧
      (s.sound → (enterLost s).time.state = .lost ∧ ((joinedPlus s.dieState = true ∨ s.dieState = .holdover) → (enterLost s).dieState = .outOfStep))) ∧
    (s.time.state = .root → s.fld Reg.ddlCfg_gmSource = 1 → exec .extGmLost s = .next (s.setFld Reg.ddlStatus_extLost 1))

/-- BEAT_MARKER, BEAT_ACK and BEAT_ACK_TIMEOUT (R147 to R149): a marker is acknowledged at once with its own beat, the frames
received and the measured arrival; one that arrives in its beat clears the counts of late and missing ones, the fourth late one
in a row is an event of R149; an acknowledgement that misses boundary b + 2 is one as well; one that no marker waits for
changes nothing. -/
def Obligations.BeatExchangeCompletes : Prop :=
  ∀ (s : State) (n : Nat) (mk : Marker), s.ddlOn = true → s.linkUp n = true →
    (markerLink n = true →
      let l := s.lnk n
      let a := s.emit (.marker n true { beat := mk.beat, tstate := s.time.state.code, frames := l.rcvd, skew := mk.arrival })
      let b := (if mk.frames ≠ l.rcvd then a.count (Reg.linkBeat_frameMismatch n) 1 else a).updLnk n (fun l => { l with rcvd := 0, peerT := mk.tstate })
      let next := mk.beat == (s.beat + 1) % 2 ^ 32
      let late := (b.count (Reg.linkBeat_ackLate n) 1).updLnk n (fun l => { l with
        offBeat := l.offBeat + 1, early := l.early || next, missed := if next then l.missed else l.missed - 1 })
      (mk.beat = s.beat % 2 ^ 32 → exec (.beatMarker n mk) s =
        .next (b.updLnk n (fun l => { l with markIn := true, offBeat := 0, missed := 0 }))) ∧
      (mk.beat ≠ s.beat % 2 ^ 32 → l.offBeat < 3 → exec (.beatMarker n mk) s = .next late) ∧
      (mk.beat ≠ s.beat % 2 ^ 32 → 3 ≤ l.offBeat → exec (.beatMarker n mk) s = .next (beatEvent late n mk.beat))) ∧
    (s.exchanges n = true →
      ((∀ b ∈ (s.lnk n).acks, b % 2 ^ 32 ≠ mk.beat % 2 ^ 32) → exec (.beatAck n mk) s = .next s) ∧
      ∀ b, (s.lnk n).acks.find? (fun b => b % 2 ^ 32 == mk.beat % 2 ^ 32) = some b →
        let t := s.updLnk n (fun l => { l with acks := l.acks.filter (fun x => x != b) })
        let sent := if b = s.beat then (s.lnk n).sentPrev else (s.lnk n).sentPrev2
        (b + 2 ≤ s.beat → exec (.beatAck n mk) s = .next (beatEvent (t.count (Reg.linkBeat_ackLate n) 1) n mk.beat)) ∧
        (s.beat < b + 2 → exec (.beatAck n mk) s =
          .next ((if mk.frames ≠ sent then t.count (Reg.linkBeat_frameMismatch n) 1 else t).updLnk n (fun l =>
            { l with peerT := if markerLink n then mk.tstate else l.peerT })))) ∧
    (s.exchanges n = true →
      (∀ b, (s.lnk n).acks.find? (fun b => decide (b + 2 ≤ s.beat)) = some b → exec (.beatAckTimeout n 0) s =
        .next (beatEvent ((s.updLnk n (fun l => { l with acks := l.acks.filter (fun x => x != b) })).count (Reg.linkBeat_ackLate n) 1) n b)) ∧
      ((∀ b ∈ (s.lnk n).acks, s.beat < b + 2) → exec (.beatAckTimeout n 0) s = .next s) ∧
      (markerLink n = true → 2 ≤ (s.lnk n).missed → exec (.beatAckTimeout n 1) s = .next (beatEvent s n (s.beat - 1))) ∧
      (markerLink n = true → 4 ≤ (s.lnk n).offBeat → exec (.beatAckTimeout n 2) s = .next (beatEvent s n s.beat)))

/-- Frame of the time commands: beside registers, links, time, sent messages and the free-value counter (log entry 31)
everything keeps its value. -/
def Obligations.TimeCommandsFrame : Prop :=
  ∀ (s t : State) (p w : Nat) (m : PtpMsg) (mk : Marker),
    ∀ c ∈ [Instr.syncSend, .pdelayReqSend p, .announceSend, .syncReceived p m, .followUpReceived p m, .pdelayReqReceived p m,
      .pdelayRespReceived p m, .pdelayRespFuReceived p m, .announceReceived p m, .syncSourceTimeout p, .acquireTimeout, .extGmLost,
      .beatMarker p mk, .beatAck p mk, .beatAckTimeout p w],
    exec c s = .next t → t = { s with csr := t.csr, links := t.links, time := t.time, out := t.out, free := t.free }

/-! ### Links -/

/-- Training events (R176, R180, R182 to R184, Table 9.4; that an OPEN link goes from RETRAIN to PROBATION is the model's
reading, log entry 55). Where two rows meet in one beat the first row of the table wins, whichever event came first (R183): `u` is the
state without a later row of this beat. The identity exchange (R185 to R191): a HELLO of 72 bytes goes out in IDENTIFY,
QUARANTINE and PROBATION; a link in those states or in service counts a HELLO of another kind or with reserved bits and takes
nothing from it; a HELLO in IDENTIFY is judged; a link that meets R191 is admitted. -/
def Obligations.LinkEventsComplete : Prop :=
  (∀ (s : State) (n : Nat),
      (∀ good delay, let u := rowState s n 2 (fun x => x == .phyTrain)
        (u.lnk n).state = .phyTrain → exec (.pcsAligned n good delay) s = .next (aligned u n good delay) ∧
          ((takeLanes u n good delay).2 = true → aligned u n good delay =
            rowTook u n 2 (setLink (takeLanes u n good delay).1 n (if n = 12 then .inService else if u.isOpen n then .probation else .identify))) ∧
          ((takeLanes u n good delay).2 = false → aligned u n good delay = rowTook u n 18 (setLink (takeLanes u n good delay).1 n .down))) ∧
      ((s.lnk n).state = .phyTrain → exec (.phyTrainTimeout n) s = .next (rowTook s n 3 (setLink (s.count (Reg.trainCnt_trainFail n) 1) n .down))) ∧
      ((s.lnk n).state = .down → exec (.downRetry n) s = .next (startTraining s n)) ∧
      (∀ lane, laneFailState (s.lnk n).state = true → n < 8 → lane < 4 → exec (.laneFail n lane) s =
        .next (retrainLink (((s.setFld (Reg.linkStatus_failedLanes n) (setBit (s.fld (Reg.linkStatus_failedLanes n)) lane)).updLnk n
          (fun l => { l with berBad := setAt l.berBad lane 0 })).setFld (Reg.laneStat_failed n lane) 1) n)) ∧
      (∀ good delay, let u := rowState s n 15 (fun x => x == .retrain)
        (u.lnk n).state = .retrain →
          ((takeLanes u n good delay).2 = true → exec (.fastRetrainDone n true good delay) s = .next (rowTook u n 15
            (setLink ((takeLanes u n good delay).1.count (Reg.trainCnt_retrainCnt n) 1) n (if u.isOpen n then .probation else .identify)))) ∧
          ((takeLanes u n good delay).2 = false → exec (.fastRetrainDone n true good delay) s =
            .next (rowTook u n 18 (setLink (takeLanes u n good delay).1 n .down)))) ∧
      (∀ good delay, (s.lnk n).state = .retrain → exec (.fastRetrainDone n false good delay) s = .next (rowTook s n 16 (startTraining s n))) ∧
      (8 ≤ n → (laneFailState (s.lnk n).state = true ∨ (s.lnk n).state = .retrain) → exec (.ucieRepairFail n) s = .next (startTraining s n)) ∧
      (∀ r ok, (s.lnk n).before = none → rowState s n r ok = s) ∧
      (∀ r ok k st w, n < s.links.length → (s.lnk n).before = some (k, st, w) → r < k → ok st = true → ((rowState s n r ok).lnk n).state = st)) ∧
  (∀ (s : State) (n : Nat),
      (((s.lnk n).state = .identify ∨ (s.lnk n).state = .quarantine ∨ (s.lnk n).state = .probation) → s.isOpen n = false →
        exec (.helloSend n) s = .next (s.emit (.hello n (helloBytes (s.helloOf n)))) ∧ (helloBytes (s.helloOf n)).length = 72) ∧
      (∀ b : List Byte, (laneFailState (s.lnk n).state = true) → ((readHello b).kind ≠ 0x10 ∨ (readHello b).resvBits = true) →
        exec (.hello n b) s = .next (s.count (Reg.trainCnt_helloBad n) 1)) ∧
      (∀ b : List Byte, laneFailState (s.lnk n).state = true → (readHello b).kind = 0x10 → (readHello b).resvBits = false →
        let h := readHello b
        let u := rowState s n (helloRow s n h) (fun x => x == .identify)
        ((u.lnk n).state = .identify → exec (.hello n b) s = .next (helloIdentify u n h)) ∧
        ((u.lnk n).state = .probation → exec (.hello n b) s = .next (u.updLnk n (fun l => { l with peer := some h, peerT := h.tstate })))) ∧
      ((s.lnk n).state = .identify → s.sec.map.isSome = true → s.isOpen n = false →
        exec (.helloTimeout n) s = .next (rowTook s n 10 (quarantine s n 8 none))) ∧
      (∀ h, (s.lnk n).peer = some h → (s.lnk n).state = .identify → s.sec.map.isSome = true → helloCheck s n h = 3 →
        exec (.epochWaitTimeout n) s = .next (rowTook s n 8 (quarantine s n 3 (some h)))) ∧
      (admissible s n = true → exec (.linkAdmit n) s = .next (setLink (s.setFld (Reg.linkBeat_outOfStep n) 0) n .inService)))

/-- A link that enters another state shows it, sets INT_STATUS.LINK and begins its exchange afresh (R298, Table 9.4). -/
def Obligations.LinkStateChange : Prop :=
  ∀ (s : State) (n : Nat) (st : LinkState), s.sound → n < s.links.length → (s.lnk n).state ≠ st →
    let t := setLink s n st
    (t.lnk n).state = st ∧ (t.lnk n).outPend = none ∧ (t.lnk n).beatsOk = 0 ∧ t.fld (intBit 12) = 1 ∧
    (∀ k, k ≠ n → t.lnk k = s.lnk k) ∧ t.mbx = s.mbx ∧ t.time = s.time ∧ t.mem = s.mem

/-- A received HELLO in IDENTIFY: QUAR gives cause 7; otherwise the first failing check of R186 gives its number; a HELLO
that passes with PEER_OK leads to PROBATION (R186, R189, Table 9.6). The 72 bytes that a HELLO fills give its fields back
(R185, Table 9.5). -/
def Obligations.HelloQuarantinesOrAdmits : Prop :=
  (∀ (s : State) (n : Nat) (h : Hello), s.sound → n < 12 → s.links.length = 13 → (s.lnk n).state = .identify →
    (h.quar = true → ((helloIdentify s n h).lnk n).state = .quarantine ∧ (helloIdentify s n h).fld (Reg.linkStatus_quarCause n) = 7) ∧
    (h.quar = false → helloCheck s n h ≠ 0 → helloCheck s n h ≠ 3 →
      ((helloIdentify s n h).lnk n).state = .quarantine ∧ (helloIdentify s n h).fld (Reg.linkStatus_quarCause n) = helloCheck s n h) ∧
    (h.quar = false → s.sec.map.isSome = true → helloCheck s n h = 0 → h.peerOk = true →
      ((helloIdentify s n h).lnk n).state = .probation)) ∧
  (∀ h : Hello, h.kind < 256 → h.fpvMin < 256 → h.fpvMax < 256 → h.dieId < 2 ^ 18 → h.port < 256 → h.goodLanes < 16 → h.romRev < 2 ^ 32 →
    h.patch < 2 ^ 32 → h.mapEpoch < 2 ^ 32 → h.expDie < 2 ^ 18 → h.expPort < 256 → h.tstate < 256 → h.mapDigest.length = 32 → h.modelGen < 2 ^ 32 →
    h.resvBits = false → (helloBytes h).length = 72 ∧ readHello (helloBytes h) = h)

/-- Frame of the link commands: beside registers, links, faults, sent messages and what reports a change of state,
everything keeps its value. -/
def Obligations.LinkCommandsFrame : Prop :=
  ∀ (s t : State) (n lane good delay : Nat) (ok : Bool) (b : List Byte),
    ∀ c ∈ [Instr.pcsAligned n good delay, .phyTrainTimeout n, .downRetry n, .laneFail n lane, .fastRetrainDone n ok good delay,
      .ucieRepairFail n, .helloSend n, .hello n b, .helloTimeout n, .epochWaitTimeout n, .linkAdmit n],
    exec c s = .next t →
      t = { s with csr := t.csr, links := t.links, faults := t.faults, out := t.out, intWin := t.intWin, healthEv := t.healthEv }

/-! ### Serving: routers, tiles, fields, attention -/

/-- ROUTER_ENTRY, DEPARTURE and SCHED_FRAME (R14, R158 to R170, R178, R192, R196, R200, R220): an entry of this beat moves its input to its outputs;
a departure sends the payload of a live position, and counts as unsent on a link out of service; a frame for this die
fills its free station buffer, one for another die is misrouted, one of the other half is discarded, and so is one that its
form or an uncorrectable codeword gives to be discarded. -/
def Obligations.RoutersAndLinksComplete : Prop :=
  ∀ (s : State) (f n k e : Nat),
    (∀ late, s.firing = true → f < 64 → s.routerEntry f k = some e → reBeat e = s.stepBeat f →
      let t := s.atCycle (reSlot e) (reCycle e)
      let r := routerInput (lateRead t f e late) f e
      (t.routerOk f = false → exec (.routerEntry f ⟨k, late⟩) s = .next t) ∧
      (t.routerOk f = true → exec (.routerEntry f ⟨k, late⟩) s =
        .next (((List.range 7).filter (fun p => hasBit (reOut e) p)).foldl (fun a p => deliver a f e r.2 p) r.1))) ∧
    (s.firing = true → n < 12 → s.departureEntry n k = some e → deBeat e = s.stepBeat (64 + n) →
      let t := s.atCycle (deSlot e) (deCycle e)
      let g := linkField n
      ((t.lnk n).state ≠ .inService → exec (.departure n k) s = .next (t.count (Reg.linkBeat_unsentCnt n) 1)) ∧
      (∀ p, (t.lnk n).state = .inService → t.posOf g (deVec e) = some p → p.null = false → p.failed = false →
        payloadReady t g (deVec e) (deSrc e) (deFlits e) (t.stepSlot g (deSlot e)) = true → t.fieldRuns g = true →
        tableFault t g (deVec e) 7 n (16 * k) 16 = none → sramFault t g (deVec e) (deSrc e) (128 * deFlits e) = none →
        exec (.departure n k) s = .next (sendSched t n e
          { dst := deDest e, src := t.myId, isNull := false, isFail := false, ctx := { p.ctx with modelGen := t.modelGen }
            vec := deVec e, destBuf := deBuf e, beat := t.beat % 2 ^ 32, data := t.sram g (deSrc e) (128 * deFlits e) }))) ∧
    (∀ (slot : Nat) (x : SchedFrame), (s.lnk n).state = .inService → n < 12 →
      let t := (s.atSlot slot).updLnk n (fun l => { l with rcvd := l.rcvd + 1 })
      let b := bufKey n (x.destBuf % 64)
      (∀ u, rxDiscard s n x.rx (40 + x.data.length) true = some u → exec (.schedFrame n slot x) s = .next u) ∧
      (rxDiscard s n x.rx (40 + x.data.length) true = none →
        (x.dst ≠ s.myId → exec (.schedFrame n slot x) s = .next (t.count Reg.fabRouteCnt_misroute 1)) ∧
        (x.dst = s.myId → dieHalf x.src ≠ dieHalf s.myId → exec (.schedFrame n slot x) s = .next (t.count Reg.fabDenyCnt_crossHalf 1)) ∧
        (x.dst = s.myId → dieHalf x.src = dieHalf s.myId → sget noFrame t.sched.bufs b ≠ none →
          exec (.schedFrame n slot x) s = .next (t.count (Reg.linkSched_bufBusy n) 1)) ∧
        (x.dst = s.myId → dieHalf x.src = dieHalf s.myId → sget noFrame t.sched.bufs b = none →
          (∀ m ∈ t.sched.bufMark, m.buf ≠ b) → drainNear t n (x.destBuf % 64) slot = false →
          exec (.schedFrame n slot x) s = .next (nextFrame (setBuf t b (some { fr := x, no := t.sched.frames }))))))

/-- The converter's transfer function (R44), with 15 × 2^RANGE / 4 steps to the LSB: the code lies in -127 to 127; SAT is set
exactly from 127.5 LSB on; without SAT the code is the nearest integer, halves away from zero. -/
def Obligations.ConverterRoundsAndSaturates : Prop :=
  ∀ (range : Nat) (sum : Int),
    let u : Int := ((15 * 2 ^ range : Nat) : Int)
    let r := convert range sum 0
    (-127 ≤ r.1 ∧ r.1 ≤ 127) ∧
    (r.2 = true ↔ (255 * u ≤ 8 * sum ∨ 8 * sum ≤ -(255 * u))) ∧
    (255 * u ≤ 8 * sum → r.1 = 127) ∧ (8 * sum ≤ -(255 * u) → r.1 = -127) ∧
    (r.2 = false → 0 ≤ sum → 2 * r.1 * u ≤ 8 * sum + u ∧ 8 * sum + u < 2 * (r.1 + 1) * u) ∧
    (r.2 = false → sum < 0 → 2 * (r.1 - 1) * u < 8 * sum - u ∧ 8 * sum - u ≤ 2 * r.1 * u)

/-- The 2^L parts of a plane's active rows are consecutive, cover every row once and differ in size by at most one (R50). -/
def Obligations.PartsDivideTheRows : Prop :=
  ∀ (l : List Nat) (lvl : Nat),
    (List.range (2 ^ lvl)).flatMap (part l lvl) = l ∧
    (∀ j, j < 2 ^ lvl → l.length / 2 ^ lvl ≤ (part l lvl j).length ∧ (part l lvl j).length ≤ l.length / 2 ^ lvl + 1)

/-- TILE_DRIVE, S_SLOT_DRIVE, RERUN_COMMIT, RANGE_WINDOW_CLOSE and RANGE_CHANGE (R47 to R52, R59, R98, R99, R156). -/
def Obligations.TileCommandsComplete : Prop :=
  ∀ (s : State) (tile slot : Nat) (err : List Int),
    let f := tileField tile
    let q := s.stepSlot f slot
    let t := s.atSlot slot
    (∀ e x p, s.firing = true → tile < 8192 → slot < 64 → s.entryAt tile q = some e → seOp e = 1 → t.live f (seVec e) = true →
      t.fieldRuns f = true →
      let g := genCheck t f (seVec e) (seUidx e)
      g.live f (seVec e) = true → entryFault g f (seVec e) 3 tile 8 ((g.slotEntries tile).idxOf e) (seUidx e) = none →
      (g.tile tile).live.retired = false → g.scan f (seVec e) = some x → x.planes = some p → p + 2 ≤ q →
      exec (.tileDrive tile slot err) s = .next (drivePlane g f tile q e x err)) ∧
    (∀ r, s.firing = true → tile < 8192 → slot < 64 → (s.tile tile).res.find? (fun r => r.slot == q) = some r → t.live f r.vec = true →
      (t.fieldRuns f = false → exec (.sSlotDrive tile slot err) s = .next (fieldDown t f r.vec)) ∧
      (t.fieldRuns f = true → r.rerun = false → r.rows ≠ [] →
        let g := t.updTile tile (fun y => { y with res := y.res.filter (fun a => a.slot != q) })
        (g.tile tile).live.retired = false →
        exec (.sSlotDrive tile slot err) s = .next (drivePart
          (g.count (if r.react then Reg.splitCnt_reactive tile else Reg.splitCnt_preEmptive tile) 1) f tile q r err))) ∧
    (∀ h, s.grid.shadows.find? (fun h => h.tile == tile && h.last == q) = some h →
      let g := { t with grid := { t.grid with shadows := t.grid.shadows.filter (fun x => !(x.tile == tile && x.vec == h.vec)) } }
      (g.live f h.vec = false → ∀ b, exec (.rerunCommit tile slot b) s = .next g) ∧
      (g.live f h.vec = true → exec (.rerunCommit tile slot false) s =
        .next ((addLanes g f tile h.vec h.lanes).count (Reg.rerunFallback f) 1)) ∧
      (∀ x, g.live f h.vec = true → g.scan f h.vec = some x → exec (.rerunCommit tile slot true) s =
        .next ((addLanes g f tile h.vec (referenceAdds g f (g.imageAddr g.activeBase tile) x)).count (Reg.rerunCnt f) 1))) ∧
    (∀ sat near more, (s.tile tile).closed = (sat, near) :: more →
      let g := (s.setFld (Reg.rangeWin_satW tile) (min 0xFFFF sat)).setFld (Reg.rangeWin_nearW tile) (min 0xFFFF near)
      let target := g.fld (Reg.rangeLoopCfg_satTarget f)
      let r := g.rangeOf tile
      let fine := if near ≤ target / 2 then (s.tile tile).fine + 1 else 0
      let up := target < sat ∧ r < g.fld (Reg.tileCfg_rangeMax tile)
      let down := max 1 (g.fld (Reg.rangeLoopCfg_fineWindows f)) ≤ fine ∧ g.fld (Reg.tileCfg_rangeMin tile) < r
      (g.fld (Reg.tileCfg_rangeFixed tile) = 1 →
        exec (.rangeWindowClose tile) s = .next (g.updTile tile (fun y => { y with closed := more }))) ∧
      (g.fld (Reg.tileCfg_rangeFixed tile) ≠ 1 → up → exec (.rangeWindowClose tile) s =
        .next (g.updTile tile (fun y => { y with closed := more, fine := 0, rangeNext := some (r + 1, s.beat) }))) ∧
      (g.fld (Reg.tileCfg_rangeFixed tile) ≠ 1 → ¬up → down → exec (.rangeWindowClose tile) s =
        .next (g.updTile tile (fun y => { y with closed := more, fine := 0, rangeNext := some (r - 1, s.beat) }))) ∧
      (g.fld (Reg.tileCfg_rangeFixed tile) ≠ 1 → ¬up → ¬down → exec (.rangeWindowClose tile) s =
        .next (g.updTile tile (fun y => { y with closed := more, fine := fine })))) ∧
    (∀ r b, (s.tile tile).rangeNext = some (r, b) → b < s.beat → exec (.rangeChange tile) s =
      .next ((s.setFld (Reg.tileStatus_rangeCur tile) r).updTile tile (fun y => { y with rangeNext := none })))

/-- FIELD_SCAN, FIELD_EXPONENT, FIELD_ALIGN, FIELD_OPEN, FIELD_CLOSE and FIELD_SELECT where the installed table begins them for
a live position, OPEN whatever the position holds (R67 to R82, R93, R157, R165, R246, R277). A word that is missing or late makes the step
LATE. In the last slot of a SELECT the owner field writes the result record of the best word. -/
def Obligations.FieldActionsComplete : Prop :=
  ∀ (s t : State) (f slot v e : Nat),
    let q := s.stepSlot f slot
    (s.acts 1 f slot v e t →
      (outputLate t f v q = true → exec (.fieldScan f slot v) s = .next (lateField t f v 0 slot)) ∧
      (outputLate t f v q = false →
        sramFault t f v (faAddr e) (vecBytes (bits (t.udesc f (faUidx e) 0) 0 4) (512 * (t.rowBlocks f (faUidx e)).length)) = none →
        exec (.fieldScan f slot v) s = .next (scanVector t f v (faUidx e) (faAddr e)))) ∧
    (s.acts 2 f slot v e t →
      let x := (t.scan f v).getD { uidx := faUidx e }
      let ws := (if t.hasAction f 1 (faUidx e) v then [x.word] else []) ++ x.words.map (fun w => w.2.1)
      (x.missing.contains 2 = true → exec (.fieldExponent f slot v) s = .next (lateField t f v 2 slot)) ∧
      (x.missing.contains 2 = false → (∀ w ∈ x.words, 64 ≤ w.1 → w.2.2 + 2 ≤ q) →
        (∀ g ∈ t.partners f 1 (t.unitOf f (faUidx e)) v, ∃ w ∈ x.words, w.1 = g ∧ w.2.2 + 2 ≤ q) →
        let g := ofSigned 10 (formG (t.actBits f (faUidx e)) (t.actSigned f (faUidx e)) (t.gexpMin f (faUidx e)) ws)
        exec (.fieldExponent f slot v) s =
          .next (setScan t f v (some { x with g := some (g + (if ws.any (fun w => hasBit w 11) then 0x800 else 0), q - 1) })))) ∧
    (s.acts 3 f slot v e t → ∀ x w at0, t.scan f v = some x → x.g = some (w, at0) →
      (at0 + 2 ≤ q → exec (.fieldAlign f slot v) s = .next (alignVector t f v q (faAddr e) x w)) ∧
      (q < at0 + 2 → exec (.fieldAlign f slot v) s = .next (lateField t f v 2 slot))) ∧
    (s.meets f slot v e t → s.actionAt f 4 q v = some e → exec (.fieldOpen f slot v) s =
      .next ((List.range (t.laneCnt f (faUidx e))).foldl (fun a i => setLane a f (t.laneLo f (faUidx e) + i) 0) t)) ∧
    (s.acts 5 f slot v e t → ∀ x w at0, t.scan f v = some x → x.g = some (w, at0) → x.missing.contains 3 = false → fetchDone t f x = true →
      lateKind x [3, 4, 6] q = none → (nettleOnly t f v x).live f v = true →
      let u := formH (nettleOnly t f v x) f v (((nettleOnly t f v x).scan f v).getD x)
      adapterFor u f v (faUidx e) = .unused →
      sramFault u f v (bits (u.udesc f (faUidx e) 3) 0 21) (8 * u.laneCnt f (faUidx e)) = none →
      exec (.fieldClose f slot v) s = .next (closeVector u f v q (faAddr e) w { (u.scan f v).getD x with uidx := faUidx e })) ∧
    (s.meets f slot v e t → s.selectAt f q v = some e → ∀ p, t.posOf f v = some p → p.null = false → p.failed = false →
      let x := (t.scan f v).getD { uidx := faUidx e }
      let mine := if t.hasAction f 5 (faUidx e) v then selectWord t f (faUidx e) p.ctx x.ys else none
      let u := setScan t f v (some { x with sel := mine })
      ((t.isOwner f (faUidx e) = false ∨ q + 1 ≠ faFirst e + t.actLen f e) → exec (.fieldSelect f slot v) s = .next u) ∧
      (∀ w, t.isOwner f (faUidx e) = true → q + 1 = faFirst e + t.actLen f e → x.missing.contains 7 = false → lateKind x [7] q = none →
        (∀ g ∈ u.partners f 6 (u.unitOf f (faUidx e)) v, ∃ y ∈ x.sels, y.1 = g) → bestWord (mine.toList ++ x.sels.map (fun y => y.2)) = some w →
        exec (.fieldSelect f slot v) s =
          .next (u.putSram f (faAddr e) (if w.2.2 then resultRec 0 2 p.ctx else resultRec w.2.1 0 p.ctx))))

/-- OPEN leaves every lane of its unit at zero and no other lane changed (R76). -/
def Obligations.OpenZeroesTheUnitsLanes : Prop :=
  ∀ (s t : State) (f slot v e : Nat), s.meets f slot v e t → s.actionAt f 4 (s.stepSlot f slot) v = some e →
    ∃ u, exec (.fieldOpen f slot v) s = .next u ∧
    (∀ l, t.laneLo f (faUidx e) ≤ l → l < t.laneLo f (faUidx e) + t.laneCnt f (faUidx e) → swf zeroInt t.grid.lanes = true → u.lane f l = 0) ∧
    (∀ g l, laneKey g l < laneKey f (t.laneLo f (faUidx e)) ∨ laneKey f (t.laneLo f (faUidx e) + t.laneCnt f (faUidx e)) ≤ laneKey g l →
      u.lane g l = t.lane g l)

/-- ATT_WINDOW checks every position, writes every key and value, then computes every output; accesses that came late fail
their positions (R249, R250, R253, R265). ATT_GATHER serves every position of its window; of one live position it copies the
embedding row to the exchange area (R256). -/
def Obligations.AttentionWindowsComplete : Prop :=
  ∀ (s : State) (w : Nat) (late : List (Nat × Nat)),
    let e := s.attWin w
    let vs := (List.range (winVecCnt e)).map (fun i => winVecLo e + i)
    let t := s.atSlot (winFirst e % 64)
    (s.winDue w 0 = true →
      let c := lateAccesses (vs.foldl (fun a v => checkPos t a w e v) t) e late
      let d := vs.foldl (fun a v => computePos a e v) (vs.foldl (fun a v => writeKv a e v) c)
      let u : State := { d with att := { d.att with served := d.att.served ++ vs.filterMap (servedPos d e w) } }
      exec (.attWindow ⟨w, late⟩) s = .next (u.updSide (auSide (u.attUnit (winUnit e))) (fun x => { x with
        attIn := vs.foldl (fun m v => sset noBytes m v []) x.attIn, attSeen := x.attSeen.filter (fun v => !vs.contains v)
        fetch := vs.foldl (fun m v => sset zeroNat m v 0) x.fetch }))) ∧
    (s.winDue w 1 = true →
      let u := vs.foldl (fun a v => gatherPos t a e v) (lateAccesses t e late)
      exec (.attGather ⟨w, late⟩) s = .next (u.updSide (auSide (u.attUnit (winUnit e))) (fun x => { x with
        fetch := vs.foldl (fun m v => sset zeroNat m v 0) x.fetch }))) ∧
    (∀ p, s.winDue w 1 = true → winVecCnt e = 1 →
      let u := t.attUnit (winUnit e)
      let a := auEmbBase u + p.ctx.token * (auEmbWidth u * 2)
      t.posOf (winField e) (winVecLo e) = some p → p.null = false → p.failed = false → t.sideServes (winEngine e) (auSide u) = true →
      p.ctx.token < auEmbRows u → t.ueIn a (auEmbWidth u * 2) = false →
      ∃ x, exec (.attGather ⟨w, []⟩) s = .next x ∧ x.mem = wrBytes s.mem (auExch u) (s.read a (auEmbWidth u * 2)))

/-! ### Calibration -/

/-- Trims, drift, refresh, tile records and retirement (R57, R107 to R122): each event takes effect where its condition holds: a
takeover begins with the lowest free spare, or in place for a spare that stands in for nothing; an attempt needs a converter
that serves nothing; a noted cause retires the tile, writes its record, counts in CHANGE_COUNT and is recorded. TQ_WINDOW_CLOSE and TQ_CHANGE
(R95): the closed window shows in its registers, leaves the queue and decides the next threshold, one step up, one down or none;
a decided threshold takes effect at a later beat. -/
def Obligations.CalibrationAndThresholdsComplete : Prop :=
  (∀ (s : State) (tile k : Nat),
      (k < 66 → s.tileLive tile = true → convOut (s.tile tile) k = false → s.trimDue tile k = true →
        exec (.trimPeriodExpire tile k) s = .next (updConv s tile k (fun c => { c with due := true }))) ∧
      (k < 66 → s.tileLive tile = true → convOut (s.tile tile) k = false → (s.conv tile k).due = true → (s.conv tile k).busy = false →
        (s.tile tile).busyConvs = 0 → s.fieldTrims (tileField tile) < 16 → trimsFirst s tile k = true →
        (converts (s.tile tile).live.convMap k = false →
          exec (.trimTakeoverStart tile k) s = .next (updConv s tile k (fun c => { c with busy := true, fails := 0 }))) ∧
        (∀ y, converts (s.tile tile).live.convMap k = true → freeSpare s tile k = some y →
          exec (.trimTakeoverStart tile k) s = .next (writeRecord ((updConv s tile k (fun c =>
            { c with busy := true, fails := 0, spare := some (y, s.beat) })).updTile tile (fun x => { x with live := { x.live with
              convMap := cmSet x.live.convMap y false true (columnsOf (s.tile tile).live k) } })) tile))) ∧
      (∀ gain off sums, k < 66 → s.tileLive tile = true → convOut (s.tile tile) k = false → (s.conv tile k).next = none →
        (s.conv tile k).out = none → s.mayAttempt tile k = true →
        exec (.trimAttempt tile k gain off sums) s = .next (trimAttempt s tile k gain off sums)) ∧
      ((s.tile tile).live.retired = false → exec (.driftAgeTick tile) s = .next (s.updTile tile (fun x =>
        { x with live := { x.live with age := min 0x3FFFFF (x.live.age + ageWeight s.pow.band) } }))) ∧
      ((s.tile tile).live.retired = false → (1944000 ≤ (s.tile tile).live.age ∨ s.fld (Reg.driftStat_early tile) = 1) →
        exec (.refreshPending tile) s = .next (s.setFld (Reg.driftStat_pending tile) 1)) ∧
      ((s.tile tile).live.retired = false → 2592000 ≤ (s.tile tile).live.age → s.fld (Reg.driftStat_overdue tile) = 0 →
        exec (.refreshOverdue tile) s = .next ((s.setFld (Reg.driftStat_overdue tile) 1).count (Reg.overdueCnt (tileField tile)) 1)) ∧
      (s.powered (tileField tile) = true → exec (.tileRecordCheckpoint tile) s = .next (writeRecord s tile)) ∧
      (∀ c b o, (s.tile tile).retire = some (c, b, o) → b < s.beat →
        let t := writeRecord (s.updTile tile (fun x => { x with
          retire := none, check := none, live := { x.live with retired := true, cause := c } })) tile
        exec (.tileRetirement tile) s = .next (recordFault { t with grid := { t.grid with change := t.grid.change + 1 } }
          4 0x0401 (tileField tile) 1 tile {} (leBytes 1 c)))) ∧
  (∀ (s : State) (f n : Nat),
      (∀ taken outs more, (sget noTq s.grid.tqWin (f * 64 + n)).closed = (taken, outs) :: more →
        let t := (s.setFld (Reg.nettleUnitStat_ovfW f n) outs).setFld (Reg.nettleUnitStat_useW f n) (taken / 1024)
        let cap := 3 * bits (s.ndesc f n 0) 12 5 / 4
        let tq := toSigned 12 (s.fld (Reg.nettleUnitStat_tqCur f n))
        let up := (8 < outs ∨ (cap + 1) * 1024 < taken) ∧ tq < toSigned 12 (bits (s.ndesc f n 1) 16 12)
        let down := taken + 1024 < cap * 1024 ∧ toSigned 12 (bits (s.ndesc f n 1) 0 12) < tq
        (up → exec (.tqWindowClose f n) s =
          .next (updTq t f n (fun y => { y with closed := more, next := some (ofSigned 12 (tq + 1), s.beat) }))) ∧
        (¬up → down → exec (.tqWindowClose f n) s =
          .next (updTq t f n (fun y => { y with closed := more, next := some (ofSigned 12 (tq - 1), s.beat) }))) ∧
        (¬up → ¬down → exec (.tqWindowClose f n) s = .next (updTq t f n (fun y => { y with closed := more })))) ∧
      (∀ w b, (sget noTq s.grid.tqWin (f * 64 + n)).next = some (w, b) → b < s.beat →
        exec (.tqChange f n) s = .next (updTq (s.setFld (Reg.nettleUnitStat_tqCur f n) w) f n (fun y => { y with next := none }))))

/-- Sampled checks, reference runs and M slots (R91, R104, R115, R119, R124): a check starts on a tile that may be checked, with eight planes
drawn; Nettle completes the oldest request of the field; a check that waits too long is abandoned; an open M slot does the
first work that waits, with at most 512 tiles pulsed in a slot. -/
def Obligations.CheckAndSlotEventsComplete : Prop :=
  ∀ (s : State) (tile slot : Nat),
    (checkable s ≠ [] → exec .sampledCheckStart s = .next (startCheck s.draw (getAt 0 (checkable s) (s.drawn % (checkable s).length))) ∧
      getAt 0 (checkable s) (s.drawn % (checkable s).length) ∈ checkable s) ∧
    (∀ k, (s.tile tile).check = some k → k.driven = true → k.nettle = false → 64 ≤ k.mSlots →
      exec (.checkAbandon tile) s = .next ((s.updTile tile (fun x => { x with check := none })).count (Reg.checkAbandonCnt (tileField tile)) 1)) ∧
    (∀ n, s.nextRequest tile = some n →
      let done (k : ChkSt) : ChkSt := if k.no = n then { k with nettle := true } else k
      exec (.nettleRefDone tile) s =
        .next (settle (s.updTile tile (fun x => { x with check := x.check.map done, refRuns := x.refRuns.map done })) tile)) ∧
    (mSlotOpen s tile slot = true →
      let t := checkWait (s.atSlot slot) tile
      (∀ c g o sums, slotTrim t tile = some c → exec (.mSlot tile slot (.trim c g o sums)) s = .next (trimAttempt t tile c g o sums)) ∧
      (slotTrim t tile = none → t.refreshReady tile = true → t.mayPulse tile slot = true →
        (∀ cells failed, exec (.mSlot tile slot (.refreshEnd cells failed)) s = .next (refreshDone t tile cells failed)) ∧
        ((t.tile tile).refM < 16383 → exec (.mSlot tile slot .refreshPart) s =
          .next ((notePulse (t.setFld (Reg.driftStat_refreshing tile) 1) tile).updTile tile (fun x => { x with refM := x.refM + 1 })))) ∧
      (slotTrim t tile = none → t.refreshReady tile = false →
        (∀ p n, (t.tile tile).refRowM = 127 → exec (.mSlot tile slot (.refRow p n)) s = .next (refRowDone t tile p n)) ∧
        (exec (.mSlot tile slot .refRowPart) s = .next (t.updTile tile (fun x => { x with refRowM := min 127 (x.refRowM + 1) }))) ∧
        (∀ err, t.refRowWork tile = false → exec (.mSlot tile slot (.check err)) s = .next (drivePlaneM t tile err))))

/-! ### Fabric and memory -/

/-- Requests from another die that pass every check: LOAD returns the bytes, STORE writes its data, FAA64 adds modulo 2^64 and
CAS64 swaps on equality; both return the old value (R201, R212 to R216, Table 10.6). The answer leaves from the field of the
memory, and a Y-first route is noted (R25). -/
def Obligations.RemoteOperationsComplete : Prop :=
  ∀ (s : State) (n : Nat) (r : ReqHdr) (y : Bool), s.sound →
    let a := fabLocal r.addr
    let t := noteRoute s (linkField n) y
    let g := s.answerField (linkField n) a
    let old := leNat (s.read a 8)
    (s.takesReq n 1 r 0 y → exec (.reqLoad n r) s = .next (respond10 t g r { status := 0, len := r.len, data := s.read a r.len })) ∧
    (∀ d : List Byte, s.takesReq n 2 r d.length y →
      exec (.reqStore n r d) s = .next (respond10 (t.write a (slice d 0 r.len)) g r { status := 0 })) ∧
    (s.takesReq n 3 r 0 y →
      exec (.reqFaa64 n r) s = .next (respond10 (t.write a (leBytes 8 ((old + r.opnd1) % 2 ^ 64))) g r { status := 0, old := old })) ∧
    (s.takesReq n 4 r 0 y →
      exec (.reqCas64 n r) s = .next (respond10 (t.write a (leBytes 8 (if old = r.opnd1 then r.opnd2 else old))) g r { status := 0, old := old }))

/-- Copies, page parts, answers, timeouts and frames for other dies (R25, R196, R199, R202, R208, R214, R218, R220, R221, R328, R390); a frame
that its form gives to be discarded, or that may not cross the halves, has its count and no other effect. -/
def Obligations.FabricEventsComplete : Prop :=
  ∀ (s : State) (n : Nat),
    (∀ r : ReqHdr, s.receives n r.rx r.src r.dst 64 → copyRefused s r = none →
      (r.op = 5 → exec (.reqCopy n r) s = .next (pumpAll (startCopy s n r))) ∧
      (r.op = 6 → exec (.reqKvx n r) s = .next (pumpAll (startCopy s n r)))) ∧
    (∀ src tag c, s.fab.copies.find? (fun c => c.hdr.src == src && c.hdr.tag == tag) = some c → c.left = 0 →
      let t := { s with fab := { s.fab with copies := s.fab.copies.filter (fun x => !(x.hdr.src == src && x.hdr.tag == tag)) } }
      exec (.copyComplete src tag) s = .next (if src = s.myId then pumpAll (answerTag t tag c.ans) else respond10 t coreField c.hdr c.ans)) ∧
    (∀ (r : ReqHdr) (d : List Byte) k t, n < 12 → s.linkUp n = true → r.dst = s.myId → r.op = 6 → s.fld Reg.fabCfg_en = 1 →
      rxDiscard s n r.rx (64 + d.length) false = none →
      let a := fabLocal r.addr
      s.protHit (List.range 16) a d.length = false → rangeFor s a d.length = some k → s.rangePresent a d.length = true →
      meshTo s (linkField n) a = some t → t.uePartial a d.length = false →
      exec (.kvxPartWrite n r d) s = .next (respond10 (applyPart t k a d) (t.answerField (linkField n) a) r { status := 0, len := d.length })) ∧
    (∀ (r : RespHdr) (d : List Byte), s.receives n r.rx r.src r.dst (48 + d.length) →
      (r.dgen % 65536 = s.ev.hdr.dieGen % 65536 →
        exec (.respFrame n r d) s = .next (pumpAll (answerTag s r.tag { status := r.status, len := r.len, old := r.old, data := d }))) ∧
      (r.dgen % 65536 ≠ s.ev.hdr.dieGen % 65536 → exec (.respFrame n r d) s = .next (s.count Reg.staleDrop_drops 1))) ∧
    (∀ tag q, s.fab.reqs.find? (fun r => r.tag == tag) = some q → q.issue + s.reqTimeout ≤ s.beat →
      exec (.reqTimeout tag) s = .next (pumpAll (answerTag (s.count Reg.fabReqCnt_timeout 1) tag { status := 8 }))) ∧
    (∀ f : TransitHdr, n < 12 → s.linkUp n = true →
      (∀ u, rxDiscard s n f.rx (16 + f.body.length) (f.typ == 1) = some u → exec (.transitFrame n f) s = .next u) ∧
      (rxDiscard s n f.rx (16 + f.body.length) (f.typ == 1) = none →
        ((f.typ = 0 ∨ 4 < f.typ) → exec (.transitFrame n f) s = .next (s.count Reg.fabRxCnt_rxBad 1)) ∧
        (f.typ = 2 → ctrlReserved (fieldAt f.body 0 1) = true → exec (.transitFrame n f) s = .next (s.count Reg.fabRxCnt_rxBad 1)) ∧
        (1 ≤ f.typ → f.typ ≤ 4 → (f.typ = 2 → ctrlReserved (fieldAt f.body 0 1) = false) →
          (crossBad s f.typ f.src (fieldAt f.body 0 1) = true → exec (.transitFrame n f) s = .next (s.count Reg.fabDenyCnt_crossHalf 1)) ∧
          (crossBad s f.typ f.src (fieldAt f.body 0 1) = false → f.dst ≠ s.myId → exec (.transitFrame n f) s = .next (transit s n f)))))

/-- HBM events (R262, R266, R380 to R382): a scrubbed granule with a correctable error is counted, an uncorrectable one is
noted and recorded, and the last granule ends the pass; a window shows the busiest channel and marks its hot frames; a
finished copy moves the page to its new frame; the old frame returns 64 beats after the switch; a trained stack is READY. -/
def Obligations.HbmEventsComplete : Prop :=
  ∀ (s : State) (side : Nat),
    (∀ addr result, s.scrubs side = true → side * stackEnd ≤ addr → addr < (side + 1) * stackEnd →
      let t := match result with
        | 0 => s
        | 1 => s.count (if side = 0 then Reg.eccHbm0_corr else Reg.eccHbm1_corr) 1
        | _ => readUe { s with ue := if s.ue.contains (addr / 32) then s.ue else s.ue ++ [addr / 32] } (32 * (addr / 32)) 32 4
      (32 * (addr / 32) + 32 ≠ (side + 1) * stackEnd → exec (.patrolScrub side addr result) s = .next t) ∧
      (32 * (addr / 32) + 32 = (side + 1) * stackEnd → exec (.patrolScrub side addr result) s = .next (t.setFld Reg.scrubStat_lastPass t.aliveS))) ∧
    (∀ counts hot, s.fld (Reg.hbmCfg_migEn side) ≠ 0 → s.fld (Reg.hbmCfg_en side) ≠ 0 → s.hbmPresent side = true →
      let b := busiest (counts.take 64)
      let t := (s.setFld (Reg.loadMax_pc side) b.1).setFld (Reg.loadMax_ratio side) b.2
      let u := if 1024 < b.2 then t.count (Reg.overloadCnt_overload side) 1 else t
      let fs := (hotFrames u (counts.take 64) hot).filter (fun f =>
        (u.side side).used.contains f && !(u.side side).moving f && !(u.side side).marked.contains f)
      exec (.placementWindowClose side counts hot) s =
        .next (startMoves (u.updSide side (fun d => { d with marked := d.marked ++ fs })) side)) ∧
    (∀ old m, (s.side side).moves.find? (fun m => m.old == old && m.switch.isNone) = some m → s.coreAwake = true → s.hbmPresent side = true →
      s.ueIn (65536 * m.old) 65536 = false → s.descsOf m.old ≠ [] →
      let t := s.write (65536 * m.new) (s.read (65536 * m.old) 65536)
      let u := (s.descsOf m.old).foldl (fun a d => a.write d (leBytes 4 (a.hbm d 4 - m.old + m.new))) t
      exec (.migrationCopyDone side old) s = .next (updMove u side m.old (fun x => [{ x with switch := some (u.beat + 1) }]))) ∧
    (∀ old m b, (s.side side).moves.find? (fun m => m.old == old) = some m → m.switch = some b → b + 64 ≤ s.beat →
      exec (.oldFrameReturn side old) s = .next (startMoves (returnFrame (updMove s side m.old (fun _ => [])) side m.old) side)) ∧
    (s.fld (Reg.hbmCfg_en side) = 1 → s.hbmPresent side = true → exec (.hbmStackTrained side) s = .next (s.setFld (Reg.hbmStatus_ready side) 1))

/-! ### Power, time of service, integrity -/

/-- The housekeeping round and what happens between rounds (R116, R176, R299, R365, R369 to R376, R380, R391, R396): the cap asked for, sensors and
bus, rails, what the checks found, and the round's end, which counts in HEARTBEAT. -/
def Obligations.HousekeepingCompletes : Prop :=
  ∀ s : State, s.dieState ≠ .off →
    (∀ r, s.coreUp = true →
      let a := match s.pow.capNext with
        | some c => { s.setFld Reg.powerCapCur_cap c with pow := { s.pow with capNext := none } }
        | none => s
      let b := busConvert (readSensors a r.temps) r.busCode
      exec (.housekeepingRound r) s =
        .next (roundEnd r (checksRound r (pmbRound (if b.busValue r.busCode ≤ 12800000 then b.setFld Reg.thermStatus_busOver 0 else b) r)))) ∧
    (∀ (r : RoundIn) (t : State), ∃ u : State, roundEnd r t = { u.countWrap Reg.heartbeat_count with aliveRounds := u.aliveRounds + 1 }) ∧
    (∀ n v, s.coreUp = true → n < 48 → s.fld (Reg.sens_fast n) ≠ 0 → exec (.sensorFastRead n v) s = .next (updateTemp (readSensor s n v))) ∧
    (∀ b, s.pow.bandNext = some b → exec .bandChange s = .next { s with pow := { s.pow with band := b, bandNext := none } }) ∧
    (1000 ≤ s.aliveRounds → exec .aliveSecond s = .next { s with aliveS := s.aliveS + 1, aliveRounds := 0 }) ∧
    (s.coreUp = true → exec .headerCheckpoint s = .next (writeHeader s id) ∧ writeHeader s id = { s with ev := (writeHeader s id).ev } ∧
      (writeHeader s id).ev.hdr.aliveS = s.aliveS) ∧
    (s.fld Reg.blockEnMisc_power ≠ 0 → exec .pmbAlert s = .next { s with pow := { s.pow with railStats := true } })

/-- Bus events and timing monitors (R365, R370, R373, R378): a brown-out records itself, sets its flag and asks for S = 40; it
clears at 39.0 V and holds S for ten more rounds; a bus above 50.0 V is recorded; a monitor below 5 ps asks for 15 mV less DROP on its
rails. -/
def Obligations.PowerAlarmsComplete : Prop :=
  ∀ (s : State) (code low : Nat), s.dieState ≠ .off →
    (s.sensorOn = true → s.fld Reg.thermStatus_brownout ≠ 1 → s.busValue code < 9728000 →
      let a := busConvert s code
      let b := writeEvent a 0x02 (leBytes 2 (min (a.busUnits code) (a.busUnits low)))
      let c := raiseInt (((busConvert b low).setFld Reg.thermStatus_brownout 1).count Reg.thermCnt_brownoutCnt 1) 10
      exec (.brownout code low) s = .next (raiseShed (c.setFld Reg.powerStatus_brownout 1) 40) ∧
      (raiseShed (c.setFld Reg.powerStatus_brownout 1) 40).pow.sNext = some 40) ∧
    (s.sensorOn = true → s.fld Reg.thermStatus_brownout ≠ 0 → 9984000 ≤ s.busValue code →
      let a := raiseInt ((busConvert s code).setFld Reg.thermStatus_brownout 0) 10
      exec (.brownoutClear code) s = .next { a with pow := { a.pow with boHold := 10 } }) ∧
    (s.sensorOn = true → s.fld Reg.thermStatus_busOver ≠ 1 → 12800000 < s.busValue code →
      let a := (busConvert s code).setFld Reg.thermStatus_busOver 1
      exec (.busOver code) s = .next (writeEvent a 0x03 (leBytes 2 (a.busUnits code)))) ∧
    (∀ d x, s.coreUp = true → s.fld Reg.blockEnMisc_power ≠ 0 → s.avsEn = true → s.powered d = true → x < 5 → railsOf d ≠ [] →
      let a := limitCheck s d x
      let ks := (railsOf d).map (fun n => avsKey n d)
      exec (.timingMonitorLow d x) s = .next { a.count Reg.powerCnt_avsFast 1 with
        pow := { a.pow with dropPend := a.pow.dropPend ++ ks.filter (fun k => !a.pow.dropPend.contains k) } })

/-- SPEEDWELL_PASS_END, DOMAIN_POWER_READY and DOMAIN_RESET_RELEASE (R240, R354 to R360, R364, R388): the pass shows whether it
matched, ends the commits that waited for it, and the next one begins; a ready domain is used; a released one comes back. -/
def Obligations.IntegrityAndDomainsComplete : Prop :=
  ∀ s : State,
    (s.dieState ≠ .off →
      let t := { s with clk := max s.clk (s.spw.start + 133760) }
      let u := ((((passRegs t).countWrap Reg.spwPassCnt_passes).setFld Reg.spwStatus_passDone 1).setFld Reg.spwStatus_match
        (b2n t.passMatches)).setFld Reg.spwStatus_agreeFail (b2n (!t.dissenting.isEmpty))
      let v := u.setFld Reg.spwStatus_clean (b2n (!s.spw.written))
      exec .speedwellPassEnd s = .next (waitsMove (nextPass (commitEnds (configIntegrity v v.corrupt) t.passMatches)))) ∧
    (∀ d, s.pow.pdBegun.contains d = true →
      let t := { s with pow := { s.pow with pdBegun := s.pow.pdBegun.filter (fun x => x != d) } }
      let u := { t with pow := { t.pow with pdOn := setBit t.pow.pdOn d } }
      exec (.domainPowerReady d) s = .next (if d < 64 then fieldReady t d else if d < 70 then resumeInstalls u else trainDomain u d)) ∧
    (∀ d r, s.domResets.find? (fun r => r.domain == d && r.inReset) = some r → exec (.domainResetRelease d) s = .next (releaseReset s r))

/-- Resets (R391, R402 to R405, R424, Tables 19.4, 20.3): RESET_N and supply loss lead to OFF, the second with the always-on
registers lost, in OFF as well; releases and a reset of the whole die lead to ROM_BOOT with its cause. Then registers, memory,
mailboxes, links, time and sequences are as State.reset has them; the fuses stay; QPOS is sampled at a release alone. -/
def Obligations.ResetsStartAfresh : Prop :=
  (∀ s : State,
    (s.dieState ≠ .off → exec .resetNAssert s = .next (enterOff s)) ∧
    (s.dieState ≠ .off → exec .supplyLoss s =
      .next { enterOff s with supply := false, firstBoot := true, aged := false, aliveS := 0, aliveRounds := 0 }) ∧
    (s.dieState = .off → exec .supplyLoss s =
      .next { s with supply := false, firstBoot := true, aged := false, aliveS := 0, aliveRounds := 0 }) ∧
    (∀ q, s.dieState = .off → exec (.resetNRelease q) s =
      .next { enterBoot { s with supply := true } (if s.firstBoot then 0 else 1) with qpos := q % 4 }) ∧
    (∀ q, s.dieState = .off → s.supply = false → exec (.powerOnResetRelease q) s =
      .next { enterBoot { s with supply := true } 0 with qpos := q % 4 }) ∧
    (∀ c, s.dieState ≠ .off → s.dieReset = some c → exec .wholeDieReset s = .next (enterBoot s c))) ∧
  (∀ s : State,
    let fresh (t : State) : Prop := t.mem = [] ∧ t.mbx = State.reset.mbx ∧ t.links = State.reset.links ∧ t.time = State.reset.time ∧
      t.seqs = State.reset.seqs ∧ t.fab = State.reset.fab ∧ t.shard = State.reset.shard ∧ t.pow = State.reset.pow ∧ t.sec.fuses = s.sec.fuses
    ((enterOff s).dieState = .off ∧ (enterOff s).csr = [] ∧ fresh (enterOff s)) ∧
    (∀ c, (enterBoot s c).dieState = .romBoot ∧ (enterBoot s c).qpos = s.qpos ∧ (enterBoot s c).fld Reg.resetCause_cause = c % 8 ∧
      (∀ r, r ≠ Reg.resetCause_cause.reg → (enterBoot s c).word r = State.reset.word r) ∧ fresh (enterBoot s c)))

/-- ROM_BOOT_DONE, CORE_FATAL, ROUTER_LOST and TEST_PORT_ACCESS (R383, R402, R403, R419): a boot with a good fuse array ends in
the state that the header asks for; an uncorrectable core error is recorded and stops the core and the firing; a lost router reads ROUTER_OK
0; DBG_KILL closes the test port. -/
def Obligations.BootAndFatalEventsComplete : Prop :=
  ∀ s : State,
    (s.booting = true → s.coreUp = true →
      (s.sec.fuses.checkBad = true → exec .romBootDone s = .next ((bootLog s).setFld Reg.secStatus_fuseFail 1)) ∧
      (s.sec.fuses.checkBad = false →
        let t := setProt (bootPatch (drawKeys (bootLog s))) 0 (some (0, 2 ^ 33 - 1))
        exec .romBootDone s = .next (bootTrip (bootPower (enterState t (bootEnd t)))) ∧
        (bootTrip (bootPower (enterState t (bootEnd t)))).dieState = bootEnd t)) ∧
    (∀ mem addr, s.dieState ≠ .off → s.coreUp = true →
      let t := writeEvent (if mem = 1 then s else s.count Reg.eccSram_uncorr 1) 0x13 (leBytes 1 mem ++ leBytes 3 0 ++ leBytes 4 addr)
      exec (.coreFatal mem addr) s = .next { stopFiring t with coreUp := false } ∧ (s.sound → (stopFiring t).fld Reg.schedStatus_firing = 0)) ∧
    (∀ f, s.dieState ≠ .off → f < 64 → s.routerOk f = true →
      let a := s.count Reg.eccSram_uncorr 1
      let b : State := { a with grid := { a.grid with flitErr := sset noTime a.grid.flitErr f (s.ns + 1) } }
      let c := b.setFld (Reg.routerStat_routerOk f) 0
      let t : State := { c with grid := { c.grid with change := c.grid.change + 1 } }
      (∀ why, (why = 0 ∨ (sget noTime s.grid.flitErr f ≠ 0 ∧ s.ns + 1 ≤ sget noTime s.grid.flitErr f + 1000000000)) →
        exec (.routerLost f why) s =
          .next (writeEvent (recordFault t 2 0x0203 (0x80 + f) 2 f {} (leBytes 1 (min why 1))) 0x14 (leBytes 1 f))) ∧
      (∀ why, why ≠ 0 → (sget noTime s.grid.flitErr f = 0 ∨ sget noTime s.grid.flitErr f + 1000000000 < s.ns + 1) →
        exec (.routerLost f why) s = .next b)) ∧
    (s.dieState ≠ .off → s.sec.fuses.dbgKill = false →
      exec (.testPortAccess .boundaryScan) s = .next s ∧ exec (.testPortAccess .selfTest) s = .next s ∧
      exec (.testPortAccess .readKwk) s = .next (s.emit (.testData (leBytes 32 (Config.kwk s.sec.fuses.deviceSeed).toNat))) ∧
      ∀ b, exec (.testPortAccess (.blowFuse b)) s = .next (blowFuse s b)) ∧
    (∀ op, s.sec.fuses.dbgKill = true → exec (.testPortAccess op) s = .next s)

/-! ### Manager messages -/

/-- Messages of managers and to them, where the die accepts them (R18, R19, R289, R374, R397, R409 to R414). That one map is read at a
time is the model's choice (log entry 88). -/
def Obligations.ManagerEventsComplete : Prop :=
  ∀ s : State,
    (∀ src e t, s.hears = true → s.manager = some src → exec (.managerAlive src e t) s = .next { s with mgr := { s.mgr with lastAlive := s.ns } }) ∧
    (∀ t, s.coreAwake = true → s.sec.map = some t → s.fld Reg.secRole_role = 1 → t.standby ≠ s.myId →
      exec .managerAliveSend s = .next (s.sendCtrl t.standby (aliveBytes s))) ∧
    (∀ t, s.coreAwake = true → s.sec.takeover = some t → s.fld Reg.secRole_role = 2 → s.fld Reg.secStatus_takeoverReady = 1 → s.mgr.took = false →
      s.mgr.lastAlive + 5000000 ≤ s.ns →
      let a := awaitMap (sendNotices s t) t none
      exec .standbyTakeover s = .next { a with
        mgr := { a.mgr with took := true }
        seqs := { a.seqs with tenants := a.seqs.tenants.map (fun x => { x with level := 0, at0 := s.ns, answered := [] }) } }) ∧
    (∀ src e len a dg, s.hears = true → s.sec.mapRead = none → s.prefers e src = true → exec (.mapNotice src e len a dg) s =
      .next (pumpAll (mapLoad { s with sec := { s.sec with mapRead := some (src, e, len, a, dg), mapBytes := [] } }))) ∧
    (∀ t, s.coreAwake = true → s.sec.map = some t → t.signer = s.myId → s.fld Reg.secRole_manager = 1 →
      exec .mapNoticeResend s = .next (sendNotices s t)) ∧
    (∀ t j, s.coreAwake = true → s.sec.mapPend = some (t, j) →
      let a : State := { s with
        sec := { s.sec with map := some t, mapPend := none }, mgr := { s.mgr with lastAlive := s.ns, took := false }
        time := { s.time with parent := 0 } }
      let b := (takePosition a).setFld Reg.secStatus_roleConflict (b2n (!roleAgrees a t))
      let c := openLinks (if s.epoch < t.epoch then restartChecks b else b)
      exec .mapObey s = .next (finish (prepareTakeover (joinCheck (relockCheck c (mapTime c t)))) j 0 (leBytes 4 t.epoch))) ∧
    (∀ t, s.coreAwake = true → s.sec.takeover = some t → s.fld Reg.secStatus_takeoverReady = 0 →
      exec .takeoverMapReady s = .next ((writeSignedMap s t).setFld Reg.secStatus_takeoverReady 1)) ∧
    (∀ t j l, s.coreAwake = true → s.sec.mapSign = (t, j) :: l → s.rangePresent (fabLocal t.addr) t.len = true → s.prefers t.epoch t.signer = true →
      exec .mapPublishSigned s = .next (awaitMap (sendNotices (writeSignedMap { s with sec := { s.sec with mapSign := l } } t) t) t j)) ∧
    (∀ src k n u, s.hears = true → s.fld Reg.secRole_manager = 1 → s.fld Reg.secRole_role = 1 → exec (.budgetReq src k n u) s =
      .next ((answerBudget s src k n u).1.sendCtrl src (budgetBytes 0x25 k n (answerBudget s src k n u).2))) ∧
    (∀ src k n u, s.hears = true → s.manager = some src → exec (.budgetGrant src k n u) s = .next (takeAnswer s k n u)) ∧
    (∀ src sv c n, s.hears = true → s.entryField.isSome = true → exec (.shedReport src sv c n) s = .next { s with pow := { s.pow with
      reports := s.pow.reports.filter (fun r => r.die != src) ++ [{ die := src, s := min 40 sv, round := s.fld Reg.heartbeat_count }] } }) ∧
    (∀ src p, s.hears = true → s.fld Reg.secRole_manager = 1 → s.fld Reg.blockEnMisc_fault = 1 → src / 256 = s.myId / 256 →
      region (healthAddr s src) = 0 → s.rangePresent (healthAddr s src) 64 = true →
      exec (.healthReport src p) s = .next (s.write (healthAddr s src) (slice p 0 56 ++ leBytes 8 s.ns)))

/-! ### Shards, sequences, the beat -/

/-- Swap commit, programming waves, RoCEv2 and re-digest (R228 to R241, R287): a timed-out wave retires its unfinished tiles alone; what
waits for a fetch goes on when it ends; bad objects are read again. -/
def Obligations.ShardEventsComplete : Prop :=
  ∀ s : State,
    (∀ b j, s.shard.commitAt = some (b, j) → s.swapState = 4 → b ≤ s.beat → exec .swapCommit s = .next (commitSwap s j)) ∧
    (∀ outs, exec (.progWaveEnd outs) s = .next (bringUps (waveEnd s (fun t => some (failedOf outs t))))) ∧
    (∀ l outs, exec (.progWaveTimeout ⟨l, outs⟩) s =
      .next (bringUps (waveEnd s (fun t => if l.contains t then none else some (failedOf outs t))))) ∧
    (∀ src off d, exec (.roceReadResponse src off d) s = .next (afterFetch (landData s src off d))) ∧
    (∀ src psn, exec (.roceAck src psn) s = .next s) ∧
    (∀ src psn f, s.shard.fetch = some f →
      let n := f.objs.foldl (fun n o => if o.src = src then n + o.pagesOut else n) 0
      let d := ((getAt noSrc f.srcs src).psn + 2 ^ 24 - psn % 2 ^ 24) % 2 ^ 24
      (1 ≤ d → d ≤ n → exec (.roceNak src psn) s = .next (afterFetch (retryOrDrop s src))) ∧
      ((d = 0 ∨ n < d) → exec (.roceNak src psn) s = .next s)) ∧
    (∀ src, exec (.roceTimeout src) s = .next (afterFetch (retryOrDrop s src))) ∧
    (s.coreAwake = true → s.fld Reg.shardStatus_activeValid ≠ 0 → s.rangePresent s.activeBase (2 ^ 32) = true →
      exec .shardRedigest s = .next (reread (((badNow s).foldl markBad (s.setFld Reg.redigestStat_lastPass (s.ns / 10 ^ 9))).count
        Reg.shardErrCnt_redigestFail ((badNow s).filter (fun k => !s.shard.bad.contains k)).length))) ∧
    (∀ outs t, ∀ c ∈ failedOf outs t, c < 520)

/-- The vector map, commits, deadlines and the directory's stores (R165, R275, R279, R281 to R283, R286, R293). -/
def Obligations.SequenceEventsComplete : Prop :=
  ∀ s : State,
    (∀ f n b, s.stepBegin f n = some b → s.isEntry f = true → s.fld Reg.seqCfg_en = 1 → n ∉ s.seqs.maps →
      s.beat * 5120 + s.cyc ≤ (b - 1) * 5120 → b ≤ s.beat + 2 * planBeats (s.plan f) →
      exec (.vectorMapWrite f n) s = .next (pumpAll (writeMap s f n b))) ∧
    (∀ p f, (s.seqs.places.map (fun p => p.step)).min? = some p → s.firing = true → s.entryField = some f →
      s.startBeat + (p + s.seqs.lag) * planBeats (s.plan f) + planBeats (s.plan f) ≤ s.beat →
      exec .seqCommit s = .next (commitStep s true p (p + s.seqs.lag))) ∧
    (∀ i, (s.seq i).alive = true → (s.seq i).contLate = false → (s.seq i).deadline ≠ 0 → (s.seq i).deadline ≤ s.beat * 2048 →
      (∀ p ∈ s.seqs.places, p.idx ≠ i) → exec (.deadlineExpire i) s = .next (pumpAll (endSeq s i 3))) ∧
    (∀ i, s.dirHere i = true →
      let e := s.dirEntry i
      (deBound e = false → deRelease e = false → deGen e ≠ 0 → exec (.dirBind i) s = .next (bindEntry s i)) ∧
      (deBound e = true → deRelease e = false → deHome e = true → exec (.dirLength i) s = .next (allocatePages s i)) ∧
      (deBound e = true → deRelease e = false → s.parkingOf i = false →
        (dePark e = true → deHome e = true → exec (.dirPark i) s = .next (pumpAll (startPark s i))) ∧
        (dePark e = false → deHome e = false → exec (.dirPark i) s = .next (pumpAll (startUnpark s i)))) ∧
      (deBound e = true → deRelease e = true → s.parkReqs i = false → exec (.dirRelease i) s = .next (releaseEntry s i)))

/-- BEAT_BOUNDARY, SERVE_BEGIN and DRAIN_COMPLETE (R128, R137 to R149, R207, R332, R333): the links send what still fits in the beat, the
next beat begins at cycle 0, then the boundary's effects follow in their order; at START_BEAT a LOADED die serves; when the
sequence table is empty a DRAINING die is LOADED again and fires nothing. -/
def Obligations.BeatGridCompletes : Prop :=
  ∀ s : State,
    (s.dieState ≠ .off → exec .beatBoundary s = .next (afterBoundary (coreBoundary (startSteps (rejoinEnds
        (linkBoundary (timeBoundary (endSteps (nextBeat (flushLinks s 5119)))))))))) ∧
    ((nextBeat s).beat = s.beat + 1 ∧ (nextBeat s).cyc = 0) ∧
    (∀ b, s.sched.startAt = some b → b ≤ s.beat → s.installed = true →
      (s.dieState = .loaded → exec .serveBegin s = .next (enterState (beginFiring s b) .serving) ∧
        (enterState (beginFiring s b) .serving).dieState = .serving) ∧
      (s.dieState = .holdover → s.left = .loaded → exec .serveBegin s = .next { beginFiring s b with left := .serving })) ∧
    (s.dieState = .draining → s.liveSeqs = [] → exec .drainComplete s = .next (drainEnds (enterState (stopFiring s) .loaded)) ∧
      (drainEnds (enterState (stopFiring s) .loaded)).dieState = .loaded ∧
      (s.sound → (drainEnds (enterState (stopFiring s) .loaded)).fld Reg.schedStatus_firing = 0) ∧
      (drainEnds (enterState (stopFiring s) .loaded)).mem = s.mem)

/-! ### Rules of the spec as they stand -/

/-- R7: tile index, field index, power domain and local position of the tile at (tx, ty). -/
def Obligations.TileNumbering : Prop :=
  ∀ tx ty : Nat, tx < 128 → ty < 64 →
    let t := ty * 128 + tx
    t < 8192 ∧ tileField t = (ty / 8) * 8 + tx / 16 ∧ tileField t < 64 ∧ tileLocal t = (ty % 8) * 16 + tx % 16 ∧
    tileAt (tileField t) (tileLocal t) = t ∧
    (∀ s : State, s.powered (tileField t) = false → s.sramPresent (tileField t) = false ∧ s.fieldRuns (tileField t) = false)

/-- R301: eight mailboxes; the classes of Table 14.2; a command outside its class is answered WRONG_MAILBOX. The host reaches
MBX0 to MBX6, the obeyed manager MBX7, nobody another one: a host's write there is flagged, any other die's is denied. -/
def Obligations.MailboxClasses : Prop :=
  State.reset.mbx.length = 8 ∧
  (∀ m, m < 8 → (MClass.plat.accepts m = true ↔ m = 0) ∧ (MClass.mgr.accepts m = true ↔ (m = 0 ∨ m = 7)) ∧
    (MClass.host.accepts m = true ↔ m ≠ 7) ∧ MClass.any.accepts m = true) ∧
  (∀ (c : Instr) (m op : Nat) (s : State) (k : CmdSpec), mailboxOf c = some (m, op) → s.waiting m → badHeader (s.hdr m) = false →
    (s.hdr m).opcode = op → cmdSpec op = some k → k.cls.accepts m = false →
    exec c s = .next (respond (s.cmdCounted m) m (s.hdr m) s.ns 0x04 0 [])) ∧
  (∀ (m d off n : Nat) (b : List Byte) (s : State), s.dieState ≠ .off →
    (m ≠ 7 → exec (.mbxGo m none) s = .next (mbxGo s m none) ∧
      exec (.mbxCmdWrite m off b none) s = .next (cmdWords s m off b (b.length / 4)) ∧ exec (.jobAck m n none) s = .next (mbxAck s m n)) ∧
    (∀ c ∈ [Instr.mbxGo 7 none, .mbxCmdWrite 7 off b none, .jobAck 7 n none], exec c s = .next (hostDenied s)) ∧
    (s.manager = some d → exec (.mbxGo 7 (some d)) s = .next (mbxGo s 7 (some d)) ∧
      exec (.mbxCmdWrite 7 off b (some d)) s = .next (cmdWords s 7 off b (b.length / 4)) ∧ exec (.jobAck 7 n (some d)) s = .next (mbxAck s 7 n)) ∧
    ((m ≠ 7 ∨ s.manager ≠ some d) → ∀ c ∈ [Instr.mbxGo m (some d), .mbxCmdWrite m off b (some d), .jobAck m n (some d)],
      exec c s = .next (s.count Reg.fabDenyCnt_denied 1)))

end
end

