-- ==== Sys2Proof/Laws/Mailbox.lean ====
section
/-! SUPPORT. What the control core does with a mailbox command (R304 to R307): one lemma per outcome of `takeCommand`, under the
terms of Sys2Proof/Safety.lean, and where each link of an answer leaves the mailboxes. -/

namespace Sys2Proof.Machine

variable {s : State} {m op k : Nat} {bs ba : List Byte → State → Bool} {rf : List Byte → State → Option (Nat × List Byte)} {a : CmdAct}

/-- An accepted opcode is one of Table 15.1. -/
theorem accepts_spec (h : s.accepts m op) : (cmdSpec op).isSome = true := by
  obtain ⟨_, hb, ho, hc, _⟩ := h
  unfold commonStatus at hc
  rw [hb, ho] at hc
  cases hs : cmdSpec op with
  | none => simp [hs] at hc
  | some _ => rfl

/-- An accepted command with an immediate effect is answered OK. -/
theorem takeCommand_now {f : List Byte → State → State × List Byte} (h : s.accepts m op) (h1 : bs (s.args m) s = false)
    (h2 : ba (s.args m) s = false) (h3 : rf (s.args m) s = none) :
    takeCommand m op bs ba rf (.now f) s = s.answer m (f (s.args m) (s.cmdCounted m)).1 (f (s.args m) (s.cmdCounted m)).2 := by
  have hs := accepts_spec h
  obtain ⟨hw, hb, ho, hc, ha⟩ := h
  unfold State.waiting at hw
  unfold State.args at h1 h2 h3
  unfold State.hdr at hb ho hc ha
  simp [takeCommand, hw, ho, hc, ha, h1, h2, h3, State.answer, State.hdr, State.args, State.cmdCounted]

/-- An accepted job command starts its job in the lowest FREE slot. -/
theorem takeCommand_job {f : List Byte → Nat → State → State} (h : s.accepts m op) (h1 : bs (s.args m) s = false)
    (h2 : ba (s.args m) s = false) (h3 : rf (s.args m) s = none) (h4 : freeSlot s m = some k) :
    takeCommand m op bs ba rf (.job f) s = f (s.args m) k (s.begun m k []) := by
  have hs := accepts_spec h
  obtain ⟨hw, hb, ho, hc, ha⟩ := h
  unfold State.waiting at hw
  unfold State.args at h1 h2 h3
  unfold State.hdr at hb ho hc ha
  simp [takeCommand, hw, ho, hc, ha, h1, h2, h3, h4, State.begun, State.hdr, State.args, State.cmdCounted]

/-- A job command whose answer carries data. -/
theorem takeCommand_jobData {d : List Byte → State → List Byte} {f : List Byte → Nat → State → State} (h : s.accepts m op)
    (h1 : bs (s.args m) s = false) (h2 : ba (s.args m) s = false) (h3 : rf (s.args m) s = none) (h4 : freeSlot s m = some k) :
    takeCommand m op bs ba rf (.jobData d f) s = f (s.args m) k (s.begun m k (d (s.args m) (s.cmdCounted m))) := by
  have hs := accepts_spec h
  obtain ⟨hw, hb, ho, hc, ha⟩ := h
  unfold State.waiting at hw
  unfold State.args at h1 h2 h3
  unfold State.hdr at hb ho hc ha
  simp [takeCommand, hw, ho, hc, ha, h1, h2, h3, h4, State.begun, State.hdr, State.args, State.cmdCounted]

/-- A command-specific refusal is answered and has no other effect. -/
theorem takeCommand_refused {code : Nat} {data : List Byte} (h : s.accepts m op) (h1 : bs (s.args m) s = false)
    (h2 : ba (s.args m) s = false) (h3 : rf (s.args m) s = some (code, data)) :
    takeCommand m op bs ba rf a s = respond (s.cmdCounted m) m (s.hdr m) s.ns code 0 data := by
  have hs := accepts_spec h
  obtain ⟨hw, hb, ho, hc, ha⟩ := h
  unfold State.waiting at hw
  unfold State.args at h1 h2 h3
  unfold State.hdr at hb ho hc ha
  simp [takeCommand, hw, ho, hc, ha, h1, h2, h3, State.hdr, State.cmdCounted]

/-- Arguments outside their ranges are answered BAD_ARGS. -/
theorem takeCommand_badArgs (h : s.accepts m op) (h1 : bs (s.args m) s = false) (h2 : ba (s.args m) s = true) :
    takeCommand m op bs ba rf a s = respond (s.cmdCounted m) m (s.hdr m) s.ns 6 0 [] := by
  have hs := accepts_spec h
  obtain ⟨hw, hb, ho, hc, ha⟩ := h
  unfold State.waiting at hw
  unfold State.args at h1 h2
  unfold State.hdr at hb ho hc ha
  simp [takeCommand, hw, ho, hc, ha, h1, h2, State.hdr, State.cmdCounted]

/-- A failing common check is answered and has no other effect. -/
theorem takeCommand_common (hw : s.waiting m) (ho : (s.hdr m).opcode = op) (hc : commonStatus s m (s.hdr m) ≠ 0) :
    takeCommand m op bs ba rf a s = respond (s.cmdCounted m) m (s.hdr m) s.ns (commonStatus s m (s.hdr m)) 0 [] := by
  unfold State.waiting at hw
  unfold State.hdr at ho hc
  simp [takeCommand, hw, ho, hc, State.hdr, State.cmdCounted]

/-- The mailbox that the core serves next is RUNNING, and the core runs. -/
theorem waiting_running (h : s.waiting m) : s.coreUp = true ∧ s.dieState ≠ .off ∧ s.dieState ≠ .romBoot ∧ (s.mb m).state = .running := by
  unfold State.waiting nextMailbox at h
  split at h
  · cases h
  · rename_i hn
    have hr := List.find?_some h
    simp only [Bool.or_eq_true, Bool.not_eq_true', beq_iff_eq, not_or, Bool.not_eq_false] at hn
    exact ⟨hn.1.1, hn.1.2, hn.2, eq_of_beq hr⟩

/-- A mailbox that the core does not serve next is not taken. -/
theorem takeCommand_idle (h : nextMailbox s ≠ some m) : takeCommand m op bs ba rf a s = s := by
  simp [takeCommand, h]

/-! ### Mailboxes one by one -/

theorem getAt_updAt {α : Type} {d : α} {g : α → α} : ∀ {l : List α} {i j : Nat}, i < l.length →
    getAt d (updAt l i g) j = if j = i then g (getAt d l j) else getAt d l j
  | [], _, _, h => by simp at h
  | x :: l, 0, 0, _ => rfl
  | x :: l, 0, j + 1, _ => by simp [updAt, getAt]
  | x :: l, i + 1, 0, _ => by simp [updAt, getAt]
  | x :: l, i + 1, j + 1, h => by
    simp only [updAt, getAt, Nat.add_right_cancel_iff]
    exact getAt_updAt (by simpa using h)

theorem getAt_updAt_other {α : Type} {d : α} {g : α → α} : ∀ {l : List α} {i j : Nat}, j ≠ i → getAt d (updAt l i g) j = getAt d l j
  | [], _, _, _ => rfl
  | x :: l, 0, 0, h => by simp at h
  | x :: l, 0, j + 1, _ => by simp [updAt, getAt]
  | x :: l, i + 1, 0, _ => by simp [updAt, getAt]
  | x :: l, i + 1, j + 1, h => by
    simp only [updAt, getAt]
    exact getAt_updAt_other (by simpa using h)

theorem getAt_outside {α : Type} {d : α} : ∀ {l : List α} {i : Nat}, l.length ≤ i → getAt d l i = d
  | [], _, _ => rfl
  | x :: l, 0, h => by simp at h
  | x :: l, i + 1, h => by
    simp only [getAt]
    exact getAt_outside (by simpa using h)

@[simp] theorem length_updAt {α : Type} {g : α → α} : ∀ {l : List α} {i : Nat}, (updAt l i g).length = l.length
  | [], _ => rfl
  | x :: l, 0 => rfl
  | x :: l, i + 1 => by simp [updAt, length_updAt]

theorem mb_updMb {g : Mailbox → Mailbox} (h : m < s.mbx.length) : (s.updMb m g).mb m = g (s.mb m) := by
  simp [State.mb, State.updMb, getAt_updAt h]

theorem mb_updMb_other {g : Mailbox → Mailbox} {n : Nat} (h : n ≠ m) : (s.updMb m g).mb n = s.mb n := by
  simp [State.mb, State.updMb, getAt_updAt_other h]

/-- A waiting mailbox is one of the eight that the state holds. -/
theorem waiting_lt (h : s.waiting m) : m < s.mbx.length := by
  apply Decidable.byContradiction
  intro hn
  have := (waiting_running h).2.2.2
  unfold State.mb at this
  rw [getAt_outside (Nat.le_of_not_lt hn)] at this
  exact absurd this (by decide)

/-- An interrupt bit that rises changes registers, sent messages and windows alone. -/
theorem raiseInt_eq {b : Nat} : raiseInt s b = { s with csr := (raiseInt s b).csr, out := (raiseInt s b).out, intWin := (raiseInt s b).intWin } := by
  unfold raiseInt intCause
  split <;> rfl

@[simp] theorem mbx_raiseInt {b : Nat} : (raiseInt s b).mbx = s.mbx := by rw [raiseInt_eq]
@[simp] theorem mb_raiseInt {b n : Nat} : (raiseInt s b).mb n = s.mb n := by simp [State.mb]

/-- The 256 bytes of a response (Table 14.6). -/
theorem respond_eq {h : CmdHdr} {acc st jobNo : Nat} {data : List Byte} : ∃ resp,
    resp = slice ((leBytes 2 h.opcode ++ leBytes 1 st ++ leBytes 1 (b2n (jobNo != 0)) ++ leBytes 4 h.tag
      ++ leBytes 2 (min 232 data.length) ++ leBytes 2 jobNo ++ leBytes 4 0 ++ leBytes 8 acc) ++ data.take 232) 0 256 ∧
    (respond s m h acc st jobNo data).mbx = updAt s.mbx m (fun b => { b with state := .responded, resp := resp }) ∧
    respond s m h acc st jobNo data = { s with
      mbx := (respond s m h acc st jobNo data).mbx, csr := (respond s m h acc st jobNo data).csr
      out := (respond s m h acc st jobNo data).out, intWin := (respond s m h acc st jobNo data).intWin
      fab := (respond s m h acc st jobNo data).fab } := by
  refine ⟨_, rfl, ?_⟩
  unfold respond
  dsimp only
  split
  · exact ⟨rfl, rfl⟩
  · split
    · split
      · exact ⟨rfl, rfl⟩
      · exact ⟨rfl, rfl⟩
    · exact ⟨by rw [mbx_raiseInt]; rfl, by rw [raiseInt_eq]; rfl⟩

@[simp] theorem length_leBytes {n : Nat} : ∀ {v : Nat}, (leBytes n v).length = n := by
  induction n with
  | zero => intro v; rfl
  | succ n ih => intro v; simp [leBytes, ih]

/-- A field inside a byte string is the same in its slice. -/
theorem fieldAt_slice {x : List Byte} {o n w : Nat} (h1 : o + n ≤ w) (h2 : o + n ≤ x.length) : fieldAt (slice x 0 w) o n = fieldAt x o n := by
  unfold fieldAt slice
  congr 1
  simp only [List.drop_zero]
  rw [List.drop_append_of_le_length (by rw [List.length_take]; omega), List.take_append_of_le_length (by rw [List.length_drop, List.length_take]; omega),
    List.drop_take, List.take_take, Nat.min_eq_left (by omega)]

/-- A field of a list that begins behind its first part. -/
theorem fieldAt_append_right {x y : List Byte} {o n : Nat} (h : x.length ≤ o) : fieldAt (x ++ y) o n = fieldAt y (o - x.length) n := by
  unfold fieldAt
  rw [List.drop_append, List.drop_eq_nil_of_le h, List.nil_append]

/-- A field of a list that ends inside its first part. -/
theorem fieldAt_append_left {x y : List Byte} {o n : Nat} (h : o + n ≤ x.length) : fieldAt (x ++ y) o n = fieldAt x o n := by
  unfold fieldAt
  rw [List.drop_append_of_le_length (by omega), List.take_append_of_le_length (by rw [List.length_drop]; omega)]

theorem leNat_leBytes {n : Nat} : ∀ {v : Nat}, leNat (leBytes n v) = v % 256 ^ n := by
  induction n with
  | zero => intro v; simp [leBytes, leNat, Nat.mod_one]
  | succ n ih =>
    intro v
    simp only [leBytes, leNat, ih]
    have e : (BitVec.ofNat 8 v).toNat = v % 256 := BitVec.toNat_ofNat ..
    rw [e]
    rw [Nat.pow_succ, Nat.mul_comm (256 ^ n) 256, Nat.mod_mul]

/-- A little-endian field that is the whole of its bytes. -/
theorem fieldAt_leBytes {n v : Nat} : fieldAt (leBytes n v) 0 n = v % 256 ^ n := by
  unfold fieldAt
  rw [List.drop_zero, List.take_of_length_le (by simp), leNat_leBytes]

/-- The status byte of a response. -/
theorem status_respond {h : CmdHdr} {acc st jobNo : Nat} {data : List Byte} (hm : m < s.mbx.length) :
    ((respond s m h acc st jobNo data).mb m).state = .responded ∧
    fieldAt ((respond s m h acc st jobNo data).mb m).resp 2 1 = st % 256 := by
  obtain ⟨r, hr, hx, _⟩ := respond_eq (s := s) (m := m) (h := h) (acc := acc) (st := st) (jobNo := jobNo) (data := data)
  have hb : (respond s m h acc st jobNo data).mb m = { s.mb m with state := .responded, resp := r } := by
    simp [State.mb, hx, getAt_updAt hm]
  rw [hb]
  refine ⟨rfl, ?_⟩
  show fieldAt r 2 1 = st % 256
  rw [hr, fieldAt_slice (by omega) (by simp; omega), fieldAt_append_left (by simp), fieldAt_append_left (by simp),
    fieldAt_append_left (by simp), fieldAt_append_left (by simp), fieldAt_append_left (by simp), fieldAt_append_left (by simp),
    fieldAt_append_left (by simp), fieldAt_append_right (by simp), length_leBytes, Nat.sub_self, fieldAt_leBytes] <;> simp

end Sys2Proof.Machine
end

