-- ==== Sys2Proof/Laws/Memory.lean ====
section
/-! SUPPORT. Sparse memories keep their canonical form, and what keeps `Sound`: the registers and the memory
canonical, the cycle within its beat, the queue and the fuses as they were. -/
namespace Sys2Proof.Machine

variable {q : List Instr} {z : Fuses}

/-- The registers and the memory are canonical, the cycle lies in its beat, and the queue and the fuses are `q` and `z`. -/
def Sound (q : List Instr) (z : Fuses) (p : List Instr) (f : Fuses) (c : Sparse Word) (m : Sparse Byte) (k : Nat) : Prop :=
  swf regReset c = true ∧ memWf m = true ∧ k < 5120 ∧ p = q ∧ f = z

/-- An outcome whose next state, if it is one, is sound. -/
def SoundOut (q : List Instr) (z : Fuses) : Host.Outcome State Fault Refusal → Prop
  | .next t => Sound q z t.pending t.sec.fuses t.csr t.mem t.cyc
  | _ => True

/-- The invariant of Safety.lean in the form of the lemmas below. -/

theorem sound_of {s : State} (h : s.sound) : Sound s.pending s.sec.fuses s.pending s.sec.fuses s.csr s.mem s.cyc :=
  ⟨h.1, h.2.1, h.2.2, rfl, rfl⟩

section
variable {α : Type} [DecidableEq α] {d : Nat → α}

theorem swfFrom_mono {m : Sparse α} {n k : Nat} (h : swfFrom d n m = true) (hk : k ≤ n) : swfFrom d k m = true := by
  cases m with
  | nil => rfl
  | cons e m => simp [swfFrom] at h ⊢; exact ⟨⟨by omega, h.1.2⟩, h.2⟩

theorem swfFrom_filter {p : Nat × α → Bool} {m : Sparse α} : ∀ {n : Nat}, swfFrom d n m = true → swfFrom d n (m.filter p) = true := by
  induction m with
  | nil => intros; rfl
  | cons e m ih =>
    intro n h
    simp [swfFrom] at h
    rw [List.filter_cons]
    split
    · simp [swfFrom, h.1.1, h.1.2]; exact ih h.2
    · exact swfFrom_mono (ih h.2) (by omega)

theorem swfFrom_del {m : Sparse α} {k : Nat} : ∀ {n : Nat}, swfFrom d n m = true → swfFrom d n (sdel m k) = true := by
  induction m with
  | nil => intros; rfl
  | cons e m ih =>
    intro n h
    simp [swfFrom] at h
    unfold sdel
    split
    · exact swfFrom_mono h.2 (by omega)
    · split
      · simp [swfFrom, h]
      · simp [swfFrom, h.1.1, h.1.2]; exact ih h.2

theorem swfFrom_put {m : Sparse α} {k : Nat} {v : α} (hv : ¬ v = d k) : ∀ {n : Nat}, n ≤ k → swfFrom d n m = true → swfFrom d n (sput m k v) = true := by
  induction m with
  | nil => intro n hn h; simp [sput, swfFrom, hn, hv]
  | cons e m ih =>
    intro n hn h
    simp [swfFrom] at h
    unfold sput
    split
    · rename_i he; subst he; simp [swfFrom, hn, hv, h.2]
    · split
      · simp [swfFrom, hn, hv, h.1.2, h.2]; omega
      · simp [swfFrom, h.1.1, h.1.2]; exact ih (by omega) h.2

theorem swf_sset {m : Sparse α} {k : Nat} {v : α} (h : swf d m = true) : swf d (sset d m k v) = true := by
  unfold sset swf at *
  split
  · exact swfFrom_del h
  · exact swfFrom_put ‹_› (Nat.zero_le _) h

theorem swf_sclear {m : Sparse α} {lo hi : Nat} (h : swf d m = true) : swf d (sclear lo hi m) = true := swfFrom_filter h

theorem swf_filter {m : Sparse α} {p : Nat × α → Bool} (h : swf d m = true) : swf d (m.filter p) = true := swfFrom_filter h
end

theorem memWf_wrBytes (bs : List Byte) : ∀ {m : Sparse Byte} {a : Nat}, memWf m = true → memWf (wrBytes m a bs) = true := by
  induction bs with
  | nil => intro m a h; exact h
  | cons b bs ih => intro m a h; exact ih (swf_sset h)

@[simp] theorem sound_ite {c : Prop} [Decidable c] {a b : State} (ha : Sound q z a.pending a.sec.fuses a.csr a.mem a.cyc) (hb : Sound q z b.pending b.sec.fuses b.csr b.mem b.cyc) :
    Sound q z (if c then a else b).pending (if c then a else b).sec.fuses (if c then a else b).csr (if c then a else b).mem (if c then a else b).cyc := by split <;> assumption

@[simp] theorem sound_foldl {β : Type} {g : State → β → State} {l : List β} {s : State}
    (hs : Sound q z s.pending s.sec.fuses s.csr s.mem s.cyc) (hg : ∀ t x, Sound q z t.pending t.sec.fuses t.csr t.mem t.cyc → Sound q z (g t x).pending (g t x).sec.fuses (g t x).csr (g t x).mem (g t x).cyc) :
    Sound q z (l.foldl g s).pending (l.foldl g s).sec.fuses (l.foldl g s).csr (l.foldl g s).mem (l.foldl g s).cyc := by
  induction l generalizing s with
  | nil => exact hs
  | cons x l ih => exact ih (hg s x hs)

@[simp] theorem sound_setFld {s : State} {x : Fld} {v : Nat} (h : Sound q z s.pending s.sec.fuses s.csr s.mem s.cyc) :
    Sound q z (s.setFld x v).pending (s.setFld x v).sec.fuses (s.setFld x v).csr (s.setFld x v).mem (s.setFld x v).cyc := ⟨swf_sset h.1, h.2⟩

@[simp] theorem sound_setWord {s : State} {x : Nat} {v : Word} (h : Sound q z s.pending s.sec.fuses s.csr s.mem s.cyc) :
    Sound q z (s.setWord x v).pending (s.setWord x v).sec.fuses (s.setWord x v).csr (s.setWord x v).mem (s.setWord x v).cyc := ⟨swf_sset h.1, h.2⟩

@[simp] theorem sound_write {s : State} {x : Nat} {v : List Byte} (h : Sound q z s.pending s.sec.fuses s.csr s.mem s.cyc) :
    Sound q z (s.write x v).pending (s.write x v).sec.fuses (s.write x v).csr (s.write x v).mem (s.write x v).cyc := ⟨h.1, memWf_wrBytes v h.2.1, h.2.2⟩

@[simp] theorem sound_resetRegs {s : State} {x y : Nat} (h : Sound q z s.pending s.sec.fuses s.csr s.mem s.cyc) :
    Sound q z (resetRegs s x y).pending (resetRegs s x y).sec.fuses (resetRegs s x y).csr (resetRegs s x y).mem (resetRegs s x y).cyc := ⟨swf_filter h.1, h.2⟩

@[simp] theorem sound_sclear {p : List Instr} {f : Fuses} {c : Sparse Word} {m : Sparse Byte} {k lo hi : Nat} (h : Sound q z p f c m k) :
    Sound q z p f c (sclear lo hi m) k := ⟨h.1, swf_sclear h.2.1, h.2.2⟩

end Sys2Proof.Machine
end

