-- ==== Sys2Proof/Laws/Sound1.lean ====
section
/-! SUPPORT. One lemma for each operation that gives a state: it keeps `Sound`. First the operations below the commands. -/
namespace Sys2Proof.Machine

variable {q : List Instr} {z : Fuses}

@[simp] theorem soundOut_next {t : State} (h : Sound q z t.pending t.sec.fuses t.csr t.mem t.cyc) : SoundOut q z (.next t) := h

@[simp] theorem soundOut_ite {c : Prop} [Decidable c] {a b : Host.Outcome State Fault Refusal} (ha : SoundOut q z a) (hb : SoundOut q z b) :
    SoundOut q z (if c then a else b) := by split <;> assumption

/-- A command's action keeps registers, memory and cycle sound. -/
def SoundAct (q : List Instr) (z : Fuses) : CmdAct → Prop
  | .now f => ∀ a t, Sound q z t.pending t.sec.fuses t.csr t.mem t.cyc → Sound q z (f a t).1.pending (f a t).1.sec.fuses (f a t).1.csr (f a t).1.mem (f a t).1.cyc
  | .job f => ∀ a k t, Sound q z t.pending t.sec.fuses t.csr t.mem t.cyc → Sound q z (f a k t).pending (f a k t).sec.fuses (f a k t).csr (f a k t).mem (f a k t).cyc
  | .jobData _ f => ∀ a k t, Sound q z t.pending t.sec.fuses t.csr t.mem t.cyc → Sound q z (f a k t).pending (f a k t).sec.fuses (f a k t).csr (f a k t).mem (f a k t).cyc

@[simp] theorem soundAct_now {f : List Byte → State → State × List Byte}
    (h : ∀ a t, Sound q z t.pending t.sec.fuses t.csr t.mem t.cyc → Sound q z (f a t).1.pending (f a t).1.sec.fuses (f a t).1.csr (f a t).1.mem (f a t).1.cyc) : SoundAct q z (.now f) := h

@[simp] theorem soundAct_job {f : List Byte → Nat → State → State}
    (h : ∀ a k t, Sound q z t.pending t.sec.fuses t.csr t.mem t.cyc → Sound q z (f a k t).pending (f a k t).sec.fuses (f a k t).csr (f a k t).mem (f a k t).cyc) : SoundAct q z (.job f) := h

@[simp] theorem soundAct_jobData {d : List Byte → State → List Byte} {f : List Byte → Nat → State → State}
    (h : ∀ a k t, Sound q z t.pending t.sec.fuses t.csr t.mem t.cyc → Sound q z (f a k t).pending (f a k t).sec.fuses (f a k t).csr (f a k t).mem (f a k t).cyc) : SoundAct q z (.jobData d f) := h

theorem sound_pair {β : Type} {s : State} {b : β} (h : Sound q z s.pending s.sec.fuses s.csr s.mem s.cyc) : Sound q z (s, b).1.pending (s, b).1.sec.fuses (s, b).1.csr (s, b).1.mem (s, b).1.cyc := h

theorem sound_fst_ite {β : Type} {c : Prop} [Decidable c] {a b : State × β} (ha : Sound q z a.1.pending a.1.sec.fuses a.1.csr a.1.mem a.1.cyc) (hb : Sound q z b.1.pending b.1.sec.fuses b.1.csr b.1.mem b.1.cyc) :
    Sound q z (if c then a else b).1.pending (if c then a else b).1.sec.fuses (if c then a else b).1.csr (if c then a else b).1.mem (if c then a else b).1.cyc := by split <;> assumption

theorem sound_mark {t : State} {l : List BufMark} {b : Batch} (h : Sound q z t.pending t.sec.fuses t.csr t.mem t.cyc) :
    Sound q z (({ t with sched := { t.sched with bufMark := l } }, b) : State × Batch).1.pending (({ t with sched := { t.sched with bufMark := l } }, b) : State × Batch).1.sec.fuses (({ t with sched := { t.sched with bufMark := l } }, b) : State × Batch).1.csr (({ t with sched := { t.sched with bufMark := l } }, b) : State × Batch).1.mem (({ t with sched := { t.sched with bufMark := l } }, b) : State × Batch).1.cyc := h

theorem sound_getD {o : Option State} {b : State} (ho : ∀ t, o = some t → Sound q z t.pending t.sec.fuses t.csr t.mem t.cyc)
    (hb : Sound q z b.pending b.sec.fuses b.csr b.mem b.cyc) :
    Sound q z (o.getD b).pending (o.getD b).sec.fuses (o.getD b).csr (o.getD b).mem (o.getD b).cyc := by
  cases o with
  | none => exact hb
  | some t => exact ho t rfl

theorem sound_orElse {o : Option State} {g : Unit → Option State}
    (ho : ∀ t, o = some t → Sound q z t.pending t.sec.fuses t.csr t.mem t.cyc)
    (hg : ∀ t, g () = some t → Sound q z t.pending t.sec.fuses t.csr t.mem t.cyc) (t : State) (e : o.orElse g = some t) :
    Sound q z t.pending t.sec.fuses t.csr t.mem t.cyc := by
  cases o with
  | none => exact hg t e
  | some u => exact ho t e

theorem sound_toCycle {s : State} {n : Nat} (hn : n < 5120) (h : Sound q z s.pending s.sec.fuses s.csr s.mem s.cyc) :
    Sound q z (s.toCycle n).pending (s.toCycle n).sec.fuses (s.toCycle n).csr (s.toCycle n).mem (s.toCycle n).cyc :=
  ⟨h.1, h.2.1, by show max s.cyc n < 5120; have := h.2.2.1; omega, h.2.2.2⟩

@[simp] theorem sound_atCycle {s : State} {k c : Nat} (h : Sound q z s.pending s.sec.fuses s.csr s.mem s.cyc) :
    Sound q z (s.atCycle k c).pending (s.atCycle k c).sec.fuses (s.atCycle k c).csr (s.atCycle k c).mem (s.atCycle k c).cyc := sound_toCycle (by omega) h

@[simp] theorem sound_atSlot {s : State} {k : Nat} (h : Sound q z s.pending s.sec.fuses s.csr s.mem s.cyc) :
    Sound q z (s.atSlot k).pending (s.atSlot k).sec.fuses (s.atSlot k).csr (s.atSlot k).mem (s.atSlot k).cyc := sound_toCycle (by omega) h

@[simp] theorem sound_updMb {x0 : State} {x1 : Nat} {x2 : Mailbox → Mailbox} (h0 : Sound q z x0.pending x0.sec.fuses x0.csr x0.mem x0.cyc) : Sound q z (State.updMb x0 x1 x2).pending (State.updMb x0 x1 x2).sec.fuses (State.updMb x0 x1 x2).csr (State.updMb x0 x1 x2).mem (State.updMb x0 x1 x2).cyc := by
  unfold State.updMb
  simp (maxDischargeDepth := 40) +contextual [*]

@[simp] theorem sound_cmdCounted {x0 : State} {x1 : Nat} (h0 : Sound q z x0.pending x0.sec.fuses x0.csr x0.mem x0.cyc) : Sound q z (State.cmdCounted x0 x1).pending (State.cmdCounted x0 x1).sec.fuses (State.cmdCounted x0 x1).csr (State.cmdCounted x0 x1).mem (State.cmdCounted x0 x1).cyc := by
  unfold State.cmdCounted
  simp (maxDischargeDepth := 40) +contextual [*]

@[simp] theorem sound_count {x0 : State} {x1 : Fld} {x2 : Nat} (h0 : Sound q z x0.pending x0.sec.fuses x0.csr x0.mem x0.cyc) : Sound q z (State.count x0 x1 x2).pending (State.count x0 x1 x2).sec.fuses (State.count x0 x1 x2).csr (State.count x0 x1 x2).mem (State.count x0 x1 x2).cyc := by
  unfold State.count
  simp (maxDischargeDepth := 40) +contextual [*]

@[simp] theorem sound_countWrap {x0 : State} {x1 : Fld} (h0 : Sound q z x0.pending x0.sec.fuses x0.csr x0.mem x0.cyc) : Sound q z (State.countWrap x0 x1).pending (State.countWrap x0 x1).sec.fuses (State.countWrap x0 x1).csr (State.countWrap x0 x1).mem (State.countWrap x0 x1).cyc := by
  unfold State.countWrap
  simp (maxDischargeDepth := 40) +contextual [*]

@[simp] theorem sound_draw {x0 : State} (h0 : Sound q z x0.pending x0.sec.fuses x0.csr x0.mem x0.cyc) : Sound q z (State.draw x0).pending (State.draw x0).sec.fuses (State.draw x0).csr (State.draw x0).mem (State.draw x0).cyc := by
  unfold State.draw
  simp (maxDischargeDepth := 40) +contextual [*]

@[simp] theorem sound_emit {x0 : State} {x1 : Msg} (h0 : Sound q z x0.pending x0.sec.fuses x0.csr x0.mem x0.cyc) : Sound q z (State.emit x0 x1).pending (State.emit x0 x1).sec.fuses (State.emit x0 x1).csr (State.emit x0 x1).mem (State.emit x0 x1).cyc := by
  unfold State.emit
  simp (maxDischargeDepth := 40) +contextual [*]

@[simp] theorem sound_setSram {x0 : State} {x1 : Nat} {x2 : Nat} {x3 : List Byte} (h0 : Sound q z x0.pending x0.sec.fuses x0.csr x0.mem x0.cyc) : Sound q z (State.setSram x0 x1 x2 x3).pending (State.setSram x0 x1 x2 x3).sec.fuses (State.setSram x0 x1 x2 x3).csr (State.setSram x0 x1 x2 x3).mem (State.setSram x0 x1 x2 x3).cyc := by
  unfold State.setSram
  simp (maxDischargeDepth := 40) +contextual [*]

@[simp] theorem sound_landResults {x0 : State} {x1 : Nat} {x2 : Nat} {x3 : Nat} (h0 : Sound q z x0.pending x0.sec.fuses x0.csr x0.mem x0.cyc) : Sound q z (landResults x0 x1 x2 x3).pending (landResults x0 x1 x2 x3).sec.fuses (landResults x0 x1 x2 x3).csr (landResults x0 x1 x2 x3).mem (landResults x0 x1 x2 x3).cyc := by
  unfold landResults
  simp (maxDischargeDepth := 40) +contextual [*]

@[simp] theorem sound_putSram {x0 : State} {x1 : Nat} {x2 : Nat} {x3 : List Byte} (h0 : Sound q z x0.pending x0.sec.fuses x0.csr x0.mem x0.cyc) : Sound q z (State.putSram x0 x1 x2 x3).pending (State.putSram x0 x1 x2 x3).sec.fuses (State.putSram x0 x1 x2 x3).csr (State.putSram x0 x1 x2 x3).mem (State.putSram x0 x1 x2 x3).cyc := by
  unfold State.putSram
  simp (maxDischargeDepth := 40) +contextual [*]

@[simp] theorem sound_sendCtrl {x0 : State} {x1 : Nat} {x2 : List Byte} (h0 : Sound q z x0.pending x0.sec.fuses x0.csr x0.mem x0.cyc) : Sound q z (State.sendCtrl x0 x1 x2).pending (State.sendCtrl x0 x1 x2).sec.fuses (State.sendCtrl x0 x1 x2).csr (State.sendCtrl x0 x1 x2).mem (State.sendCtrl x0 x1 x2).cyc := by
  unfold State.sendCtrl
  simp (maxDischargeDepth := 40) +contextual [*]

@[simp] theorem sound_setPos {x0 : State} {x1 : Nat} {x2 : Nat} {x3 : Option Pos} (h0 : Sound q z x0.pending x0.sec.fuses x0.csr x0.mem x0.cyc) : Sound q z (State.setPos x0 x1 x2 x3).pending (State.setPos x0 x1 x2 x3).sec.fuses (State.setPos x0 x1 x2 x3).csr (State.setPos x0 x1 x2 x3).mem (State.setPos x0 x1 x2 x3).cyc := by
  unfold State.setPos
  simp (maxDischargeDepth := 40) +contextual [*]

@[simp] theorem sound_setStore {x0 : State} {x1 : Nat} {x2 : Nat} {x3 : List Byte} (h0 : Sound q z x0.pending x0.sec.fuses x0.csr x0.mem x0.cyc) : Sound q z (State.setStore x0 x1 x2 x3).pending (State.setStore x0 x1 x2 x3).sec.fuses (State.setStore x0 x1 x2 x3).csr (State.setStore x0 x1 x2 x3).mem (State.setStore x0 x1 x2 x3).cyc := by
  unfold State.setStore
  simp (maxDischargeDepth := 40) +contextual [*]

@[simp] theorem sound_updJob {x0 : State} {x1 : Nat} {x2 : Nat} {x3 : Job → Job} (h0 : Sound q z x0.pending x0.sec.fuses x0.csr x0.mem x0.cyc) : Sound q z (State.updJob x0 x1 x2 x3).pending (State.updJob x0 x1 x2 x3).sec.fuses (State.updJob x0 x1 x2 x3).csr (State.updJob x0 x1 x2 x3).mem (State.updJob x0 x1 x2 x3).cyc := by
  unfold State.updJob
  simp (maxDischargeDepth := 40) +contextual [*]

@[simp] theorem sound_updLnk {x0 : State} {x1 : Nat} {x2 : Link → Link} (h0 : Sound q z x0.pending x0.sec.fuses x0.csr x0.mem x0.cyc) : Sound q z (State.updLnk x0 x1 x2).pending (State.updLnk x0 x1 x2).sec.fuses (State.updLnk x0 x1 x2).csr (State.updLnk x0 x1 x2).mem (State.updLnk x0 x1 x2).cyc := by
  unfold State.updLnk
  simp (maxDischargeDepth := 40) +contextual [*]

@[simp] theorem sound_updSeq {x0 : State} {x1 : Nat} {x2 : SeqE → SeqE} (h0 : Sound q z x0.pending x0.sec.fuses x0.csr x0.mem x0.cyc) : Sound q z (State.updSeq x0 x1 x2).pending (State.updSeq x0 x1 x2).sec.fuses (State.updSeq x0 x1 x2).csr (State.updSeq x0 x1 x2).mem (State.updSeq x0 x1 x2).cyc := by
  unfold State.updSeq
  simp (maxDischargeDepth := 40) +contextual [*]

@[simp] theorem sound_updSide {x0 : State} {x1 : Nat} {x2 : Side → Side} (h0 : Sound q z x0.pending x0.sec.fuses x0.csr x0.mem x0.cyc) : Sound q z (State.updSide x0 x1 x2).pending (State.updSide x0 x1 x2).sec.fuses (State.updSide x0 x1 x2).csr (State.updSide x0 x1 x2).mem (State.updSide x0 x1 x2).cyc := by
  unfold State.updSide
  simp (maxDischargeDepth := 40) +contextual [*]

@[simp] theorem sound_updTile {x0 : State} {x1 : Nat} {x2 : Tile → Tile} (h0 : Sound q z x0.pending x0.sec.fuses x0.csr x0.mem x0.cyc) : Sound q z (State.updTile x0 x1 x2).pending (State.updTile x0 x1 x2).sec.fuses (State.updTile x0 x1 x2).csr (State.updTile x0 x1 x2).mem (State.updTile x0 x1 x2).cyc := by
  unfold State.updTile
  simp (maxDischargeDepth := 40) +contextual [*]

@[simp] theorem sound_intCause {x0 : State} {x1 : Nat} (h0 : Sound q z x0.pending x0.sec.fuses x0.csr x0.mem x0.cyc) : Sound q z (intCause x0 x1).pending (intCause x0 x1).sec.fuses (intCause x0 x1).csr (intCause x0 x1).mem (intCause x0 x1).cyc := by
  unfold intCause
  simp (maxDischargeDepth := 40) +contextual [*]

@[simp] theorem sound_raiseInt {x0 : State} {x1 : Nat} (h0 : Sound q z x0.pending x0.sec.fuses x0.csr x0.mem x0.cyc) : Sound q z (raiseInt x0 x1).pending (raiseInt x0 x1).sec.fuses (raiseInt x0 x1).csr (raiseInt x0 x1).mem (raiseInt x0 x1).cyc := by
  unfold raiseInt
  simp (maxDischargeDepth := 40) +contextual [*]

@[simp] theorem sound_jobDone {x0 : State} {x1 : Nat} {x2 : Nat} {x3 : Nat} {x4 : List Byte} (h0 : Sound q z x0.pending x0.sec.fuses x0.csr x0.mem x0.cyc) : Sound q z (jobDone x0 x1 x2 x3 x4).pending (jobDone x0 x1 x2 x3 x4).sec.fuses (jobDone x0 x1 x2 x3 x4).csr (jobDone x0 x1 x2 x3 x4).mem (jobDone x0 x1 x2 x3 x4).cyc := by
  unfold jobDone
  try dsimp only
  repeat' first
    | with_reducible assumption
    | with_reducible refine sound_ite ?_ ?_
    | with_reducible refine sound_foldl ?_ (fun _ _ _ => ?_)
    | with_reducible refine sound_updJob ?_
    | with_reducible refine sound_sendCtrl ?_
    | with_reducible refine sound_raiseInt ?_
    | split

@[simp] theorem sound_abandonJobs {x0 : State} (h0 : Sound q z x0.pending x0.sec.fuses x0.csr x0.mem x0.cyc) : Sound q z (abandonJobs x0).pending (abandonJobs x0).sec.fuses (abandonJobs x0).csr (abandonJobs x0).mem (abandonJobs x0).cyc := by
  unfold abandonJobs
  simp (maxDischargeDepth := 40) +contextual [*]

@[simp] theorem sound_forgetJobs {x0 : State} (h0 : Sound q z x0.pending x0.sec.fuses x0.csr x0.mem x0.cyc) : Sound q z (forgetJobs x0).pending (forgetJobs x0).sec.fuses (forgetJobs x0).csr (forgetJobs x0).mem (forgetJobs x0).cyc := by
  unfold forgetJobs
  simp (maxDischargeDepth := 40) +contextual [*]

@[simp] theorem sound_abandonAll {x0 : State} (h0 : Sound q z x0.pending x0.sec.fuses x0.csr x0.mem x0.cyc) : Sound q z (abandonAll x0).pending (abandonAll x0).sec.fuses (abandonAll x0).csr (abandonAll x0).mem (abandonAll x0).cyc := by
  unfold abandonAll
  simp (maxDischargeDepth := 40) +contextual [*]

@[simp] theorem sound_finish {x0 : State} {x1 : Option (Nat × Nat)} {x2 : Nat} {x3 : List Byte} (h0 : Sound q z x0.pending x0.sec.fuses x0.csr x0.mem x0.cyc) : Sound q z (finish x0 x1 x2 x3).pending (finish x0 x1 x2 x3).sec.fuses (finish x0 x1 x2 x3).csr (finish x0 x1 x2 x3).mem (finish x0 x1 x2 x3).cyc := by
  unfold finish
  try dsimp only
  repeat' first
    | with_reducible assumption
    | with_reducible refine sound_ite ?_ ?_
    | with_reducible refine sound_foldl ?_ (fun _ _ _ => ?_)
    | with_reducible refine sound_jobDone ?_
    | split

@[simp] theorem sound_abandonRuns {x0 : State} {x1 : Nat} (h0 : Sound q z x0.pending x0.sec.fuses x0.csr x0.mem x0.cyc) : Sound q z (abandonRuns x0 x1).pending (abandonRuns x0 x1).sec.fuses (abandonRuns x0 x1).csr (abandonRuns x0 x1).mem (abandonRuns x0 x1).cyc := by
  unfold abandonRuns
  simp (maxDischargeDepth := 40) +contextual [*]

@[simp] theorem sound_setUnitGen {x0 : State} {x1 : Nat} {x2 : Nat} (h0 : Sound q z x0.pending x0.sec.fuses x0.csr x0.mem x0.cyc) : Sound q z (setUnitGen x0 x1 x2).pending (setUnitGen x0 x1 x2).sec.fuses (setUnitGen x0 x1 x2).csr (setUnitGen x0 x1 x2).mem (setUnitGen x0 x1 x2).cyc := by
  unfold setUnitGen
  simp (maxDischargeDepth := 40) +contextual [*]

@[simp] theorem sound_setAllGens {x0 : State} {x1 : Nat} (h0 : Sound q z x0.pending x0.sec.fuses x0.csr x0.mem x0.cyc) : Sound q z (setAllGens x0 x1).pending (setAllGens x0 x1).sec.fuses (setAllGens x0 x1).csr (setAllGens x0 x1).mem (setAllGens x0 x1).cyc := by
  unfold setAllGens
  simp (maxDischargeDepth := 40) +contextual [*]

@[simp] theorem sound_swapIdle {x0 : State} (h0 : Sound q z x0.pending x0.sec.fuses x0.csr x0.mem x0.cyc) : Sound q z (swapIdle x0).pending (swapIdle x0).sec.fuses (swapIdle x0).csr (swapIdle x0).mem (swapIdle x0).cyc := by
  unfold swapIdle
  simp (maxDischargeDepth := 40) +contextual [*]

@[simp] theorem sound_pauseCheck {x0 : State} {x1 : Nat} (h0 : Sound q z x0.pending x0.sec.fuses x0.csr x0.mem x0.cyc) : Sound q z (pauseCheck x0 x1).pending (pauseCheck x0 x1).sec.fuses (pauseCheck x0 x1).csr (pauseCheck x0 x1).mem (pauseCheck x0 x1).cyc := by
  unfold pauseCheck
  simp (maxDischargeDepth := 40) +contextual [*]

@[simp] theorem sound_unhold {x0 : State} (h0 : Sound q z x0.pending x0.sec.fuses x0.csr x0.mem x0.cyc) : Sound q z (unhold x0).pending (unhold x0).sec.fuses (unhold x0).csr (unhold x0).mem (unhold x0).cyc := by
  unfold unhold
  simp (maxDischargeDepth := 40) +contextual [*]

@[simp] theorem sound_abortDone {x0 : State} {x1 : Prog} (h0 : Sound q z x0.pending x0.sec.fuses x0.csr x0.mem x0.cyc) : Sound q z (abortDone x0 x1).pending (abortDone x0 x1).sec.fuses (abortDone x0 x1).csr (abortDone x0 x1).mem (abortDone x0 x1).cyc := by
  unfold abortDone
  simp (maxDischargeDepth := 40) +contextual [*]

@[simp] theorem sound_showProg {x0 : State} {x1 : Prog} (h0 : Sound q z x0.pending x0.sec.fuses x0.csr x0.mem x0.cyc) : Sound q z (showProg x0 x1).pending (showProg x0 x1).sec.fuses (showProg x0 x1).csr (showProg x0 x1).mem (showProg x0 x1).cyc := by
  unfold showProg
  try dsimp only
  repeat' first
    | with_reducible assumption
    | with_reducible refine sound_ite ?_ ?_
    | with_reducible refine sound_foldl ?_ (fun _ _ _ => ?_)
    | with_reducible refine sound_setFld ?_
    | with_reducible refine sound_updJob ?_
    | split

@[simp] theorem sound_writeLedger {x0 : State} {x1 : Nat} {x2 : Nat} {x3 : Nat} (h0 : Sound q z x0.pending x0.sec.fuses x0.csr x0.mem x0.cyc) : Sound q z (writeLedger x0 x1 x2 x3).pending (writeLedger x0 x1 x2 x3).sec.fuses (writeLedger x0 x1 x2 x3).csr (writeLedger x0 x1 x2 x3).mem (writeLedger x0 x1 x2 x3).cyc := by
  unfold writeLedger
  simp (maxDischargeDepth := 40) +contextual [*]

@[simp] theorem sound_beginWave {x0 : State} {x1 : Prog} (h0 : Sound q z x0.pending x0.sec.fuses x0.csr x0.mem x0.cyc) : Sound q z (beginWave x0 x1).pending (beginWave x0 x1).sec.fuses (beginWave x0 x1).csr (beginWave x0 x1).mem (beginWave x0 x1).cyc := by
  unfold beginWave
  try dsimp only
  repeat' first
    | with_reducible assumption
    | with_reducible refine sound_ite ?_ ?_
    | with_reducible refine sound_foldl ?_ (fun _ _ _ => ?_)
    | with_reducible refine sound_showProg ?_
    | with_reducible refine sound_writeLedger ?_
    | split

@[simp] theorem sound_loadSection {x0 : State} {x1 : Nat} {x2 : Nat} (h0 : Sound q z x0.pending x0.sec.fuses x0.csr x0.mem x0.cyc) : Sound q z (loadSection x0 x1 x2).pending (loadSection x0 x1 x2).sec.fuses (loadSection x0 x1 x2).csr (loadSection x0 x1 x2).mem (loadSection x0 x1 x2).cyc := by
  unfold loadSection
  simp (maxDischargeDepth := 40) +contextual [*]

@[simp] theorem sound_recordFault_new {x0 : State} {x1 : Nat} {x2 : Nat} {x3 : Nat} {x4 : Nat} {x5 : Nat} {x6 : FaultCtx} {x7 : List Byte} (h0 : Sound q z x0.pending x0.sec.fuses x0.csr x0.mem x0.cyc) : Sound q z (recordFault.new x0 x1 x2 x3 x4 x5 x6 x7).pending (recordFault.new x0 x1 x2 x3 x4 x5 x6 x7).sec.fuses (recordFault.new x0 x1 x2 x3 x4 x5 x6 x7).csr (recordFault.new x0 x1 x2 x3 x4 x5 x6 x7).mem (recordFault.new x0 x1 x2 x3 x4 x5 x6 x7).cyc := by
  unfold recordFault.new
  simp (maxDischargeDepth := 40) +contextual [*]

@[simp] theorem sound_recordFault {x0 : State} {x1 : Nat} {x2 : Nat} {x3 : Nat} {x4 : Nat} {x5 : Nat} {x6 : FaultCtx} {x7 : List Byte} (h0 : Sound q z x0.pending x0.sec.fuses x0.csr x0.mem x0.cyc) : Sound q z (recordFault x0 x1 x2 x3 x4 x5 x6 x7).pending (recordFault x0 x1 x2 x3 x4 x5 x6 x7).sec.fuses (recordFault x0 x1 x2 x3 x4 x5 x6 x7).csr (recordFault x0 x1 x2 x3 x4 x5 x6 x7).mem (recordFault x0 x1 x2 x3 x4 x5 x6 x7).cyc := by
  unfold recordFault
  try dsimp only
  repeat' first
    | with_reducible assumption
    | with_reducible refine sound_ite ?_ ?_
    | with_reducible refine sound_foldl ?_ (fun _ _ _ => ?_)
    | with_reducible refine sound_recordFault_new ?_
    | split

@[simp] theorem sound_markBad {x0 : State} {x1 : Nat} (h0 : Sound q z x0.pending x0.sec.fuses x0.csr x0.mem x0.cyc) : Sound q z (markBad x0 x1).pending (markBad x0 x1).sec.fuses (markBad x0 x1).csr (markBad x0 x1).mem (markBad x0 x1).cyc := by
  unfold markBad
  simp (maxDischargeDepth := 40) +contextual [*]

@[simp] theorem sound_hbmUe {x0 : State} {x1 : Nat} {x2 : Nat} {x3 : Nat} (h0 : Sound q z x0.pending x0.sec.fuses x0.csr x0.mem x0.cyc) : Sound q z (hbmUe x0 x1 x2 x3).pending (hbmUe x0 x1 x2 x3).sec.fuses (hbmUe x0 x1 x2 x3).csr (hbmUe x0 x1 x2 x3).mem (hbmUe x0 x1 x2 x3).cyc := by
  unfold hbmUe
  try dsimp only
  repeat' first
    | with_reducible assumption
    | with_reducible refine sound_ite ?_ ?_
    | with_reducible refine sound_foldl ?_ (fun _ _ _ => ?_)
    | with_reducible refine sound_count ?_
    | with_reducible refine sound_recordFault ?_
    | split

@[simp] theorem sound_memUe {x0 : State} {x1 : Nat} {x2 : Nat} {x3 : Nat} {x4 : FaultCtx} (h0 : Sound q z x0.pending x0.sec.fuses x0.csr x0.mem x0.cyc) : Sound q z (memUe x0 x1 x2 x3 x4).pending (memUe x0 x1 x2 x3 x4).sec.fuses (memUe x0 x1 x2 x3 x4).csr (memUe x0 x1 x2 x3 x4).mem (memUe x0 x1 x2 x3 x4).cyc := by
  unfold memUe
  simp (maxDischargeDepth := 40) +contextual [*]

@[simp] theorem sound_sramUe {x0 : State} {x1 : Nat} {x2 : Nat} {x3 : FaultCtx} (h0 : Sound q z x0.pending x0.sec.fuses x0.csr x0.mem x0.cyc) : Sound q z (sramUe x0 x1 x2 x3).pending (sramUe x0 x1 x2 x3).sec.fuses (sramUe x0 x1 x2 x3).csr (sramUe x0 x1 x2 x3).mem (sramUe x0 x1 x2 x3).cyc := by
  unfold sramUe
  try dsimp only
  repeat' first
    | with_reducible assumption
    | with_reducible refine sound_ite ?_ ?_
    | with_reducible refine sound_foldl ?_ (fun _ _ _ => ?_)
    | with_reducible refine sound_memUe ?_
    | split

@[simp] theorem sound_readUe {x0 : State} {x1 : Nat} {x2 : Nat} {x3 : Nat} (h0 : Sound q z x0.pending x0.sec.fuses x0.csr x0.mem x0.cyc) : Sound q z (readUe x0 x1 x2 x3).pending (readUe x0 x1 x2 x3).sec.fuses (readUe x0 x1 x2 x3).csr (readUe x0 x1 x2 x3).mem (readUe x0 x1 x2 x3).cyc := by
  unfold readUe
  simp (maxDischargeDepth := 40) +contextual [*]

@[simp] theorem sound_readObject {x0 : State} {x1 : Nat} {x2 : Nat} {x3 : Nat} (h0 : Sound q z x0.pending x0.sec.fuses x0.csr x0.mem x0.cyc) : Sound q z (readObject x0 x1 x2 x3).pending (readObject x0 x1 x2 x3).sec.fuses (readObject x0 x1 x2 x3).csr (readObject x0 x1 x2 x3).mem (readObject x0 x1 x2 x3).cyc := by
  unfold readObject
  simp (maxDischargeDepth := 40) +contextual [*]

@[simp] theorem sound_loadGood {x0 : State} {x1 : Nat} {x2 : Nat → Bool} (h0 : Sound q z x0.pending x0.sec.fuses x0.csr x0.mem x0.cyc) : Sound q z (loadGood x0 x1 x2).pending (loadGood x0 x1 x2).sec.fuses (loadGood x0 x1 x2).csr (loadGood x0 x1 x2).mem (loadGood x0 x1 x2).cyc := by
  unfold loadGood
  simp (maxDischargeDepth := 40) +contextual [*]

@[simp] theorem sound_setHead {x0 : State} {x1 : Prog} (h0 : Sound q z x0.pending x0.sec.fuses x0.csr x0.mem x0.cyc) : Sound q z (setHead x0 x1).pending (setHead x0 x1).sec.fuses (setHead x0 x1).csr (setHead x0 x1).mem (setHead x0 x1).cyc := by
  unfold setHead
  simp (maxDischargeDepth := 40) +contextual [*]

@[simp] theorem sound_progBegin {x0 : State} (h0 : Sound q z x0.pending x0.sec.fuses x0.csr x0.mem x0.cyc) : Sound q z (progBegin x0).pending (progBegin x0).sec.fuses (progBegin x0).csr (progBegin x0).mem (progBegin x0).cyc := by
  unfold progBegin
  try dsimp only
  repeat' first
    | with_reducible assumption
    | with_reducible refine sound_ite ?_ ?_
    | with_reducible refine sound_foldl ?_ (fun _ _ _ => ?_)
    | with_reducible refine sound_loadGood ?_
    | with_reducible refine sound_beginWave ?_
    | with_reducible refine sound_setHead ?_
    | split

@[simp] theorem sound_enterState {x0 : State} {x1 : DieState} (h0 : Sound q z x0.pending x0.sec.fuses x0.csr x0.mem x0.cyc) : Sound q z (enterState x0 x1).pending (enterState x0 x1).sec.fuses (enterState x0 x1).csr (enterState x0 x1).mem (enterState x0 x1).cyc := by
  unfold enterState
  simp (maxDischargeDepth := 40) +contextual [*]

@[simp] theorem sound_loadedCheck {x0 : State} (h0 : Sound q z x0.pending x0.sec.fuses x0.csr x0.mem x0.cyc) : Sound q z (loadedCheck x0).pending (loadedCheck x0).sec.fuses (loadedCheck x0).csr (loadedCheck x0).mem (loadedCheck x0).cyc := by
  unfold loadedCheck
  simp (maxDischargeDepth := 40) +contextual [*]

@[simp] theorem sound_unitDone {x0 : State} {x1 : Prog} (h0 : Sound q z x0.pending x0.sec.fuses x0.csr x0.mem x0.cyc) : Sound q z (unitDone x0 x1).pending (unitDone x0 x1).sec.fuses (unitDone x0 x1).csr (unitDone x0 x1).mem (unitDone x0 x1).cyc := by
  unfold unitDone
  simp (maxDischargeDepth := 40) +contextual [*]

@[simp] theorem sound_progEnd {x0 : State} {x1 : Prog} (h0 : Sound q z x0.pending x0.sec.fuses x0.csr x0.mem x0.cyc) : Sound q z (progEnd x0 x1).pending (progEnd x0 x1).sec.fuses (progEnd x0 x1).csr (progEnd x0 x1).mem (progEnd x0 x1).cyc := by
  unfold progEnd
  try dsimp only
  repeat' first
    | with_reducible assumption
    | with_reducible refine sound_ite ?_ ?_
    | with_reducible refine sound_foldl ?_ (fun _ _ _ => ?_)
    | with_reducible refine sound_setAllGens ?_
    | with_reducible refine sound_loadedCheck ?_
    | with_reducible refine sound_finish ?_
    | with_reducible refine sound_unitDone ?_
    | with_reducible refine sound_abortDone ?_
    | split

@[simp] theorem sound_progRun {n : Nat} : ∀ {s : State}, Sound q z s.pending s.sec.fuses s.csr s.mem s.cyc →
    Sound q z (progRun n s).pending (progRun n s).sec.fuses (progRun n s).csr (progRun n s).mem (progRun n s).cyc := by
  induction n with
  | zero => intro s h; exact h
  | succ n ih =>
    intro s h
    unfold progRun
    dsimp only
    repeat' first
      | with_reducible assumption
      | with_reducible refine sound_ite ?_ ?_
      | with_reducible refine ih ?_
      | with_reducible refine sound_progEnd ?_
      | with_reducible refine sound_progBegin ?_
      | split

@[simp] theorem sound_runProgs {x0 : State} (h0 : Sound q z x0.pending x0.sec.fuses x0.csr x0.mem x0.cyc) : Sound q z (runProgs x0).pending (runProgs x0).sec.fuses (runProgs x0).csr (runProgs x0).mem (runProgs x0).cyc := by
  unfold runProgs
  simp (maxDischargeDepth := 40) +contextual [*]

@[simp] theorem sound_addProg {x0 : State} {x1 : Prog} (h0 : Sound q z x0.pending x0.sec.fuses x0.csr x0.mem x0.cyc) : Sound q z (addProg x0 x1).pending (addProg x0 x1).sec.fuses (addProg x0 x1).csr (addProg x0 x1).mem (addProg x0 x1).cyc := by
  unfold addProg
  simp (maxDischargeDepth := 40) +contextual [*]

@[simp] theorem sound_finishAll {x0 : State} {x1 : Nat} {x2 : Nat} {x3 : List Byte} (h0 : Sound q z x0.pending x0.sec.fuses x0.csr x0.mem x0.cyc) : Sound q z (finishAll x0 x1 x2 x3).pending (finishAll x0 x1 x2 x3).sec.fuses (finishAll x0 x1 x2 x3).csr (finishAll x0 x1 x2 x3).mem (finishAll x0 x1 x2 x3).cyc := by
  unfold finishAll
  simp (maxDischargeDepth := 40) +contextual [*]

@[simp] theorem sound_abortStart {x0 : Nat} {x1 : Nat} {x2 : State} (h2 : Sound q z x2.pending x2.sec.fuses x2.csr x2.mem x2.cyc) : Sound q z (abortStart x0 x1 x2).pending (abortStart x0 x1 x2).sec.fuses (abortStart x0 x1 x2).csr (abortStart x0 x1 x2).mem (abortStart x0 x1 x2).cyc := by
  unfold abortStart
  simp (maxDischargeDepth := 40) +contextual [*]

@[simp] theorem sound_endFetch {x0 : State} {x1 : Fetch} {x2 : Nat} {x3 : Nat} (h0 : Sound q z x0.pending x0.sec.fuses x0.csr x0.mem x0.cyc) : Sound q z (endFetch x0 x1 x2 x3).pending (endFetch x0 x1 x2 x3).sec.fuses (endFetch x0 x1 x2 x3).csr (endFetch x0 x1 x2 x3).mem (endFetch x0 x1 x2 x3).cyc := by
  unfold endFetch
  simp (maxDischargeDepth := 40) +contextual [*]

@[simp] theorem sound_takeShard {x0 : State} {x1 : Nat} (h0 : Sound q z x0.pending x0.sec.fuses x0.csr x0.mem x0.cyc) : Sound q z (takeShard x0 x1).pending (takeShard x0 x1).sec.fuses (takeShard x0 x1).csr (takeShard x0 x1).mem (takeShard x0 x1).cyc := by
  unfold takeShard
  simp (maxDischargeDepth := 40) +contextual [*]

@[simp] theorem sound_setProt {x0 : State} {x1 : Nat} {x2 : Option (Nat × Nat)} (h0 : Sound q z x0.pending x0.sec.fuses x0.csr x0.mem x0.cyc) : Sound q z (setProt x0 x1 x2).pending (setProt x0 x1 x2).sec.fuses (setProt x0 x1 x2).csr (setProt x0 x1 x2).mem (setProt x0 x1 x2).cyc := by
  unfold setProt
  try dsimp only
  repeat' first
    | with_reducible assumption
    | with_reducible refine sound_ite ?_ ?_
    | with_reducible refine sound_foldl ?_ (fun _ _ _ => ?_)
    | with_reducible refine sound_setFld ?_
    | with_reducible refine sound_setWord ?_
    | split

@[simp] theorem sound_uninstall {s : State} (h : Sound q z s.pending s.sec.fuses s.csr s.mem s.cyc) :
    Sound q z (uninstall s).pending (uninstall s).sec.fuses (uninstall s).csr (uninstall s).mem (uninstall s).cyc := by
  unfold uninstall
  dsimp only
  with_reducible exact sound_setProt (sound_setFld h)

@[simp] theorem sound_activate {s : State} (h : Sound q z s.pending s.sec.fuses s.csr s.mem s.cyc) :
    Sound q z (activate s).pending (activate s).sec.fuses (activate s).csr (activate s).mem (activate s).cyc := by
  unfold activate
  dsimp only
  repeat' first
    | with_reducible assumption
    | with_reducible refine sound_ite ?_ ?_
    | with_reducible refine sound_enterState ?_
    | with_reducible refine sound_uninstall ?_
    | with_reducible refine sound_takeShard ?_
    | with_reducible refine sound_endFetch ?_
    | split

@[simp] theorem sound_setLane {x0 : State} {x1 : Nat} {x2 : Nat} {x3 : Int} (h0 : Sound q z x0.pending x0.sec.fuses x0.csr x0.mem x0.cyc) : Sound q z (setLane x0 x1 x2 x3).pending (setLane x0 x1 x2 x3).sec.fuses (setLane x0 x1 x2 x3).csr (setLane x0 x1 x2 x3).mem (setLane x0 x1 x2 x3).cyc := by
  unfold setLane
  simp (maxDischargeDepth := 40) +contextual [*]

@[simp] theorem sound_addLanes {x0 : State} {x1 : Nat} {x2 : Nat} {x3 : Nat} {x4 : List (Nat × Int)} (h0 : Sound q z x0.pending x0.sec.fuses x0.csr x0.mem x0.cyc) : Sound q z (addLanes x0 x1 x2 x3 x4).pending (addLanes x0 x1 x2 x3 x4).sec.fuses (addLanes x0 x1 x2 x3 x4).csr (addLanes x0 x1 x2 x3 x4).mem (addLanes x0 x1 x2 x3 x4).cyc := by
  unfold addLanes
  simp (maxDischargeDepth := 40) +contextual [*]

@[simp] theorem sound_setStage {x0 : State} {x1 : Nat} {x2 : Nat} (h0 : Sound q z x0.pending x0.sec.fuses x0.csr x0.mem x0.cyc) : Sound q z (setStage x0 x1 x2).pending (setStage x0 x1 x2).sec.fuses (setStage x0 x1 x2).csr (setStage x0 x1 x2).mem (setStage x0 x1 x2).cyc := by
  unfold setStage
  simp (maxDischargeDepth := 40) +contextual [*]

@[simp] theorem sound_powerDone {x0 : State} {x1 : Nat} (h0 : Sound q z x0.pending x0.sec.fuses x0.csr x0.mem x0.cyc) : Sound q z (powerDone x0 x1).pending (powerDone x0 x1).sec.fuses (powerDone x0 x1).csr (powerDone x0 x1).mem (powerDone x0 x1).cyc := by
  unfold powerDone
  simp (maxDischargeDepth := 40) +contextual [*]

@[simp] theorem sound_bringUpDone {x0 : State} {x1 : Nat} (h0 : Sound q z x0.pending x0.sec.fuses x0.csr x0.mem x0.cyc) : Sound q z (bringUpDone x0 x1).pending (bringUpDone x0 x1).sec.fuses (bringUpDone x0 x1).csr (bringUpDone x0 x1).mem (bringUpDone x0 x1).cyc := by
  unfold bringUpDone
  try dsimp only
  repeat' first
    | with_reducible assumption
    | with_reducible refine sound_ite ?_ ?_
    | with_reducible refine sound_foldl ?_ (fun _ _ _ => ?_)
    | with_reducible refine sound_powerDone ?_
    | with_reducible refine sound_setStage ?_
    | with_reducible refine sound_jobDone ?_
    | split

@[simp] theorem sound_bringUpFail {x0 : State} {x1 : Nat} {x2 : Nat} (h0 : Sound q z x0.pending x0.sec.fuses x0.csr x0.mem x0.cyc) : Sound q z (bringUpFail x0 x1 x2).pending (bringUpFail x0 x1 x2).sec.fuses (bringUpFail x0 x1 x2).csr (bringUpFail x0 x1 x2).mem (bringUpFail x0 x1 x2).cyc := by
  unfold bringUpFail
  try dsimp only
  repeat' first
    | with_reducible assumption
    | with_reducible refine sound_ite ?_ ?_
    | with_reducible refine sound_foldl ?_ (fun _ _ _ => ?_)
    | with_reducible refine sound_recordFault ?_
    | with_reducible refine sound_setStage ?_
    | with_reducible refine sound_jobDone ?_
    | split

@[simp] theorem sound_dropLanes {x0 : State} {x1 : Nat} (h0 : Sound q z x0.pending x0.sec.fuses x0.csr x0.mem x0.cyc) : Sound q z (dropLanes x0 x1).pending (dropLanes x0 x1).sec.fuses (dropLanes x0 x1).csr (dropLanes x0 x1).mem (dropLanes x0 x1).cyc := by
  unfold dropLanes
  simp (maxDischargeDepth := 40) +contextual [*]

@[simp] theorem sound_setLink {x0 : State} {x1 : Nat} {x2 : LinkState} (h0 : Sound q z x0.pending x0.sec.fuses x0.csr x0.mem x0.cyc) : Sound q z (setLink x0 x1 x2).pending (setLink x0 x1 x2).sec.fuses (setLink x0 x1 x2).csr (setLink x0 x1 x2).mem (setLink x0 x1 x2).cyc := by
  unfold setLink
  simp (maxDischargeDepth := 40) +contextual [*]

@[simp] theorem sound_disableLink {x0 : State} {x1 : Nat} (h0 : Sound q z x0.pending x0.sec.fuses x0.csr x0.mem x0.cyc) : Sound q z (disableLink x0 x1).pending (disableLink x0 x1).sec.fuses (disableLink x0 x1).csr (disableLink x0 x1).mem (disableLink x0 x1).cyc := by
  unfold disableLink
  simp (maxDischargeDepth := 40) +contextual [*]

@[simp] theorem sound_onDisable {x0 : State} {x1 : Nat} (h0 : Sound q z x0.pending x0.sec.fuses x0.csr x0.mem x0.cyc) : Sound q z (onDisable x0 x1).pending (onDisable x0 x1).sec.fuses (onDisable x0 x1).csr (onDisable x0 x1).mem (onDisable x0 x1).cyc := by
  unfold onDisable
  simp (maxDischargeDepth := 40) +contextual [*]

@[simp] theorem sound_clearEnable {x0 : State} {x1 : Nat} (h0 : Sound q z x0.pending x0.sec.fuses x0.csr x0.mem x0.cyc) : Sound q z (clearEnable x0 x1).pending (clearEnable x0 x1).sec.fuses (clearEnable x0 x1).csr (clearEnable x0 x1).mem (clearEnable x0 x1).cyc := by
  unfold clearEnable
  try dsimp only
  repeat' first
    | with_reducible assumption
    | with_reducible refine sound_ite ?_ ?_
    | with_reducible refine sound_foldl ?_ (fun _ _ _ => ?_)
    | with_reducible refine sound_onDisable ?_
    | with_reducible refine sound_setFld ?_
    | split

@[simp] theorem sound_refuseEnable {x0 : State} {x1 : Nat} (h0 : Sound q z x0.pending x0.sec.fuses x0.csr x0.mem x0.cyc) : Sound q z (refuseEnable x0 x1).pending (refuseEnable x0 x1).sec.fuses (refuseEnable x0 x1).csr (refuseEnable x0 x1).mem (refuseEnable x0 x1).cyc := by
  unfold refuseEnable
  simp (maxDischargeDepth := 40) +contextual [*]

@[simp] theorem sound_initRanges {x0 : State} {x1 : Nat} (h0 : Sound q z x0.pending x0.sec.fuses x0.csr x0.mem x0.cyc) : Sound q z (initRanges x0 x1).pending (initRanges x0 x1).sec.fuses (initRanges x0 x1).csr (initRanges x0 x1).mem (initRanges x0 x1).cyc := by
  unfold initRanges
  simp (maxDischargeDepth := 40) +contextual [*]

@[simp] theorem sound_updTq {x0 : State} {x1 : Nat} {x2 : Nat} {x3 : TqWin → TqWin} (h0 : Sound q z x0.pending x0.sec.fuses x0.csr x0.mem x0.cyc) : Sound q z (updTq x0 x1 x2 x3).pending (updTq x0 x1 x2 x3).sec.fuses (updTq x0 x1 x2 x3).csr (updTq x0 x1 x2 x3).mem (updTq x0 x1 x2 x3).cyc := by
  unfold updTq
  simp (maxDischargeDepth := 40) +contextual [*]

@[simp] theorem sound_initTq {x0 : State} {x1 : Nat} (h0 : Sound q z x0.pending x0.sec.fuses x0.csr x0.mem x0.cyc) : Sound q z (initTq x0 x1).pending (initTq x0 x1).sec.fuses (initTq x0 x1).csr (initTq x0 x1).mem (initTq x0 x1).cyc := by
  unfold initTq
  simp (maxDischargeDepth := 40) +contextual [*]

@[simp] theorem sound_requestPower {x0 : State} {x1 : List Nat} (h0 : Sound q z x0.pending x0.sec.fuses x0.csr x0.mem x0.cyc) : Sound q z (requestPower x0 x1).pending (requestPower x0 x1).sec.fuses (requestPower x0 x1).csr (requestPower x0 x1).mem (requestPower x0 x1).cyc := by
  unfold requestPower
  simp (maxDischargeDepth := 40) +contextual [*]

@[simp] theorem sound_startTraining {x0 : State} {x1 : Nat} (h0 : Sound q z x0.pending x0.sec.fuses x0.csr x0.mem x0.cyc) : Sound q z (startTraining x0 x1).pending (startTraining x0 x1).sec.fuses (startTraining x0 x1).csr (startTraining x0 x1).mem (startTraining x0 x1).cyc := by
  unfold startTraining
  simp (maxDischargeDepth := 40) +contextual [*]

@[simp] theorem sound_takePort {x0 : State} {x1 : Nat} (h0 : Sound q z x0.pending x0.sec.fuses x0.csr x0.mem x0.cyc) : Sound q z (takePort x0 x1).pending (takePort x0 x1).sec.fuses (takePort x0 x1).csr (takePort x0 x1).mem (takePort x0 x1).cyc := by
  unfold takePort
  simp (maxDischargeDepth := 40) +contextual [*]

@[simp] theorem sound_enterAcquiring {x0 : State} (h0 : Sound q z x0.pending x0.sec.fuses x0.csr x0.mem x0.cyc) : Sound q z (enterAcquiring x0).pending (enterAcquiring x0).sec.fuses (enterAcquiring x0).csr (enterAcquiring x0).mem (enterAcquiring x0).cyc := by
  unfold enterAcquiring
  try dsimp only
  repeat' first
    | with_reducible assumption
    | with_reducible refine sound_ite ?_ ?_
    | with_reducible refine sound_foldl ?_ (fun _ _ _ => ?_)
    | with_reducible refine sound_takePort ?_
    | split

@[simp] theorem sound_enterRoot {s : State} (h : Sound q z s.pending s.sec.fuses s.csr s.mem s.cyc) :
    Sound q z (enterRoot s).pending (enterRoot s).sec.fuses (enterRoot s).csr (enterRoot s).mem (enterRoot s).cyc := by
  have h1 : s.sec.startNs % 2048 * 5 / 2 < 5120 := by omega
  unfold enterRoot
  extract_lets _ s1 _ s2 s3 s4
  have k1 : Sound q z s1.pending s1.sec.fuses s1.csr s1.mem s1.cyc := by
    show Sound q z (if _ then _ else _ : State).pending (if _ then _ else _ : State).sec.fuses (if _ then _ else _ : State).csr (if _ then _ else _ : State).mem (if _ then _ else _ : State).cyc
    split
    · exact ⟨h.1, h.2.1, h1, h.2.2.2⟩
    · exact h
  have k3 : Sound q z s3.pending s3.sec.fuses s3.csr s3.mem s3.cyc := sound_setFld (sound_setFld (s := s2) k1)
  have k4 : Sound q z s4.pending s4.sec.fuses s4.csr s4.mem s4.cyc := sound_ite (sound_takePort k3) k3
  exact sound_ite (sound_enterState k4) k4

@[simp] theorem sound_timeStart {x0 : State} (h0 : Sound q z x0.pending x0.sec.fuses x0.csr x0.mem x0.cyc) : Sound q z (timeStart x0).pending (timeStart x0).sec.fuses (timeStart x0).csr (timeStart x0).mem (timeStart x0).cyc := by
  unfold timeStart
  simp (maxDischargeDepth := 40) +contextual [*]

@[simp] theorem sound_onEnable {x0 : State} {x1 : Nat} (h0 : Sound q z x0.pending x0.sec.fuses x0.csr x0.mem x0.cyc) : Sound q z (onEnable x0 x1).pending (onEnable x0 x1).sec.fuses (onEnable x0 x1).csr (onEnable x0 x1).mem (onEnable x0 x1).cyc := by
  unfold onEnable
  simp (maxDischargeDepth := 40) +contextual [*]

@[simp] theorem sound_setEnable {x0 : State} {x1 : Nat} (h0 : Sound q z x0.pending x0.sec.fuses x0.csr x0.mem x0.cyc) : Sound q z (setEnable x0 x1).pending (setEnable x0 x1).sec.fuses (setEnable x0 x1).csr (setEnable x0 x1).mem (setEnable x0 x1).cyc := by
  unfold setEnable
  try dsimp only
  repeat' first
    | with_reducible assumption
    | with_reducible refine sound_ite ?_ ?_
    | with_reducible refine sound_foldl ?_ (fun _ _ _ => ?_)
    | with_reducible refine sound_onEnable ?_
    | with_reducible refine sound_setFld ?_
    | split

@[simp] theorem sound_writeEnable {x0 : State} {x1 : Nat} {x2 : Nat} {x3 : Nat} (h0 : Sound q z x0.pending x0.sec.fuses x0.csr x0.mem x0.cyc) : Sound q z (writeEnable x0 x1 x2 x3).pending (writeEnable x0 x1 x2 x3).sec.fuses (writeEnable x0 x1 x2 x3).csr (writeEnable x0 x1 x2 x3).mem (writeEnable x0 x1 x2 x3).cyc := by
  unfold writeEnable
  simp (maxDischargeDepth := 40) +contextual [*]

@[simp] theorem sound_stepEnable {x0 : State} {x1 : Nat} (h0 : Sound q z x0.pending x0.sec.fuses x0.csr x0.mem x0.cyc) : Sound q z (stepEnable x0 x1).pending (stepEnable x0 x1).sec.fuses (stepEnable x0 x1).csr (stepEnable x0 x1).mem (stepEnable x0 x1).cyc := by
  unfold stepEnable
  simp (maxDischargeDepth := 40) +contextual [*]

@[simp] theorem sound_joinRewrite {x0 : State} {x1 : List (Nat × Nat)} (h0 : Sound q z x0.pending x0.sec.fuses x0.csr x0.mem x0.cyc) : Sound q z (joinRewrite x0 x1).pending (joinRewrite x0 x1).sec.fuses (joinRewrite x0 x1).csr (joinRewrite x0 x1).mem (joinRewrite x0 x1).cyc := by
  unfold joinRewrite
  try dsimp only
  repeat' first
    | with_reducible assumption
    | with_reducible refine sound_ite ?_ ?_
    | with_reducible refine sound_foldl ?_ (fun _ _ _ => ?_)
    | with_reducible refine sound_beginWave ?_
    | split

@[simp] theorem sound_stepProgram {x0 : State} {x1 : Nat} (h0 : Sound q z x0.pending x0.sec.fuses x0.csr x0.mem x0.cyc) : Sound q z (stepProgram x0 x1).pending (stepProgram x0 x1).sec.fuses (stepProgram x0 x1).csr (stepProgram x0 x1).mem (stepProgram x0 x1).cyc := by
  unfold stepProgram
  simp (maxDischargeDepth := 40) +contextual [*]

@[simp] theorem sound_startCheck {x0 : State} {x1 : Nat} (h0 : Sound q z x0.pending x0.sec.fuses x0.csr x0.mem x0.cyc) : Sound q z (startCheck x0 x1).pending (startCheck x0 x1).sec.fuses (startCheck x0 x1).csr (startCheck x0 x1).mem (startCheck x0 x1).cyc := by
  unfold startCheck
  simp (maxDischargeDepth := 40) +contextual [*]

@[simp] theorem sound_stepSample {x0 : State} {x1 : Nat} (h0 : Sound q z x0.pending x0.sec.fuses x0.csr x0.mem x0.cyc) : Sound q z (stepSample x0 x1).pending (stepSample x0 x1).sec.fuses (stepSample x0 x1).csr (stepSample x0 x1).mem (stepSample x0 x1).cyc := by
  unfold stepSample
  simp (maxDischargeDepth := 40) +contextual [*]

@[simp] theorem sound_stepSections {x0 : State} {x1 : Nat} (h0 : Sound q z x0.pending x0.sec.fuses x0.csr x0.mem x0.cyc) : Sound q z (stepSections x0 x1).pending (stepSections x0 x1).sec.fuses (stepSections x0 x1).csr (stepSections x0 x1).mem (stepSections x0 x1).cyc := by
  unfold stepSections
  try dsimp only
  repeat' first
    | with_reducible assumption
    | with_reducible refine sound_ite ?_ ?_
    | with_reducible refine sound_foldl ?_ (fun _ _ _ => ?_)
    | with_reducible refine sound_setStage ?_
    | with_reducible refine sound_readUe ?_
    | with_reducible refine sound_bringUpFail ?_
    | with_reducible refine sound_markBad ?_
    | with_reducible refine sound_loadSection ?_
    | with_reducible refine sound_setUnitGen ?_
    | split

@[simp] theorem sound_bringUpStep {x0 : State} {x1 : Nat} (h0 : Sound q z x0.pending x0.sec.fuses x0.csr x0.mem x0.cyc) : Sound q z (bringUpStep x0 x1).pending (bringUpStep x0 x1).sec.fuses (bringUpStep x0 x1).csr (bringUpStep x0 x1).mem (bringUpStep x0 x1).cyc := by
  unfold bringUpStep
  simp (maxDischargeDepth := 40) +contextual [*]

@[simp] theorem sound_servePower {x0 : State} (h0 : Sound q z x0.pending x0.sec.fuses x0.csr x0.mem x0.cyc) : Sound q z (servePower x0).pending (servePower x0).sec.fuses (servePower x0).csr (servePower x0).mem (servePower x0).cyc := by
  unfold servePower
  try dsimp only
  repeat' first
    | with_reducible assumption
    | with_reducible refine sound_ite ?_ ?_
    | with_reducible refine sound_foldl ?_ (fun _ _ _ => ?_)
    | with_reducible refine sound_powerDone ?_
    | with_reducible refine sound_bringUpFail ?_
    | with_reducible refine sound_requestPower ?_
    | with_reducible refine sound_setStage ?_
    | split

@[simp] theorem sound_bringUps {x0 : State} (h0 : Sound q z x0.pending x0.sec.fuses x0.csr x0.mem x0.cyc) : Sound q z (bringUps x0).pending (bringUps x0).sec.fuses (bringUps x0).csr (bringUps x0).mem (bringUps x0).cyc := by
  unfold bringUps
  simp (maxDischargeDepth := 40) +contextual [*]

@[simp] theorem sound_returnFrame {x0 : State} {x1 : Nat} {x2 : Nat} (h0 : Sound q z x0.pending x0.sec.fuses x0.csr x0.mem x0.cyc) : Sound q z (returnFrame x0 x1 x2).pending (returnFrame x0 x1 x2).sec.fuses (returnFrame x0 x1 x2).csr (returnFrame x0 x1 x2).mem (returnFrame x0 x1 x2).cyc := by
  unfold returnFrame
  simp (maxDischargeDepth := 40) +contextual [*]

@[simp] theorem sound_closeRanges {x0 : State} (h0 : Sound q z x0.pending x0.sec.fuses x0.csr x0.mem x0.cyc) : Sound q z (closeRanges x0).pending (closeRanges x0).sec.fuses (closeRanges x0).csr (closeRanges x0).mem (closeRanges x0).cyc := by
  unfold closeRanges
  simp (maxDischargeDepth := 40) +contextual [*]

@[simp] theorem sound_countSwitches {x0 : State} (h0 : Sound q z x0.pending x0.sec.fuses x0.csr x0.mem x0.cyc) : Sound q z (countSwitches x0).pending (countSwitches x0).sec.fuses (countSwitches x0).csr (countSwitches x0).mem (countSwitches x0).cyc := by
  unfold countSwitches
  simp (maxDischargeDepth := 40) +contextual [*]

@[simp] theorem sound_resumeCheck {x0 : State} {x1 : Nat} (h0 : Sound q z x0.pending x0.sec.fuses x0.csr x0.mem x0.cyc) : Sound q z (resumeCheck x0 x1).pending (resumeCheck x0 x1).sec.fuses (resumeCheck x0 x1).csr (resumeCheck x0 x1).mem (resumeCheck x0 x1).cyc := by
  unfold resumeCheck
  simp (maxDischargeDepth := 40) +contextual [*]

@[simp] theorem sound_enqueue {x0 : State} {x1 : OutReq} (h0 : Sound q z x0.pending x0.sec.fuses x0.csr x0.mem x0.cyc) : Sound q z (enqueue x0 x1).pending (enqueue x0 x1).sec.fuses (enqueue x0 x1).csr (enqueue x0 x1).mem (enqueue x0 x1).cyc := by
  unfold enqueue
  simp (maxDischargeDepth := 40) +contextual [*]

@[simp] theorem sound_dirStore {x0 : State} {x1 : Nat} {x2 : DirSt} {x3 : Nat} {x4 : Nat} {x5 : Nat} {x6 : ReqWhy} (h0 : Sound q z x0.pending x0.sec.fuses x0.csr x0.mem x0.cyc) : Sound q z (dirStore x0 x1 x2 x3 x4 x5 x6).pending (dirStore x0 x1 x2 x3 x4 x5 x6).sec.fuses (dirStore x0 x1 x2 x3 x4 x5 x6).csr (dirStore x0 x1 x2 x3 x4 x5 x6).mem (dirStore x0 x1 x2 x3 x4 x5 x6).cyc := by
  unfold dirStore
  simp (maxDischargeDepth := 40) +contextual [*]

@[simp] theorem sound_storeLen {x0 : State} {x1 : Nat} {x2 : DirSt} {x3 : Nat} (h0 : Sound q z x0.pending x0.sec.fuses x0.csr x0.mem x0.cyc) : Sound q z (storeLen x0 x1 x2 x3).pending (storeLen x0 x1 x2 x3).sec.fuses (storeLen x0 x1 x2 x3).csr (storeLen x0 x1 x2 x3).mem (storeLen x0 x1 x2 x3).cyc := by
  unfold storeLen
  simp (maxDischargeDepth := 40) +contextual [*]

@[simp] theorem sound_updDir {x0 : State} {x1 : Nat} {x2 : Nat} {x3 : DirSt → DirSt} (h0 : Sound q z x0.pending x0.sec.fuses x0.csr x0.mem x0.cyc) : Sound q z (updDir x0 x1 x2 x3).pending (updDir x0 x1 x2 x3).sec.fuses (updDir x0 x1 x2 x3).csr (updDir x0 x1 x2 x3).mem (updDir x0 x1 x2 x3).cyc := by
  unfold updDir
  simp (maxDischargeDepth := 40) +contextual [*]

@[simp] theorem sound_storeLength {x0 : State} {x1 : Nat} (h0 : Sound q z x0.pending x0.sec.fuses x0.csr x0.mem x0.cyc) : Sound q z (storeLength x0 x1).pending (storeLength x0 x1).sec.fuses (storeLength x0 x1).csr (storeLength x0 x1).mem (storeLength x0 x1).cyc := by
  unfold storeLength
  simp (maxDischargeDepth := 40) +contextual [*]

@[simp] theorem sound_unparkSeq {x0 : State} {x1 : Nat} (h0 : Sound q z x0.pending x0.sec.fuses x0.csr x0.mem x0.cyc) : Sound q z (unparkSeq x0 x1).pending (unparkSeq x0 x1).sec.fuses (unparkSeq x0 x1).csr (unparkSeq x0 x1).mem (unparkSeq x0 x1).cyc := by
  unfold unparkSeq
  simp (maxDischargeDepth := 40) +contextual [*]

@[simp] theorem sound_capResume {x0 : State} (h0 : Sound q z x0.pending x0.sec.fuses x0.csr x0.mem x0.cyc) : Sound q z (capResume x0).pending (capResume x0).sec.fuses (capResume x0).csr (capResume x0).mem (capResume x0).cyc := by
  unfold capResume
  simp (maxDischargeDepth := 40) +contextual [*]

@[simp] theorem sound_releaseBudget {x0 : State} {x1 : Nat} (h0 : Sound q z x0.pending x0.sec.fuses x0.csr x0.mem x0.cyc) : Sound q z (releaseBudget x0 x1).pending (releaseBudget x0 x1).sec.fuses (releaseBudget x0 x1).csr (releaseBudget x0 x1).mem (releaseBudget x0 x1).cyc := by
  unfold releaseBudget
  simp (maxDischargeDepth := 40) +contextual [*]

@[simp] theorem sound_freeSeq {x0 : State} {x1 : Nat} (h0 : Sound q z x0.pending x0.sec.fuses x0.csr x0.mem x0.cyc) : Sound q z (freeSeq x0 x1).pending (freeSeq x0 x1).sec.fuses (freeSeq x0 x1).csr (freeSeq x0 x1).mem (freeSeq x0 x1).cyc := by
  unfold freeSeq
  simp (maxDischargeDepth := 40) +contextual [*]

@[simp] theorem sound_freeCheck {x0 : State} {x1 : Nat} (h0 : Sound q z x0.pending x0.sec.fuses x0.csr x0.mem x0.cyc) : Sound q z (freeCheck x0 x1).pending (freeCheck x0 x1).sec.fuses (freeCheck x0 x1).csr (freeCheck x0 x1).mem (freeCheck x0 x1).cyc := by
  unfold freeCheck
  simp (maxDischargeDepth := 40) +contextual [*]

@[simp] theorem sound_storeRelease {x0 : State} {x1 : Nat} {x2 : DirSt} {x3 : Nat} (h0 : Sound q z x0.pending x0.sec.fuses x0.csr x0.mem x0.cyc) : Sound q z (storeRelease x0 x1 x2 x3).pending (storeRelease x0 x1 x2 x3).sec.fuses (storeRelease x0 x1 x2 x3).csr (storeRelease x0 x1 x2 x3).mem (storeRelease x0 x1 x2 x3).cyc := by
  unfold storeRelease
  simp (maxDischargeDepth := 40) +contextual [*]

@[simp] theorem sound_releaseDirs {x0 : State} {x1 : Nat} (h0 : Sound q z x0.pending x0.sec.fuses x0.csr x0.mem x0.cyc) : Sound q z (releaseDirs x0 x1).pending (releaseDirs x0 x1).sec.fuses (releaseDirs x0 x1).csr (releaseDirs x0 x1).mem (releaseDirs x0 x1).cyc := by
  unfold releaseDirs
  simp (maxDischargeDepth := 40) +contextual [*]

@[simp] theorem sound_writeTok {x0 : State} {x1 : Nat} {x2 : Nat} {x3 : Nat} {x4 : Bool} {x5 : Bool} {x6 : Option Nat} (h0 : Sound q z x0.pending x0.sec.fuses x0.csr x0.mem x0.cyc) : Sound q z (writeTok x0 x1 x2 x3 x4 x5 x6).pending (writeTok x0 x1 x2 x3 x4 x5 x6).sec.fuses (writeTok x0 x1 x2 x3 x4 x5 x6).csr (writeTok x0 x1 x2 x3 x4 x5 x6).mem (writeTok x0 x1 x2 x3 x4 x5 x6).cyc := by
  unfold writeTok
  simp (maxDischargeDepth := 40) +contextual [*]

@[simp] theorem sound_endSeq {x0 : State} {x1 : Nat} {x2 : Nat} (h0 : Sound q z x0.pending x0.sec.fuses x0.csr x0.mem x0.cyc) : Sound q z (endSeq x0 x1 x2).pending (endSeq x0 x1 x2).sec.fuses (endSeq x0 x1 x2).csr (endSeq x0 x1 x2).mem (endSeq x0 x1 x2).cyc := by
  unfold endSeq
  simp (maxDischargeDepth := 40) +contextual [*]

@[simp] theorem sound_expireSeqs {x0 : State} (h0 : Sound q z x0.pending x0.sec.fuses x0.csr x0.mem x0.cyc) : Sound q z (expireSeqs x0).pending (expireSeqs x0).sec.fuses (expireSeqs x0).csr (expireSeqs x0).mem (expireSeqs x0).cyc := by
  unfold expireSeqs
  simp (maxDischargeDepth := 40) +contextual [*]

@[simp] theorem sound_pendByAge {x0 : State} {x1 : Nat} (h0 : Sound q z x0.pending x0.sec.fuses x0.csr x0.mem x0.cyc) : Sound q z (pendByAge x0 x1).pending (pendByAge x0 x1).sec.fuses (pendByAge x0 x1).csr (pendByAge x0 x1).mem (pendByAge x0 x1).cyc := by
  unfold pendByAge
  simp (maxDischargeDepth := 40) +contextual [*]

@[simp] theorem sound_ageTiles {x0 : State} (h0 : Sound q z x0.pending x0.sec.fuses x0.csr x0.mem x0.cyc) : Sound q z (ageTiles x0).pending (ageTiles x0).sec.fuses (ageTiles x0).csr (ageTiles x0).mem (ageTiles x0).cyc := by
  unfold ageTiles
  simp (maxDischargeDepth := 40) +contextual [*]

@[simp] theorem sound_joinCheck {x0 : State} (h0 : Sound q z x0.pending x0.sec.fuses x0.csr x0.mem x0.cyc) : Sound q z (joinCheck x0).pending (joinCheck x0).sec.fuses (joinCheck x0).csr (joinCheck x0).mem (joinCheck x0).cyc := by
  unfold joinCheck
  simp (maxDischargeDepth := 40) +contextual [*]

@[simp] theorem sound_placeImages {x0 : List Byte} {x1 : List Byte} {x2 : List Byte} {x3 : State} (h3 : Sound q z x3.pending x3.sec.fuses x3.csr x3.mem x3.cyc) : Sound q z (placeImages x0 x1 x2 x3).pending (placeImages x0 x1 x2 x3).sec.fuses (placeImages x0 x1 x2 x3).csr (placeImages x0 x1 x2 x3).mem (placeImages x0 x1 x2 x3).cyc := by
  unfold placeImages
  simp (maxDischargeDepth := 40) +contextual [*]

@[simp] theorem sound_takeImages {x0 : List Byte} {x1 : List Byte} {x2 : List Byte} {x3 : State} (h3 : Sound q z x3.pending x3.sec.fuses x3.csr x3.mem x3.cyc) : Sound q z (takeImages x0 x1 x2 x3).pending (takeImages x0 x1 x2 x3).sec.fuses (takeImages x0 x1 x2 x3).csr (takeImages x0 x1 x2 x3).mem (takeImages x0 x1 x2 x3).cyc := by
  unfold takeImages
  simp (maxDischargeDepth := 40) +contextual [*]

@[simp] theorem sound_runInstall {x0 : State} {x1 : Nat} {x2 : Nat} (h0 : Sound q z x0.pending x0.sec.fuses x0.csr x0.mem x0.cyc) : Sound q z (runInstall x0 x1 x2).pending (runInstall x0 x1 x2).sec.fuses (runInstall x0 x1 x2).csr (runInstall x0 x1 x2).mem (runInstall x0 x1 x2).cyc := by
  unfold runInstall
  try dsimp only
  repeat' first
    | with_reducible assumption
    | with_reducible refine sound_ite ?_ ?_
    | with_reducible refine sound_foldl ?_ (fun _ _ _ => ?_)
    | with_reducible refine sound_jobDone ?_
    | with_reducible refine sound_readUe ?_
    | with_reducible refine sound_placeImages ?_
    | with_reducible refine sound_loadedCheck ?_
    | with_reducible refine sound_takeImages ?_
    | with_reducible refine sound_requestPower ?_
    | split

@[simp] theorem sound_resumeInstalls {x0 : State} (h0 : Sound q z x0.pending x0.sec.fuses x0.csr x0.mem x0.cyc) : Sound q z (resumeInstalls x0).pending (resumeInstalls x0).sec.fuses (resumeInstalls x0).csr (resumeInstalls x0).mem (resumeInstalls x0).cyc := by
  unfold resumeInstalls
  simp (maxDischargeDepth := 40) +contextual [*]

@[simp] theorem sound_lateInstalls {x0 : State} (h0 : Sound q z x0.pending x0.sec.fuses x0.csr x0.mem x0.cyc) : Sound q z (lateInstalls x0).pending (lateInstalls x0).sec.fuses (lateInstalls x0).csr (lateInstalls x0).mem (lateInstalls x0).cyc := by
  unfold lateInstalls
  simp (maxDischargeDepth := 40) +contextual [*]

@[simp] theorem sound_notifyEnds {x0 : State} (h0 : Sound q z x0.pending x0.sec.fuses x0.csr x0.mem x0.cyc) : Sound q z (notifyEnds x0).pending (notifyEnds x0).sec.fuses (notifyEnds x0).csr (notifyEnds x0).mem (notifyEnds x0).cyc := by
  unfold notifyEnds
  simp (maxDischargeDepth := 40) +contextual [*]

@[simp] theorem sound_bindFailed {x0 : State} {x1 : Nat} {x2 : Nat} (h0 : Sound q z x0.pending x0.sec.fuses x0.csr x0.mem x0.cyc) : Sound q z (bindFailed x0 x1 x2).pending (bindFailed x0 x1 x2).sec.fuses (bindFailed x0 x1 x2).csr (bindFailed x0 x1 x2).mem (bindFailed x0 x1 x2).cyc := by
  unfold bindFailed
  simp (maxDischargeDepth := 40) +contextual [*]

@[simp] theorem sound_dropDir {x0 : State} {x1 : Nat} {x2 : Nat} (h0 : Sound q z x0.pending x0.sec.fuses x0.csr x0.mem x0.cyc) : Sound q z (dropDir x0 x1 x2).pending (dropDir x0 x1 x2).sec.fuses (dropDir x0 x1 x2).csr (dropDir x0 x1 x2).mem (dropDir x0 x1 x2).cyc := by
  unfold dropDir
  simp (maxDischargeDepth := 40) +contextual [*]

@[simp] theorem sound_storeBind {x0 : State} {x1 : Nat} {x2 : DirSt} {x3 : Nat} (h0 : Sound q z x0.pending x0.sec.fuses x0.csr x0.mem x0.cyc) : Sound q z (storeBind x0 x1 x2 x3).pending (storeBind x0 x1 x2 x3).sec.fuses (storeBind x0 x1 x2 x3).csr (storeBind x0 x1 x2 x3).mem (storeBind x0 x1 x2 x3).cyc := by
  unfold storeBind
  simp (maxDischargeDepth := 40) +contextual [*]

@[simp] theorem sound_bindDone {x0 : State} {x1 : Nat} {x2 : Nat} {x3 : Nat} {x4 : Nat} (h0 : Sound q z x0.pending x0.sec.fuses x0.csr x0.mem x0.cyc) : Sound q z (bindDone x0 x1 x2 x3 x4).pending (bindDone x0 x1 x2 x3 x4).sec.fuses (bindDone x0 x1 x2 x3 x4).csr (bindDone x0 x1 x2 x3 x4).mem (bindDone x0 x1 x2 x3 x4).cyc := by
  unfold bindDone
  try dsimp only
  repeat' first
    | with_reducible assumption
    | with_reducible refine sound_ite ?_ ?_
    | with_reducible refine sound_foldl ?_ (fun _ _ _ => ?_)
    | with_reducible refine sound_dropDir ?_
    | with_reducible refine sound_storeLen ?_
    | with_reducible refine sound_updDir ?_
    | with_reducible refine sound_storeBind ?_
    | with_reducible refine sound_bindFailed ?_
    | split

@[simp] theorem sound_pollDir {x0 : State} {x1 : Nat} {x2 : DirSt} {x3 : Nat} (h0 : Sound q z x0.pending x0.sec.fuses x0.csr x0.mem x0.cyc) : Sound q z (pollDir x0 x1 x2 x3).pending (pollDir x0 x1 x2 x3).sec.fuses (pollDir x0 x1 x2 x3).csr (pollDir x0 x1 x2 x3).mem (pollDir x0 x1 x2 x3).cyc := by
  unfold pollDir
  simp (maxDischargeDepth := 40) +contextual [*]

@[simp] theorem sound_lengthDone {x0 : State} {x1 : Nat} {x2 : Nat} {x3 : Nat} {x4 : Nat} (h0 : Sound q z x0.pending x0.sec.fuses x0.csr x0.mem x0.cyc) : Sound q z (lengthDone x0 x1 x2 x3 x4).pending (lengthDone x0 x1 x2 x3 x4).sec.fuses (lengthDone x0 x1 x2 x3 x4).csr (lengthDone x0 x1 x2 x3 x4).mem (lengthDone x0 x1 x2 x3 x4).cyc := by
  unfold lengthDone
  try dsimp only
  repeat' first
    | with_reducible assumption
    | with_reducible refine sound_ite ?_ ?_
    | with_reducible refine sound_foldl ?_ (fun _ _ _ => ?_)
    | with_reducible refine sound_updDir ?_
    | with_reducible refine sound_releaseDirs ?_
    | with_reducible refine sound_pollDir ?_
    | with_reducible refine sound_storeLen ?_
    | with_reducible refine sound_count ?_
    | with_reducible refine sound_freeCheck ?_
    | with_reducible refine sound_bindFailed ?_
    | with_reducible refine sound_updSeq ?_
    | split

@[simp] theorem sound_mapLoad {x0 : State} (h0 : Sound q z x0.pending x0.sec.fuses x0.csr x0.mem x0.cyc) : Sound q z (mapLoad x0).pending (mapLoad x0).sec.fuses (mapLoad x0).csr (mapLoad x0).mem (mapLoad x0).cyc := by
  unfold mapLoad
  try dsimp only
  repeat' first
    | with_reducible assumption
    | with_reducible refine sound_ite ?_ ?_
    | with_reducible refine sound_foldl ?_ (fun _ _ _ => ?_)
    | with_reducible refine sound_enqueue ?_
    | split

@[simp] theorem sound_mapReadStop {x0 : State} (h0 : Sound q z x0.pending x0.sec.fuses x0.csr x0.mem x0.cyc) : Sound q z (mapReadStop x0).pending (mapReadStop x0).sec.fuses (mapReadStop x0).csr (mapReadStop x0).mem (mapReadStop x0).cyc := by
  unfold mapReadStop
  simp (maxDischargeDepth := 40) +contextual [*]

@[simp] theorem sound_awaitMap {x0 : State} {x1 : TopoMap} {x2 : Option (Nat × Nat)} (h0 : Sound q z x0.pending x0.sec.fuses x0.csr x0.mem x0.cyc) : Sound q z (awaitMap x0 x1 x2).pending (awaitMap x0 x1 x2).sec.fuses (awaitMap x0 x1 x2).csr (awaitMap x0 x1 x2).mem (awaitMap x0 x1 x2).cyc := by
  unfold awaitMap
  try dsimp only
  repeat' first
    | with_reducible assumption
    | with_reducible refine sound_ite ?_ ?_
    | with_reducible refine sound_foldl ?_ (fun _ _ _ => ?_)
    | with_reducible refine sound_finish ?_
    | split

@[simp] theorem sound_sigFail {x0 : State} (h0 : Sound q z x0.pending x0.sec.fuses x0.csr x0.mem x0.cyc) : Sound q z (sigFail x0).pending (sigFail x0).sec.fuses (sigFail x0).csr (sigFail x0).mem (sigFail x0).cyc := by
  unfold sigFail
  simp (maxDischargeDepth := 40) +contextual [*]

@[simp] theorem sound_takeMap {x0 : State} {x1 : List Byte} {x2 : Nat} {x3 : Option (Nat × Nat)} (h0 : Sound q z x0.pending x0.sec.fuses x0.csr x0.mem x0.cyc) : Sound q z (takeMap x0 x1 x2 x3).pending (takeMap x0 x1 x2 x3).sec.fuses (takeMap x0 x1 x2 x3).csr (takeMap x0 x1 x2 x3).mem (takeMap x0 x1 x2 x3).cyc := by
  unfold takeMap
  simp (maxDischargeDepth := 40) +contextual [*]

@[simp] theorem sound_mapReadDone {x0 : State} {x1 : Nat} {x2 : Nat} {x3 : List Byte} (h0 : Sound q z x0.pending x0.sec.fuses x0.csr x0.mem x0.cyc) : Sound q z (mapReadDone x0 x1 x2 x3).pending (mapReadDone x0 x1 x2 x3).sec.fuses (mapReadDone x0 x1 x2 x3).csr (mapReadDone x0 x1 x2 x3).mem (mapReadDone x0 x1 x2 x3).cyc := by
  unfold mapReadDone
  try dsimp only
  repeat' first
    | with_reducible assumption
    | with_reducible refine sound_ite ?_ ?_
    | with_reducible refine sound_foldl ?_ (fun _ _ _ => ?_)
    | with_reducible refine sound_mapReadStop ?_
    | with_reducible refine sound_mapLoad ?_
    | with_reducible refine sound_takeMap ?_
    | split

@[simp] theorem sound_setDirStatus {x0 : State} {x1 : Nat} {x2 : Nat} (h0 : Sound q z x0.pending x0.sec.fuses x0.csr x0.mem x0.cyc) : Sound q z (setDirStatus x0 x1 x2).pending (setDirStatus x0 x1 x2).sec.fuses (setDirStatus x0 x1 x2).csr (setDirStatus x0 x1 x2).mem (setDirStatus x0 x1 x2).cyc := by
  unfold setDirStatus
  simp (maxDischargeDepth := 40) +contextual [*]

@[simp] theorem sound_parkSettled {x0 : State} {x1 : Nat} (h0 : Sound q z x0.pending x0.sec.fuses x0.csr x0.mem x0.cyc) : Sound q z (parkSettled x0 x1).pending (parkSettled x0 x1).sec.fuses (parkSettled x0 x1).csr (parkSettled x0 x1).mem (parkSettled x0 x1).cyc := by
  unfold parkSettled
  try dsimp only
  repeat' first
    | with_reducible assumption
    | with_reducible refine sound_ite ?_ ?_
    | with_reducible refine sound_foldl ?_ (fun _ _ _ => ?_)
    | with_reducible refine sound_setDirStatus ?_
    | split

@[simp] theorem sound_unparkMark {x0 : State} {x1 : Nat} (h0 : Sound q z x0.pending x0.sec.fuses x0.csr x0.mem x0.cyc) : Sound q z (unparkMark x0 x1).pending (unparkMark x0 x1).sec.fuses (unparkMark x0 x1).csr (unparkMark x0 x1).mem (unparkMark x0 x1).cyc := by
  unfold unparkMark
  simp (maxDischargeDepth := 40) +contextual [*]

@[simp] theorem sound_parkDone {x0 : State} {x1 : Nat} {x2 : Nat} {x3 : Bool} (h0 : Sound q z x0.pending x0.sec.fuses x0.csr x0.mem x0.cyc) : Sound q z (parkDone x0 x1 x2 x3).pending (parkDone x0 x1 x2 x3).sec.fuses (parkDone x0 x1 x2 x3).csr (parkDone x0 x1 x2 x3).mem (parkDone x0 x1 x2 x3).cyc := by
  unfold parkDone
  simp (maxDischargeDepth := 40) +contextual [*]

@[simp] theorem sound_partDone {x0 : State} {x1 : Nat} {x2 : Nat} {x3 : Nat} {x4 : Bool} (h0 : Sound q z x0.pending x0.sec.fuses x0.csr x0.mem x0.cyc) : Sound q z (partDone x0 x1 x2 x3 x4).pending (partDone x0 x1 x2 x3 x4).sec.fuses (partDone x0 x1 x2 x3 x4).csr (partDone x0 x1 x2 x3 x4).mem (partDone x0 x1 x2 x3 x4).cyc := by
  unfold partDone
  simp (maxDischargeDepth := 40) +contextual [*]

@[simp] theorem sound_boundCheck {x0 : State} {x1 : Nat} (h0 : Sound q z x0.pending x0.sec.fuses x0.csr x0.mem x0.cyc) : Sound q z (boundCheck x0 x1).pending (boundCheck x0 x1).sec.fuses (boundCheck x0 x1).csr (boundCheck x0 x1).mem (boundCheck x0 x1).cyc := by
  unfold boundCheck
  simp (maxDischargeDepth := 40) +contextual [*]

@[simp] theorem sound_parkSeq {x0 : State} {x1 : Nat} (h0 : Sound q z x0.pending x0.sec.fuses x0.csr x0.mem x0.cyc) : Sound q z (parkSeq x0 x1).pending (parkSeq x0 x1).sec.fuses (parkSeq x0 x1).csr (parkSeq x0 x1).mem (parkSeq x0 x1).cyc := by
  unfold parkSeq
  simp (maxDischargeDepth := 40) +contextual [*]

@[simp] theorem sound_pollDone {x0 : State} {x1 : Nat} {x2 : Nat} {x3 : Nat} {x4 : Nat} {x5 : List Byte} (h0 : Sound q z x0.pending x0.sec.fuses x0.csr x0.mem x0.cyc) : Sound q z (pollDone x0 x1 x2 x3 x4 x5).pending (pollDone x0 x1 x2 x3 x4 x5).sec.fuses (pollDone x0 x1 x2 x3 x4 x5).csr (pollDone x0 x1 x2 x3 x4 x5).mem (pollDone x0 x1 x2 x3 x4 x5).cyc := by
  unfold pollDone
  try dsimp only
  repeat' first
    | with_reducible assumption
    | with_reducible refine sound_ite ?_ ?_
    | with_reducible refine sound_foldl ?_ (fun _ _ _ => ?_)
    | with_reducible refine sound_pollDir ?_
    | with_reducible refine sound_bindFailed ?_
    | with_reducible refine sound_updDir ?_
    | with_reducible refine sound_boundCheck ?_
    | with_reducible refine sound_parkSeq ?_
    | with_reducible refine sound_resumeCheck ?_
    | split

@[simp] theorem sound_releaseDone {x0 : State} {x1 : Nat} {x2 : Nat} {x3 : Nat} {x4 : Nat} (h0 : Sound q z x0.pending x0.sec.fuses x0.csr x0.mem x0.cyc) : Sound q z (releaseDone x0 x1 x2 x3 x4).pending (releaseDone x0 x1 x2 x3 x4).sec.fuses (releaseDone x0 x1 x2 x3 x4).csr (releaseDone x0 x1 x2 x3 x4).mem (releaseDone x0 x1 x2 x3 x4).cyc := by
  unfold releaseDone
  try dsimp only
  repeat' first
    | with_reducible assumption
    | with_reducible refine sound_ite ?_ ?_
    | with_reducible refine sound_foldl ?_ (fun _ _ _ => ?_)
    | with_reducible refine sound_storeRelease ?_
    | with_reducible refine sound_freeCheck ?_
    | with_reducible refine sound_updDir ?_
    | split

@[simp] theorem sound_remoteDone {x0 : State} {x1 : Nat} {x2 : Nat} {x3 : OutReq} {x4 : Ans} (h0 : Sound q z x0.pending x0.sec.fuses x0.csr x0.mem x0.cyc) : Sound q z (remoteDone x0 x1 x2 x3 x4).pending (remoteDone x0 x1 x2 x3 x4).sec.fuses (remoteDone x0 x1 x2 x3 x4).csr (remoteDone x0 x1 x2 x3 x4).mem (remoteDone x0 x1 x2 x3 x4).cyc := by
  unfold remoteDone
  simp (maxDischargeDepth := 40) +contextual [*]

@[simp] theorem sound_writeDesc {x0 : State} {x1 : Nat} {x2 : Nat} {x3 : Bool} {x4 : Nat} {x5 : Nat} (h0 : Sound q z x0.pending x0.sec.fuses x0.csr x0.mem x0.cyc) : Sound q z (writeDesc x0 x1 x2 x3 x4 x5).pending (writeDesc x0 x1 x2 x3 x4 x5).sec.fuses (writeDesc x0 x1 x2 x3 x4 x5).csr (writeDesc x0 x1 x2 x3 x4 x5).mem (writeDesc x0 x1 x2 x3 x4 x5).cyc := by
  unfold writeDesc
  simp (maxDischargeDepth := 40) +contextual [*]

@[simp] theorem sound_unparkDone {x0 : State} {x1 : Nat} {x2 : Nat} {x3 : Nat} {x4 : Bool} (h0 : Sound q z x0.pending x0.sec.fuses x0.csr x0.mem x0.cyc) : Sound q z (unparkDone x0 x1 x2 x3 x4).pending (unparkDone x0 x1 x2 x3 x4).sec.fuses (unparkDone x0 x1 x2 x3 x4).csr (unparkDone x0 x1 x2 x3 x4).mem (unparkDone x0 x1 x2 x3 x4).cyc := by
  unfold unparkDone
  try dsimp only
  repeat' first
    | with_reducible assumption
    | with_reducible refine sound_ite ?_ ?_
    | with_reducible refine sound_foldl ?_ (fun _ _ _ => ?_)
    | with_reducible refine sound_returnFrame ?_
    | with_reducible refine sound_unparkMark ?_
    | with_reducible refine sound_writeDesc ?_
    | with_reducible refine sound_parkSettled ?_
    | split

@[simp] theorem sound_complete {x0 : State} {x1 : OutReq} {x2 : Ans} (h0 : Sound q z x0.pending x0.sec.fuses x0.csr x0.mem x0.cyc) : Sound q z (complete x0 x1 x2).pending (complete x0 x1 x2).sec.fuses (complete x0 x1 x2).csr (complete x0 x1 x2).mem (complete x0 x1 x2).cyc := by
  unfold complete
  try dsimp only
  repeat' first
    | with_reducible assumption
    | with_reducible refine sound_ite ?_ ?_
    | with_reducible refine sound_foldl ?_ (fun _ _ _ => ?_)
    | with_reducible refine sound_remoteDone ?_
    | with_reducible refine sound_partDone ?_
    | with_reducible refine sound_mapReadDone ?_
    | with_reducible refine sound_bindDone ?_
    | with_reducible refine sound_lengthDone ?_
    | with_reducible refine sound_releaseDone ?_
    | with_reducible refine sound_pollDone ?_
    | with_reducible refine sound_parkDone ?_
    | with_reducible refine sound_unparkDone ?_
    | split

@[simp] theorem sound_dropReq {x0 : State} {x1 : Nat} (h0 : Sound q z x0.pending x0.sec.fuses x0.csr x0.mem x0.cyc) : Sound q z (dropReq x0 x1).pending (dropReq x0 x1).sec.fuses (dropReq x0 x1).csr (dropReq x0 x1).mem (dropReq x0 x1).cyc := by
  unfold dropReq
  simp (maxDischargeDepth := 40) +contextual [*]

@[simp] theorem sound_answerTag {x0 : State} {x1 : Nat} {x2 : Ans} (h0 : Sound q z x0.pending x0.sec.fuses x0.csr x0.mem x0.cyc) : Sound q z (answerTag x0 x1 x2).pending (answerTag x0 x1 x2).sec.fuses (answerTag x0 x1 x2).csr (answerTag x0 x1 x2).mem (answerTag x0 x1 x2).cyc := by
  unfold answerTag
  try dsimp only
  repeat' first
    | with_reducible assumption
    | with_reducible refine sound_ite ?_ ?_
    | with_reducible refine sound_foldl ?_ (fun _ _ _ => ?_)
    | with_reducible refine sound_complete ?_
    | with_reducible refine sound_dropReq ?_
    | split

@[simp] theorem sound_busError {x0 : State} {x1 : Nat} {x2 : Bool} {x3 : Nat} (h0 : Sound q z x0.pending x0.sec.fuses x0.csr x0.mem x0.cyc) : Sound q z (busError x0 x1 x2 x3).pending (busError x0 x1 x2 x3).sec.fuses (busError x0 x1 x2 x3).csr (busError x0 x1 x2 x3).mem (busError x0 x1 x2 x3).cyc := by
  unfold busError
  simp (maxDischargeDepth := 40) +contextual [*]

@[simp] theorem sound_noteRoute {x0 : State} {x1 : Nat} {x2 : Bool} (h0 : Sound q z x0.pending x0.sec.fuses x0.csr x0.mem x0.cyc) : Sound q z (noteRoute x0 x1 x2).pending (noteRoute x0 x1 x2).sec.fuses (noteRoute x0 x1 x2).csr (noteRoute x0 x1 x2).mem (noteRoute x0 x1 x2).cyc := by
  unfold noteRoute
  simp (maxDischargeDepth := 40) +contextual [*]

theorem sound_crossMesh {x0 : State} {x1 x2 : Nat} {y : State} (h0 : Sound q z x0.pending x0.sec.fuses x0.csr x0.mem x0.cyc) (e : crossMesh x0 x1 x2 = some y) : Sound q z y.pending y.sec.fuses y.csr y.mem y.cyc := by
  obtain ⟨b, _, rfl⟩ := Option.map_eq_some_iff.mp e
  exact sound_noteRoute h0

@[simp] theorem sound_mbxReadEffects {x0 : State} {x1 : Nat} {x2 : Nat} (h0 : Sound q z x0.pending x0.sec.fuses x0.csr x0.mem x0.cyc) : Sound q z (mbxReadEffects x0 x1 x2).pending (mbxReadEffects x0 x1 x2).sec.fuses (mbxReadEffects x0 x1 x2).csr (mbxReadEffects x0 x1 x2).mem (mbxReadEffects x0 x1 x2).cyc := by
  unfold mbxReadEffects
  simp (maxDischargeDepth := 40) +contextual [*]

@[simp] theorem sound_readEffects {x0 : State} {x1 : Nat} (h0 : Sound q z x0.pending x0.sec.fuses x0.csr x0.mem x0.cyc) : Sound q z (readEffects x0 x1).pending (readEffects x0 x1).sec.fuses (readEffects x0 x1).csr (readEffects x0 x1).mem (readEffects x0 x1).cyc := by
  unfold readEffects
  try dsimp only
  repeat' first
    | with_reducible assumption
    | with_reducible refine sound_ite ?_ ?_
    | with_reducible refine sound_foldl ?_ (fun _ _ _ => ?_)
    | with_reducible refine sound_setWord ?_
    | split

@[simp] theorem sound_csrReadEffects {x0 : State} {x1 : Nat} (h0 : Sound q z x0.pending x0.sec.fuses x0.csr x0.mem x0.cyc) : Sound q z (csrReadEffects x0 x1).pending (csrReadEffects x0 x1).sec.fuses (csrReadEffects x0 x1).csr (csrReadEffects x0 x1).mem (csrReadEffects x0 x1).cyc := by
  unfold csrReadEffects
  simp (maxDischargeDepth := 40) +contextual [*]

@[simp] theorem sound_csrRead {n : Nat} : ∀ {s : State} {o : Nat}, Sound q z s.pending s.sec.fuses s.csr s.mem s.cyc →
    Sound q z (csrRead s o n).1.pending (csrRead s o n).1.sec.fuses (csrRead s o n).1.csr (csrRead s o n).1.mem (csrRead s o n).1.cyc := by
  induction n with
  | zero => intro s o h; exact h
  | succ n ih => intro s o h; exact ih (sound_csrReadEffects h)

@[simp] theorem sound_mbxAck {x0 : State} {x1 : Nat} {x2 : Nat} (h0 : Sound q z x0.pending x0.sec.fuses x0.csr x0.mem x0.cyc) : Sound q z (mbxAck x0 x1 x2).pending (mbxAck x0 x1 x2).sec.fuses (mbxAck x0 x1 x2).csr (mbxAck x0 x1 x2).mem (mbxAck x0 x1 x2).cyc := by
  unfold mbxAck
  simp (maxDischargeDepth := 40) +contextual [*]

@[simp] theorem sound_mbxCmd {x0 : State} {x1 : Nat} {x2 : Nat} {x3 : List Byte} (h0 : Sound q z x0.pending x0.sec.fuses x0.csr x0.mem x0.cyc) : Sound q z (mbxCmd x0 x1 x2 x3).pending (mbxCmd x0 x1 x2 x3).sec.fuses (mbxCmd x0 x1 x2 x3).csr (mbxCmd x0 x1 x2 x3).mem (mbxCmd x0 x1 x2 x3).cyc := by
  unfold mbxCmd
  simp (maxDischargeDepth := 40) +contextual [*]

@[simp] theorem sound_mbxGo {x0 : State} {x1 : Nat} {x2 : Option Nat} (h0 : Sound q z x0.pending x0.sec.fuses x0.csr x0.mem x0.cyc) : Sound q z (mbxGo x0 x1 x2).pending (mbxGo x0 x1 x2).sec.fuses (mbxGo x0 x1 x2).csr (mbxGo x0 x1 x2).mem (mbxGo x0 x1 x2).cyc := by
  unfold mbxGo
  try dsimp only
  repeat' first
    | with_reducible assumption
    | with_reducible refine sound_ite ?_ ?_
    | with_reducible refine sound_foldl ?_ (fun _ _ _ => ?_)
    | with_reducible refine sound_updMb ?_
    | split

@[simp] theorem sound_mbxWrite {x0 : State} {x1 : Nat} {x2 : Nat} {x3 : Word} {x4 : Option Nat} (h0 : Sound q z x0.pending x0.sec.fuses x0.csr x0.mem x0.cyc) : Sound q z (mbxWrite x0 x1 x2 x3 x4).pending (mbxWrite x0 x1 x2 x3 x4).sec.fuses (mbxWrite x0 x1 x2 x3 x4).csr (mbxWrite x0 x1 x2 x3 x4).mem (mbxWrite x0 x1 x2 x3 x4).cyc := by
  unfold mbxWrite
  simp (maxDischargeDepth := 40) +contextual [*]

@[simp] theorem sound_maskWritten {x0 : State} {x1 : Word} (h0 : Sound q z x0.pending x0.sec.fuses x0.csr x0.mem x0.cyc) : Sound q z (maskWritten x0 x1).pending (maskWritten x0 x1).sec.fuses (maskWritten x0 x1).csr (maskWritten x0 x1).mem (maskWritten x0 x1).cyc := by
  unfold maskWritten
  simp (maxDischargeDepth := 40) +contextual [*]

@[simp] theorem sound_storeCfg {x0 : State} {x1 : Nat} {x2 : Word} (h0 : Sound q z x0.pending x0.sec.fuses x0.csr x0.mem x0.cyc) : Sound q z (storeCfg x0 x1 x2).pending (storeCfg x0 x1 x2).sec.fuses (storeCfg x0 x1 x2).csr (storeCfg x0 x1 x2).mem (storeCfg x0 x1 x2).cyc := by
  unfold storeCfg
  simp (maxDischargeDepth := 40) +contextual [*]

@[simp] theorem sound_writeCfg {x0 : State} {x1 : Nat} {x2 : Nat} {x3 : Word} (h0 : Sound q z x0.pending x0.sec.fuses x0.csr x0.mem x0.cyc) : Sound q z (writeCfg x0 x1 x2 x3).pending (writeCfg x0 x1 x2 x3).sec.fuses (writeCfg x0 x1 x2 x3).csr (writeCfg x0 x1 x2 x3).mem (writeCfg x0 x1 x2 x3).cyc := by
  unfold writeCfg
  simp (maxDischargeDepth := 40) +contextual [*]

@[simp] theorem sound_writeEnables {x0 : State} {x1 : Nat} {x2 : Nat} {x3 : Word} (h0 : Sound q z x0.pending x0.sec.fuses x0.csr x0.mem x0.cyc) : Sound q z (writeEnables x0 x1 x2 x3).pending (writeEnables x0 x1 x2 x3).sec.fuses (writeEnables x0 x1 x2 x3).csr (writeEnables x0 x1 x2 x3).mem (writeEnables x0 x1 x2 x3).cyc := by
  unfold writeEnables
  try dsimp only
  repeat' first
    | with_reducible assumption
    | with_reducible refine sound_ite ?_ ?_
    | with_reducible refine sound_foldl ?_ (fun _ _ _ => ?_)
    | with_reducible refine sound_writeEnable ?_
    | split

@[simp] theorem sound_writeReg {x0 : State} {x1 : Nat} {x2 : Word} (h0 : Sound q z x0.pending x0.sec.fuses x0.csr x0.mem x0.cyc) : Sound q z (writeReg x0 x1 x2).pending (writeReg x0 x1 x2).sec.fuses (writeReg x0 x1 x2).csr (writeReg x0 x1 x2).mem (writeReg x0 x1 x2).cyc := by
  unfold writeReg
  try dsimp only
  repeat' first
    | with_reducible assumption
    | with_reducible refine sound_ite ?_ ?_
    | with_reducible refine sound_foldl ?_ (fun _ _ _ => ?_)
    | with_reducible refine sound_writeCfg ?_
    | with_reducible refine sound_setWord ?_
    | with_reducible refine sound_writeEnables ?_
    | with_reducible refine sound_maskWritten ?_
    | split

@[simp] theorem sound_csrWrite1 {x0 : State} {x1 : Nat} {x2 : Word} {x3 : Option Nat} (h0 : Sound q z x0.pending x0.sec.fuses x0.csr x0.mem x0.cyc) : Sound q z (csrWrite1 x0 x1 x2 x3).pending (csrWrite1 x0 x1 x2 x3).sec.fuses (csrWrite1 x0 x1 x2 x3).csr (csrWrite1 x0 x1 x2 x3).mem (csrWrite1 x0 x1 x2 x3).cyc := by
  unfold csrWrite1
  simp (maxDischargeDepth := 40) +contextual [*]

@[simp] theorem sound_csrWriteAll {n : Nat} : ∀ {s : State} {o : Nat} {bs : List Byte} {src : Option Nat}, Sound q z s.pending s.sec.fuses s.csr s.mem s.cyc →
    Sound q z (csrWriteAll s o bs src n).pending (csrWriteAll s o bs src n).sec.fuses (csrWriteAll s o bs src n).csr (csrWriteAll s o bs src n).mem (csrWriteAll s o bs src n).cyc := by
  induction n with
  | zero => intro s o bs src h; exact h
  | succ n ih => intro s o bs src h; exact ih (sound_csrWrite1 h)

@[simp] theorem sound_denied {x0 : State} (h0 : Sound q z x0.pending x0.sec.fuses x0.csr x0.mem x0.cyc) : Sound q z (denied x0).1.pending (denied x0).1.sec.fuses (denied x0).1.csr (denied x0).1.mem (denied x0).1.cyc := by
  unfold denied
  simp (maxDischargeDepth := 40) +contextual [*]

@[simp] theorem sound_applyCsr {s : State} {fr src op a len : Nat} {d : List Byte} (h : Sound q z s.pending s.sec.fuses s.csr s.mem s.cyc) : Sound q z (applyCsr s fr src op a len d).1.pending (applyCsr s fr src op a len d).1.sec.fuses (applyCsr s fr src op a len d).1.csr (applyCsr s fr src op a len d).1.mem (applyCsr s fr src op a len d).1.cyc := by
  unfold applyCsr
  dsimp only
  repeat' first
    | with_reducible assumption
    | with_reducible refine sound_denied ?_
    | with_reducible refine sound_busError ?_
    | with_reducible refine sound_csrRead ?_
    | with_reducible refine sound_csrWriteAll ?_
    | with_reducible refine sound_crossMesh ?_ ‹_›
    | split

theorem sound_meshTo {x0 : State} {x1 x2 : Nat} {y : State} (h0 : Sound q z x0.pending x0.sec.fuses x0.csr x0.mem x0.cyc) (e : meshTo x0 x1 x2 = some y) : Sound q z y.pending y.sec.fuses y.csr y.mem y.cyc := by
  obtain ⟨b, _, e⟩ := Option.bind_eq_some_iff.mp e
  exact sound_crossMesh h0 e

@[simp] theorem sound_applyWord {s : State} {fr src op a len x y i : Nat} {d : List Byte} (h : Sound q z s.pending s.sec.fuses s.csr s.mem s.cyc) :
    Sound q z (applyWord s fr src op a len x y i d).1.pending (applyWord s fr src op a len x y i d).1.sec.fuses (applyWord s fr src op a len x y i d).1.csr (applyWord s fr src op a len x y i d).1.mem (applyWord s fr src op a len x y i d).1.cyc := by
  unfold applyWord
  extract_lets
  refine sound_fst_ite (sound_denied h) (sound_fst_ite h (sound_fst_ite h (sound_fst_ite (sound_count h) (sound_fst_ite (sound_applyCsr h)
    (sound_fst_ite (sound_denied h) (sound_fst_ite h ?_))))))
  · split
    · exact h
    · have k := sound_meshTo h ‹meshTo _ _ _ = some _›
      repeat' first
        | with_reducible assumption
        | with_reducible refine sound_fst_ite ?_ ?_
        | with_reducible exact sound_readUe k
        | with_reducible exact sound_write k
        | extract_lets

theorem sound_copyRefused {s : State} {r : ReqHdr} {x : State × Ans} (h : Sound q z s.pending s.sec.fuses s.csr s.mem s.cyc) (hx : copyRefused s r = some x) :
    Sound q z x.1.pending x.1.sec.fuses x.1.csr x.1.mem x.1.cyc := by
  unfold copyRefused at hx
  dsimp only at hx
  repeat' split at hx
  all_goals first
    | (cases hx; first | exact h | exact sound_denied h | skip)
    | skip

@[simp] theorem sound_keepReq {x0 : State} {x1 : OutReq} (h0 : Sound q z x0.pending x0.sec.fuses x0.csr x0.mem x0.cyc) : Sound q z (keepReq x0 x1).1.pending (keepReq x0 x1).1.sec.fuses (keepReq x0 x1).1.csr (keepReq x0 x1).1.mem (keepReq x0 x1).1.cyc := by
  unfold keepReq
  simp (maxDischargeDepth := 40) +contextual [*]

@[simp] theorem sound_runPart {x0 : ReqHdr} {x1 : State} {x2 : Nat × Nat} (h1 : Sound q z x1.pending x1.sec.fuses x1.csr x1.mem x1.cyc) : Sound q z (runPart x0 x1 x2).pending (runPart x0 x1 x2).sec.fuses (runPart x0 x1 x2).csr (runPart x0 x1 x2).mem (runPart x0 x1 x2).cyc := by
  unfold runPart
  try dsimp only
  repeat' first
    | with_reducible assumption
    | with_reducible refine sound_ite ?_ ?_
    | with_reducible refine sound_foldl ?_ (fun _ _ _ => ?_)
    | with_reducible refine sound_partDone ?_
    | with_reducible refine sound_getD (fun _ e => sound_meshTo ?_ e) ?_
    | with_reducible refine sound_meshTo ?_ ‹_›
    | with_reducible refine sound_readUe ?_
    | with_reducible refine sound_write ?_
    | with_reducible refine sound_enqueue ?_
    | split

@[simp] theorem sound_startCopy {x0 : State} {x1 : Nat} {x2 : ReqHdr} (h0 : Sound q z x0.pending x0.sec.fuses x0.csr x0.mem x0.cyc) : Sound q z (startCopy x0 x1 x2).pending (startCopy x0 x1 x2).sec.fuses (startCopy x0 x1 x2).csr (startCopy x0 x1 x2).mem (startCopy x0 x1 x2).cyc := by
  unfold startCopy
  simp (maxDischargeDepth := 40) +contextual [*]

@[simp] theorem sound_issueHere {s : State} {r : OutReq} (h : Sound q z s.pending s.sec.fuses s.csr s.mem s.cyc) : Sound q z (issueHere s r).pending (issueHere s r).sec.fuses (issueHere s r).csr (issueHere s r).mem (issueHere s r).cyc := by
  unfold issueHere
  extract_lets
  repeat' first
    | with_reducible assumption
    | with_reducible refine sound_ite ?_ ?_
    | with_reducible refine sound_complete ?_
    | with_reducible refine sound_write ?_
    | with_reducible refine sound_applyWord ?_
    | with_reducible refine sound_busError ?_
    | with_reducible refine sound_meshTo ?_ ‹_›
    | with_reducible exact sound_answerTag (sound_copyRefused (sound_keepReq h) ‹_›)
    | with_reducible exact sound_startCopy (sound_keepReq h)
    | split
    | extract_lets

theorem sound_refuseIssue {s : State} {r : OutReq} {x : State × Ans} (h : Sound q z s.pending s.sec.fuses s.csr s.mem s.cyc) (hx : refuseIssue s r = some x) :
    Sound q z x.1.pending x.1.sec.fuses x.1.csr x.1.mem x.1.cyc := by
  unfold refuseIssue at hx
  repeat' split at hx
  all_goals first
    | (cases hx; first | exact h | exact sound_count h)
    | cases hx

@[simp] theorem sound_drainLink {n lim k : Nat} : ∀ {s : State}, Sound q z s.pending s.sec.fuses s.csr s.mem s.cyc → Sound q z (drainLink n lim k s).pending (drainLink n lim k s).sec.fuses (drainLink n lim k s).csr (drainLink n lim k s).mem (drainLink n lim k s).cyc := by
  induction k with
  | zero => intro s h; exact h
  | succ k ih =>
    intro s h
    unfold drainLink
    repeat' first
      | with_reducible assumption
      | with_reducible refine sound_ite ?_ ?_
      | with_reducible refine ih ?_
      | with_reducible refine sound_emit ?_
      | with_reducible refine sound_updLnk ?_
      | split

@[simp] theorem sound_drain {x0 : State} {x1 : Nat} {x2 : Nat} (h0 : Sound q z x0.pending x0.sec.fuses x0.csr x0.mem x0.cyc) : Sound q z (drain x0 x1 x2).pending (drain x0 x1 x2).sec.fuses (drain x0 x1 x2).csr (drain x0 x1 x2).mem (drain x0 x1 x2).cyc := by
  unfold drain
  simp (maxDischargeDepth := 40) +contextual [*]

@[simp] theorem sound_sendUns {x0 : State} {x1 : Nat} {x2 : Msg} (h0 : Sound q z x0.pending x0.sec.fuses x0.csr x0.mem x0.cyc) : Sound q z (sendUns x0 x1 x2).pending (sendUns x0 x1 x2).sec.fuses (sendUns x0 x1 x2).csr (sendUns x0 x1 x2).mem (sendUns x0 x1 x2).cyc := by
  unfold sendUns
  simp (maxDischargeDepth := 40) +contextual [*]

theorem sound_sendFrom {x0 : State} {x1 x2 : Nat} {x3 : Msg} {y : State} (h0 : Sound q z x0.pending x0.sec.fuses x0.csr x0.mem x0.cyc) (e : sendFrom x0 x1 x2 x3 = some y) : Sound q z y.pending y.sec.fuses y.csr y.mem y.cyc := by
  unfold sendFrom at e
  split at e
  · cases e; with_reducible exact sound_sendUns h0
  · obtain ⟨t, ht, rfl⟩ := Option.map_eq_some_iff.mp e
    with_reducible exact sound_sendUns (sound_crossMesh h0 ht)

@[simp] theorem sound_issueReq {s : State} {r : OutReq} (h : Sound q z s.pending s.sec.fuses s.csr s.mem s.cyc) : Sound q z (issueReq s r).pending (issueReq s r).sec.fuses (issueReq s r).csr (issueReq s r).mem (issueReq s r).cyc := by
  unfold issueReq
  repeat' first
    | with_reducible assumption
    | with_reducible refine sound_ite ?_ ?_
    | with_reducible refine sound_issueHere ?_
    | with_reducible refine sound_complete ?_
    | with_reducible refine sound_refuseIssue ?_ ‹_›
    | with_reducible refine sound_dropReq ?_
    | with_reducible refine sound_keepReq ?_
    | (obtain ⟨l, _, e⟩ := Option.bind_eq_some_iff.mp ‹Option.bind _ _ = some _›; with_reducible exact sound_sendFrom (sound_keepReq h) e)
    | split
    | extract_lets

@[simp] theorem sound_pump {n : Nat} : ∀ {s : State}, Sound q z s.pending s.sec.fuses s.csr s.mem s.cyc →
    Sound q z (pump n s).pending (pump n s).sec.fuses (pump n s).csr (pump n s).mem (pump n s).cyc := by
  induction n with
  | zero => intro s h; exact h
  | succ n ih =>
    intro s h
    unfold pump
    split
    · exact h
    · split
      · exact h
      · exact ih (sound_issueReq h)

@[simp] theorem sound_pumpAll {x0 : State} (h0 : Sound q z x0.pending x0.sec.fuses x0.csr x0.mem x0.cyc) : Sound q z (pumpAll x0).pending (pumpAll x0).sec.fuses (pumpAll x0).csr (pumpAll x0).mem (pumpAll x0).cyc := by
  unfold pumpAll
  simp (maxDischargeDepth := 40) +contextual [*]

@[simp] theorem sound_afterBoundary {x0 : State} (h0 : Sound q z x0.pending x0.sec.fuses x0.csr x0.mem x0.cyc) : Sound q z (afterBoundary x0).pending (afterBoundary x0).sec.fuses (afterBoundary x0).csr (afterBoundary x0).mem (afterBoundary x0).cyc := by
  unfold afterBoundary
  simp (maxDischargeDepth := 40) +contextual [*]

@[simp] theorem sound_afterCommit {x0 : State} {x1 : Nat} {x2 : Bool} (h0 : Sound q z x0.pending x0.sec.fuses x0.csr x0.mem x0.cyc) : Sound q z (afterCommit x0 x1 x2).pending (afterCommit x0 x1 x2).sec.fuses (afterCommit x0 x1 x2).csr (afterCommit x0 x1 x2).mem (afterCommit x0 x1 x2).cyc := by
  unfold afterCommit
  simp (maxDischargeDepth := 40) +contextual [*]

@[simp] theorem sound_sendRead {x0 : State} {x1 : Nat} (h0 : Sound q z x0.pending x0.sec.fuses x0.csr x0.mem x0.cyc) : Sound q z (sendRead x0 x1).pending (sendRead x0 x1).sec.fuses (sendRead x0 x1).csr (sendRead x0 x1).mem (sendRead x0 x1).cyc := by
  unfold sendRead
  try dsimp only
  repeat' first
    | with_reducible assumption
    | with_reducible refine sound_ite ?_ ?_
    | with_reducible refine sound_foldl ?_ (fun _ _ _ => ?_)
    | with_reducible refine sound_sendUns ?_
    | split

@[simp] theorem sound_sendReads {x0 : State} (h0 : Sound q z x0.pending x0.sec.fuses x0.csr x0.mem x0.cyc) : Sound q z (sendReads x0).pending (sendReads x0).sec.fuses (sendReads x0).csr (sendReads x0).mem (sendReads x0).cyc := by
  unfold sendReads
  try dsimp only
  repeat' first
    | with_reducible assumption
    | with_reducible refine sound_ite ?_ ?_
    | with_reducible refine sound_foldl ?_ (fun _ _ _ => ?_)
    | with_reducible refine sound_sendRead ?_
    | split

@[simp] theorem sound_fetchCheckEnd {x0 : State} (h0 : Sound q z x0.pending x0.sec.fuses x0.csr x0.mem x0.cyc) : Sound q z (fetchCheckEnd x0).pending (fetchCheckEnd x0).sec.fuses (fetchCheckEnd x0).csr (fetchCheckEnd x0).mem (fetchCheckEnd x0).cyc := by
  unfold fetchCheckEnd
  try dsimp only
  repeat' first
    | with_reducible assumption
    | with_reducible refine sound_ite ?_ ?_
    | with_reducible refine sound_foldl ?_ (fun _ _ _ => ?_)
    | with_reducible refine sound_endFetch ?_
    | with_reducible refine sound_setFld ?_
    | with_reducible refine sound_sendReads ?_
    | split

@[simp] theorem sound_startRepair {x0 : State} {x1 : Option (Nat × Nat)} {x2 : List Src} (h0 : Sound q z x0.pending x0.sec.fuses x0.csr x0.mem x0.cyc) : Sound q z (startRepair x0 x1 x2).pending (startRepair x0 x1 x2).sec.fuses (startRepair x0 x1 x2).csr (startRepair x0 x1 x2).mem (startRepair x0 x1 x2).cyc := by
  unfold startRepair
  simp (maxDischargeDepth := 40) +contextual [*]

@[simp] theorem sound_reread {x0 : State} (h0 : Sound q z x0.pending x0.sec.fuses x0.csr x0.mem x0.cyc) : Sound q z (reread x0).pending (reread x0).sec.fuses (reread x0).csr (reread x0).mem (reread x0).cyc := by
  unfold reread
  simp (maxDischargeDepth := 40) +contextual [*]

@[simp] theorem sound_afterFetch {x0 : State} (h0 : Sound q z x0.pending x0.sec.fuses x0.csr x0.mem x0.cyc) : Sound q z (afterFetch x0).pending (afterFetch x0).sec.fuses (afterFetch x0).csr (afterFetch x0).mem (afterFetch x0).cyc := by
  unfold afterFetch
  simp (maxDischargeDepth := 40) +contextual [*]

@[simp] theorem sound_countBlock {x0 : Nat} {x1 : Nat} {x2 : Bool} {x3 : State} {x4 : Nat × Nat × Nat} (h3 : Sound q z x3.pending x3.sec.fuses x3.csr x3.mem x3.cyc) : Sound q z (countBlock x0 x1 x2 x3 x4).pending (countBlock x0 x1 x2 x3 x4).sec.fuses (countBlock x0 x1 x2 x3 x4).csr (countBlock x0 x1 x2 x3 x4).mem (countBlock x0 x1 x2 x3 x4).cyc := by
  unfold countBlock
  simp (maxDischargeDepth := 40) +contextual [*]

@[simp] theorem sound_flushCounts {x0 : State} {x1 : Nat} {x2 : Scan} (h0 : Sound q z x0.pending x0.sec.fuses x0.csr x0.mem x0.cyc) : Sound q z (flushCounts x0 x1 x2).pending (flushCounts x0 x1 x2).sec.fuses (flushCounts x0 x1 x2).csr (flushCounts x0 x1 x2).mem (flushCounts x0 x1 x2).cyc := by
  unfold flushCounts
  simp (maxDischargeDepth := 40) +contextual [*]

@[simp] theorem sound_setScan {x0 : State} {x1 : Nat} {x2 : Nat} {x3 : Option Scan} (h0 : Sound q z x0.pending x0.sec.fuses x0.csr x0.mem x0.cyc) : Sound q z (setScan x0 x1 x2 x3).pending (setScan x0 x1 x2 x3).sec.fuses (setScan x0 x1 x2 x3).csr (setScan x0 x1 x2 x3).mem (setScan x0 x1 x2 x3).cyc := by
  unfold setScan
  simp (maxDischargeDepth := 40) +contextual [*]

@[simp] theorem sound_alignVector {x0 : State} {x1 : Nat} {x2 : Nat} {x3 : Nat} {x4 : Nat} {x5 : Scan} {x6 : Nat} (h0 : Sound q z x0.pending x0.sec.fuses x0.csr x0.mem x0.cyc) : Sound q z (alignVector x0 x1 x2 x3 x4 x5 x6).pending (alignVector x0 x1 x2 x3 x4 x5 x6).sec.fuses (alignVector x0 x1 x2 x3 x4 x5 x6).csr (alignVector x0 x1 x2 x3 x4 x5 x6).mem (alignVector x0 x1 x2 x3 x4 x5 x6).cyc := by
  unfold alignVector
  simp (maxDischargeDepth := 40) +contextual [*]

@[simp] theorem sound_rowTook {x0 : State} {x1 : Nat} {x2 : Nat} {x3 : State} (h0 : Sound q z x0.pending x0.sec.fuses x0.csr x0.mem x0.cyc) (h3 : Sound q z x3.pending x3.sec.fuses x3.csr x3.mem x3.cyc) : Sound q z (rowTook x0 x1 x2 x3).pending (rowTook x0 x1 x2 x3).sec.fuses (rowTook x0 x1 x2 x3).csr (rowTook x0 x1 x2 x3).mem (rowTook x0 x1 x2 x3).cyc := by
  unfold rowTook
  simp (maxDischargeDepth := 40) +contextual [*]

@[simp] theorem sound_takeLanes {s : State} {n g d : Nat} (h : Sound q z s.pending s.sec.fuses s.csr s.mem s.cyc) :
    Sound q z (takeLanes s n g d).1.pending (takeLanes s n g d).1.sec.fuses (takeLanes s n g d).1.csr (takeLanes s n g d).1.mem (takeLanes s n g d).1.cyc := by
  unfold takeLanes
  dsimp only
  repeat' first
    | with_reducible assumption
    | with_reducible refine sound_setFld ?_
    | with_reducible refine sound_updLnk ?_
    | with_reducible refine sound_foldl ?_ (fun _ _ _ => ?_)
    | split

@[simp] theorem sound_aligned {x0 : State} {x1 : Nat} {x2 : Nat} {x3 : Nat} (h0 : Sound q z x0.pending x0.sec.fuses x0.csr x0.mem x0.cyc) : Sound q z (aligned x0 x1 x2 x3).pending (aligned x0 x1 x2 x3).sec.fuses (aligned x0 x1 x2 x3).csr (aligned x0 x1 x2 x3).mem (aligned x0 x1 x2 x3).cyc := by
  unfold aligned
  simp (maxDischargeDepth := 40) +contextual [*]

@[simp] theorem sound_nextNonce {x0 : State} (h0 : Sound q z x0.pending x0.sec.fuses x0.csr x0.mem x0.cyc) : Sound q z (nextNonce x0).pending (nextNonce x0).sec.fuses (nextNonce x0).csr (nextNonce x0).mem (nextNonce x0).cyc := by
  unfold nextNonce
  simp (maxDischargeDepth := 40) +contextual [*]

@[simp] theorem sound_useFrame {x0 : State} {x1 : Nat} {x2 : Nat} (h0 : Sound q z x0.pending x0.sec.fuses x0.csr x0.mem x0.cyc) : Sound q z (useFrame x0 x1 x2).pending (useFrame x0 x1 x2).sec.fuses (useFrame x0 x1 x2).csr (useFrame x0 x1 x2).mem (useFrame x0 x1 x2).cyc := by
  unfold useFrame
  simp (maxDischargeDepth := 40) +contextual [*]

@[simp] theorem sound_givePage {x0 : Nat} {x1 : Nat} {x2 : State} {x3 : Nat} (h2 : Sound q z x2.pending x2.sec.fuses x2.csr x2.mem x2.cyc) : Sound q z (givePage x0 x1 x2 x3).pending (givePage x0 x1 x2 x3).sec.fuses (givePage x0 x1 x2 x3).csr (givePage x0 x1 x2 x3).mem (givePage x0 x1 x2 x3).cyc := by
  unfold givePage
  try dsimp only
  repeat' first
    | with_reducible assumption
    | with_reducible refine sound_ite ?_ ?_
    | with_reducible refine sound_foldl ?_ (fun _ _ _ => ?_)
    | with_reducible refine sound_nextNonce ?_
    | with_reducible refine sound_writeDesc ?_
    | with_reducible refine sound_useFrame ?_
    | split

@[simp] theorem sound_allocatePages {x0 : State} {x1 : Nat} (h0 : Sound q z x0.pending x0.sec.fuses x0.csr x0.mem x0.cyc) : Sound q z (allocatePages x0 x1).pending (allocatePages x0 x1).sec.fuses (allocatePages x0 x1).csr (allocatePages x0 x1).mem (allocatePages x0 x1).cyc := by
  unfold allocatePages
  try dsimp only
  repeat' first
    | with_reducible assumption
    | with_reducible refine sound_ite ?_ ?_
    | with_reducible refine sound_foldl ?_ (fun _ _ _ => ?_)
    | with_reducible refine sound_givePage ?_
    | split

@[simp] theorem sound_answerBudget {s : State} {a b c d : Nat} (h : Sound q z s.pending s.sec.fuses s.csr s.mem s.cyc) : Sound q z (answerBudget s a b c d).1.pending (answerBudget s a b c d).1.sec.fuses (answerBudget s a b c d).1.csr (answerBudget s a b c d).1.mem (answerBudget s a b c d).1.cyc := by
  unfold answerBudget
  split <;> exact h

@[simp] theorem sound_endGateJobs {x0 : State} (h0 : Sound q z x0.pending x0.sec.fuses x0.csr x0.mem x0.cyc) : Sound q z (endGateJobs x0).pending (endGateJobs x0).sec.fuses (endGateJobs x0).csr (endGateJobs x0).mem (endGateJobs x0).cyc := by
  unfold endGateJobs
  simp (maxDischargeDepth := 40) +contextual [*]

@[simp] theorem sound_dropTiles {x0 : State} {x1 : Nat} (h0 : Sound q z x0.pending x0.sec.fuses x0.csr x0.mem x0.cyc) : Sound q z (dropTiles x0 x1).pending (dropTiles x0 x1).sec.fuses (dropTiles x0 x1).csr (dropTiles x0 x1).mem (dropTiles x0 x1).cyc := by
  unfold dropTiles
  simp (maxDischargeDepth := 40) +contextual [*]

@[simp] theorem sound_loseAdapters {x0 : State} {x1 : Nat} (h0 : Sound q z x0.pending x0.sec.fuses x0.csr x0.mem x0.cyc) : Sound q z (loseAdapters x0 x1).pending (loseAdapters x0 x1).sec.fuses (loseAdapters x0 x1).csr (loseAdapters x0 x1).mem (loseAdapters x0 x1).cyc := by
  unfold loseAdapters
  simp (maxDischargeDepth := 40) +contextual [*]

@[simp] theorem sound_forgetJob {x0 : State} {x1 : Nat × Nat} (h0 : Sound q z x0.pending x0.sec.fuses x0.csr x0.mem x0.cyc) : Sound q z (forgetJob x0 x1).pending (forgetJob x0 x1).sec.fuses (forgetJob x0 x1).csr (forgetJob x0 x1).mem (forgetJob x0 x1).cyc := by
  unfold forgetJob
  simp (maxDischargeDepth := 40) +contextual [*]

@[simp] theorem sound_loseBuffers {x0 : State} {x1 : Nat} {x2 : Nat} (h0 : Sound q z x0.pending x0.sec.fuses x0.csr x0.mem x0.cyc) : Sound q z (loseBuffers x0 x1 x2).pending (loseBuffers x0 x1 x2).sec.fuses (loseBuffers x0 x1 x2).csr (loseBuffers x0 x1 x2).mem (loseBuffers x0 x1 x2).cyc := by
  unfold loseBuffers
  simp (maxDischargeDepth := 40) +contextual [*]

@[simp] theorem sound_resetField {x0 : State} {x1 : Nat} (h0 : Sound q z x0.pending x0.sec.fuses x0.csr x0.mem x0.cyc) : Sound q z (resetField x0 x1).pending (resetField x0 x1).sec.fuses (resetField x0 x1).csr (resetField x0 x1).mem (resetField x0 x1).cyc := by
  unfold resetField
  simp (maxDischargeDepth := 40) +contextual [*]

@[simp] theorem sound_loseField {x0 : State} {x1 : Nat} (h0 : Sound q z x0.pending x0.sec.fuses x0.csr x0.mem x0.cyc) : Sound q z (loseField x0 x1).pending (loseField x0 x1).sec.fuses (loseField x0 x1).csr (loseField x0 x1).mem (loseField x0 x1).cyc := by
  unfold loseField
  simp (maxDischargeDepth := 40) +contextual [*]

@[simp] theorem sound_setFieldEn {x0 : State} {x1 : Nat} {x2 : Bool} (h0 : Sound q z x0.pending x0.sec.fuses x0.csr x0.mem x0.cyc) : Sound q z (setFieldEn x0 x1 x2).pending (setFieldEn x0 x1 x2).sec.fuses (setFieldEn x0 x1 x2).csr (setFieldEn x0 x1 x2).mem (setFieldEn x0 x1 x2).cyc := by
  unfold setFieldEn
  simp (maxDischargeDepth := 40) +contextual [*]

@[simp] theorem sound_setPassWait {x0 : State} {x1 : Nat} {x2 : Nat} (h0 : Sound q z x0.pending x0.sec.fuses x0.csr x0.mem x0.cyc) : Sound q z (setPassWait x0 x1 x2).pending (setPassWait x0 x1 x2).sec.fuses (setPassWait x0 x1 x2).csr (setPassWait x0 x1 x2).mem (setPassWait x0 x1 x2).cyc := by
  unfold setPassWait
  simp (maxDischargeDepth := 40) +contextual [*]

@[simp] theorem sound_storeGated {x0 : State} {x1 : Nat} (h0 : Sound q z x0.pending x0.sec.fuses x0.csr x0.mem x0.cyc) : Sound q z (storeGated x0 x1).pending (storeGated x0 x1).sec.fuses (storeGated x0 x1).csr (storeGated x0 x1).mem (storeGated x0 x1).cyc := by
  unfold storeGated
  simp (maxDischargeDepth := 40) +contextual [*]

@[simp] theorem sound_gateField {x0 : State} {x1 : Nat} (h0 : Sound q z x0.pending x0.sec.fuses x0.csr x0.mem x0.cyc) : Sound q z (gateField x0 x1).pending (gateField x0 x1).sec.fuses (gateField x0 x1).csr (gateField x0 x1).mem (gateField x0 x1).cyc := by
  unfold gateField
  simp (maxDischargeDepth := 40) +contextual [*]

@[simp] theorem sound_loseStack {x0 : State} {x1 : Nat} (h0 : Sound q z x0.pending x0.sec.fuses x0.csr x0.mem x0.cyc) : Sound q z (loseStack x0 x1).pending (loseStack x0 x1).sec.fuses (loseStack x0 x1).csr (loseStack x0 x1).mem (loseStack x0 x1).cyc := by
  unfold loseStack
  simp (maxDischargeDepth := 40) +contextual [*]

@[simp] theorem sound_keepSeen {x0 : State} {x1 : Nat} (h0 : Sound q z x0.pending x0.sec.fuses x0.csr x0.mem x0.cyc) : Sound q z (keepSeen x0 x1).pending (keepSeen x0 x1).sec.fuses (keepSeen x0 x1).csr (keepSeen x0 x1).mem (keepSeen x0 x1).cyc := by
  unfold keepSeen
  simp (maxDischargeDepth := 40) +contextual [*]

@[simp] theorem sound_resetBlock {x0 : State} {x1 : Nat} (h0 : Sound q z x0.pending x0.sec.fuses x0.csr x0.mem x0.cyc) : Sound q z (resetBlock x0 x1).pending (resetBlock x0 x1).sec.fuses (resetBlock x0 x1).csr (resetBlock x0 x1).mem (resetBlock x0 x1).cyc := by
  unfold resetBlock
  simp (maxDischargeDepth := 40) +contextual [*]

@[simp] theorem sound_gateDomain {x0 : State} {x1 : Nat} (h0 : Sound q z x0.pending x0.sec.fuses x0.csr x0.mem x0.cyc) : Sound q z (gateDomain x0 x1).pending (gateDomain x0 x1).sec.fuses (gateDomain x0 x1).csr (gateDomain x0 x1).mem (gateDomain x0 x1).cyc := by
  unfold gateDomain
  simp (maxDischargeDepth := 40) +contextual [*]

@[simp] theorem sound_applyGates {x0 : State} (h0 : Sound q z x0.pending x0.sec.fuses x0.csr x0.mem x0.cyc) : Sound q z (applyGates x0).pending (applyGates x0).sec.fuses (applyGates x0).csr (applyGates x0).mem (applyGates x0).cyc := by
  unfold applyGates
  simp (maxDischargeDepth := 40) +contextual [*]

@[simp] theorem sound_enterHoldover {x0 : State} {x1 : Nat} {x2 : Bool} (h0 : Sound q z x0.pending x0.sec.fuses x0.csr x0.mem x0.cyc) : Sound q z (enterHoldover x0 x1 x2).pending (enterHoldover x0 x1 x2).sec.fuses (enterHoldover x0 x1 x2).csr (enterHoldover x0 x1 x2).mem (enterHoldover x0 x1 x2).cyc := by
  unfold enterHoldover
  simp (maxDischargeDepth := 40) +contextual [*]

@[simp] theorem sound_enterLocked {x0 : State} (h0 : Sound q z x0.pending x0.sec.fuses x0.csr x0.mem x0.cyc) : Sound q z (enterLocked x0).pending (enterLocked x0).sec.fuses (enterLocked x0).csr (enterLocked x0).mem (enterLocked x0).cyc := by
  unfold enterLocked
  simp (maxDischargeDepth := 40) +contextual [*]

@[simp] theorem sound_markFailed {x0 : State} {x1 : Nat} {x2 : Nat} (h0 : Sound q z x0.pending x0.sec.fuses x0.csr x0.mem x0.cyc) : Sound q z (markFailed x0 x1 x2).pending (markFailed x0 x1 x2).sec.fuses (markFailed x0 x1 x2).csr (markFailed x0 x1 x2).mem (markFailed x0 x1 x2).cyc := by
  unfold markFailed
  try dsimp only
  repeat' first
    | with_reducible assumption
    | with_reducible refine sound_ite ?_ ?_
    | with_reducible refine sound_foldl ?_ (fun _ _ _ => ?_)
    | with_reducible refine sound_setPos ?_
    | split

@[simp] theorem sound_failMb {x0 : State} {x1 : Nat} {x2 : Nat} (h0 : Sound q z x0.pending x0.sec.fuses x0.csr x0.mem x0.cyc) : Sound q z (failMb x0 x1 x2).pending (failMb x0 x1 x2).sec.fuses (failMb x0 x1 x2).csr (failMb x0 x1 x2).mem (failMb x0 x1 x2).cyc := by
  unfold failMb
  try dsimp only
  repeat' first
    | with_reducible assumption
    | with_reducible refine sound_ite ?_ ?_
    | with_reducible refine sound_foldl ?_ (fun _ _ _ => ?_)
    | with_reducible refine sound_markFailed ?_
    | with_reducible refine sound_setPos ?_
    | with_reducible refine sound_count ?_
    | split

@[simp] theorem sound_failField {x0 : State} {x1 : Nat} (h0 : Sound q z x0.pending x0.sec.fuses x0.csr x0.mem x0.cyc) : Sound q z (failField x0 x1).pending (failField x0 x1).sec.fuses (failField x0 x1).csr (failField x0 x1).mem (failField x0 x1).cyc := by
  unfold failField
  try dsimp only
  repeat' first
    | with_reducible assumption
    | with_reducible refine sound_ite ?_ ?_
    | with_reducible refine sound_foldl ?_ (fun _ _ _ => ?_)
    | with_reducible refine sound_failMb ?_
    | split

@[simp] theorem sound_failAllSteps {x0 : State} (h0 : Sound q z x0.pending x0.sec.fuses x0.csr x0.mem x0.cyc) : Sound q z (failAllSteps x0).pending (failAllSteps x0).sec.fuses (failAllSteps x0).csr (failAllSteps x0).mem (failAllSteps x0).cyc := by
  unfold failAllSteps
  simp (maxDischargeDepth := 40) +contextual [*]

@[simp] theorem sound_stopFiring {x0 : State} (h0 : Sound q z x0.pending x0.sec.fuses x0.csr x0.mem x0.cyc) : Sound q z (stopFiring x0).pending (stopFiring x0).sec.fuses (stopFiring x0).csr (stopFiring x0).mem (stopFiring x0).cyc := by
  unfold stopFiring
  simp (maxDischargeDepth := 40) +contextual [*]

@[simp] theorem sound_enterOutOfStep {x0 : State} (h0 : Sound q z x0.pending x0.sec.fuses x0.csr x0.mem x0.cyc) : Sound q z (enterOutOfStep x0).pending (enterOutOfStep x0).sec.fuses (enterOutOfStep x0).csr (enterOutOfStep x0).mem (enterOutOfStep x0).cyc := by
  unfold enterOutOfStep
  simp (maxDischargeDepth := 40) +contextual [*]

@[simp] theorem sound_enterLost {x0 : State} (h0 : Sound q z x0.pending x0.sec.fuses x0.csr x0.mem x0.cyc) : Sound q z (enterLost x0).pending (enterLost x0).sec.fuses (enterLost x0).csr (enterLost x0).mem (enterLost x0).cyc := by
  unfold enterLost
  simp (maxDischargeDepth := 40) +contextual [*]

@[simp] theorem sound_lockStep {s : State} (h : Sound q z s.pending s.sec.fuses s.csr s.mem s.cyc) :
    Sound q z (lockStep s).pending (lockStep s).sec.fuses (lockStep s).csr (lockStep s).mem (lockStep s).cyc := by
  unfold lockStep
  extract_lets t c
  exact sound_enterLocked (sound_setFld (s := { s with beat := c / 5120, cyc := c % 5120, time := { s.time with est := 0, slew := 0, slip := 0, offs := [] } })
    ⟨h.1, h.2.1, Nat.mod_lt _ (by decide), h.2.2.2⟩)

@[simp] theorem sound_applyMove {x0 : State} (h0 : Sound q z x0.pending x0.sec.fuses x0.csr x0.mem x0.cyc) : Sound q z (applyMove x0).pending (applyMove x0).sec.fuses (applyMove x0).csr (applyMove x0).mem (applyMove x0).cyc := by
  unfold applyMove
  try dsimp only
  repeat' first
    | with_reducible assumption
    | with_reducible refine sound_ite ?_ ?_
    | with_reducible refine sound_foldl ?_ (fun _ _ _ => ?_)
    | with_reducible refine sound_lockStep ?_
    | with_reducible refine sound_enterLocked ?_
    | with_reducible refine sound_enterHoldover ?_
    | with_reducible refine sound_enterLost ?_
    | with_reducible refine sound_count ?_
    | with_reducible refine sound_takePort ?_
    | split

@[simp] theorem sound_applyPart {x0 : State} {x1 : KvRange} {x2 : Nat} {x3 : List Byte} (h0 : Sound q z x0.pending x0.sec.fuses x0.csr x0.mem x0.cyc) : Sound q z (applyPart x0 x1 x2 x3).pending (applyPart x0 x1 x2 x3).sec.fuses (applyPart x0 x1 x2 x3).csr (applyPart x0 x1 x2 x3).mem (applyPart x0 x1 x2 x3).cyc := by
  unfold applyPart
  try dsimp only
  repeat' first
    | with_reducible assumption
    | with_reducible refine sound_ite ?_ ?_
    | with_reducible refine sound_foldl ?_ (fun _ _ _ => ?_)
    | with_reducible refine sound_write ?_
    | with_reducible refine sound_writeDesc ?_
    | split

@[simp] theorem sound_setDrop {x0 : State} {x1 : Nat} {x2 : Nat} (h0 : Sound q z x0.pending x0.sec.fuses x0.csr x0.mem x0.cyc) : Sound q z (setDrop x0 x1 x2).pending (setDrop x0 x1 x2).sec.fuses (setDrop x0 x1 x2).csr (setDrop x0 x1 x2).mem (setDrop x0 x1 x2).cyc := by
  unfold setDrop
  simp (maxDischargeDepth := 40) +contextual [*]

@[simp] theorem sound_applySettings {x0 : State} (h0 : Sound q z x0.pending x0.sec.fuses x0.csr x0.mem x0.cyc) : Sound q z (applySettings x0).pending (applySettings x0).sec.fuses (applySettings x0).csr (applySettings x0).mem (applySettings x0).cyc := by
  unfold applySettings
  simp (maxDischargeDepth := 40) +contextual [*]

@[simp] theorem sound_retireTile {x0 : State} {x1 : Nat} {x2 : Nat} (h0 : Sound q z x0.pending x0.sec.fuses x0.csr x0.mem x0.cyc) : Sound q z (retireTile x0 x1 x2).pending (retireTile x0 x1 x2).sec.fuses (retireTile x0 x1 x2).csr (retireTile x0 x1 x2).mem (retireTile x0 x1 x2).cyc := by
  unfold retireTile
  simp (maxDischargeDepth := 40) +contextual [*]

@[simp] theorem sound_updConv {x0 : State} {x1 : Nat} {x2 : Nat} {x3 : ConvSt → ConvSt} (h0 : Sound q z x0.pending x0.sec.fuses x0.csr x0.mem x0.cyc) : Sound q z (updConv x0 x1 x2 x3).pending (updConv x0 x1 x2 x3).sec.fuses (updConv x0 x1 x2 x3).csr (updConv x0 x1 x2 x3).mem (updConv x0 x1 x2 x3).cyc := by
  unfold updConv
  simp (maxDischargeDepth := 40) +contextual [*]

@[simp] theorem sound_writeRecord {x0 : State} {x1 : Nat} (h0 : Sound q z x0.pending x0.sec.fuses x0.csr x0.mem x0.cyc) : Sound q z (writeRecord x0 x1).pending (writeRecord x0 x1).sec.fuses (writeRecord x0 x1).csr (writeRecord x0 x1).mem (writeRecord x0 x1).cyc := by
  unfold writeRecord
  simp (maxDischargeDepth := 40) +contextual [*]

@[simp] theorem sound_retireConverter {x0 : State} {x1 : Nat} {x2 : Nat} (h0 : Sound q z x0.pending x0.sec.fuses x0.csr x0.mem x0.cyc) : Sound q z (retireConverter x0 x1 x2).pending (retireConverter x0 x1 x2).sec.fuses (retireConverter x0 x1 x2).csr (retireConverter x0 x1 x2).mem (retireConverter x0 x1 x2).cyc := by
  unfold retireConverter
  try dsimp only
  repeat' first
    | with_reducible assumption
    | with_reducible refine sound_ite ?_ ?_
    | with_reducible refine sound_foldl ?_ (fun _ _ _ => ?_)
    | with_reducible refine sound_updConv ?_
    | with_reducible refine sound_updTile ?_
    | with_reducible refine sound_writeRecord ?_
    | with_reducible refine sound_retireTile ?_
    | split

@[simp] theorem sound_retireFailed {x0 : State} {x1 : Nat} {x2 : Nat × ConvSt} (h0 : Sound q z x0.pending x0.sec.fuses x0.csr x0.mem x0.cyc) : Sound q z (retireFailed x0 x1 x2).pending (retireFailed x0 x1 x2).sec.fuses (retireFailed x0 x1 x2).csr (retireFailed x0 x1 x2).mem (retireFailed x0 x1 x2).cyc := by
  unfold retireFailed
  try dsimp only
  repeat' first
    | with_reducible assumption
    | with_reducible refine sound_ite ?_ ?_
    | with_reducible refine sound_foldl ?_ (fun _ _ _ => ?_)
    | with_reducible refine sound_retireConverter ?_
    | split

@[simp] theorem sound_applyTrims {x0 : State} {x1 : Nat} (h0 : Sound q z x0.pending x0.sec.fuses x0.csr x0.mem x0.cyc) : Sound q z (applyTrims x0 x1).pending (applyTrims x0 x1).sec.fuses (applyTrims x0 x1).csr (applyTrims x0 x1).mem (applyTrims x0 x1).cyc := by
  unfold applyTrims
  try dsimp only
  repeat' first
    | with_reducible assumption
    | with_reducible refine sound_ite ?_ ?_
    | with_reducible refine sound_foldl ?_ (fun _ _ _ => ?_)
    | with_reducible refine sound_retireFailed ?_
    | with_reducible refine sound_updTile ?_
    | with_reducible refine sound_updConv ?_
    | with_reducible refine sound_writeRecord ?_
    | split

@[simp] theorem sound_applyTiles {x0 : State} (h0 : Sound q z x0.pending x0.sec.fuses x0.csr x0.mem x0.cyc) : Sound q z (applyTiles x0).pending (applyTiles x0).sec.fuses (applyTiles x0).csr (applyTiles x0).mem (applyTiles x0).cyc := by
  unfold applyTiles
  simp (maxDischargeDepth := 40) +contextual [*]

@[simp] theorem sound_applyUnit0 {x0 : State} (h0 : Sound q z x0.pending x0.sec.fuses x0.csr x0.mem x0.cyc) : Sound q z (applyUnit0 x0).pending (applyUnit0 x0).sec.fuses (applyUnit0 x0).csr (applyUnit0 x0).mem (applyUnit0 x0).cyc := by
  unfold applyUnit0
  try dsimp only
  repeat' first
    | with_reducible assumption
    | with_reducible refine sound_ite ?_ ?_
    | with_reducible refine sound_foldl ?_ (fun _ _ _ => ?_)
    | with_reducible refine sound_setUnitGen ?_
    | split

@[simp] theorem sound_askReset {x0 : State} {x1 : Nat} (h0 : Sound q z x0.pending x0.sec.fuses x0.csr x0.mem x0.cyc) : Sound q z (askReset x0 x1).pending (askReset x0 x1).sec.fuses (askReset x0 x1).csr (askReset x0 x1).mem (askReset x0 x1).cyc := by
  unfold askReset
  simp (maxDischargeDepth := 40) +contextual [*]

@[simp] theorem sound_limitCheck {x0 : State} {x1 : Nat} {x2 : Int} (h0 : Sound q z x0.pending x0.sec.fuses x0.csr x0.mem x0.cyc) : Sound q z (limitCheck x0 x1 x2).pending (limitCheck x0 x1 x2).sec.fuses (limitCheck x0 x1 x2).csr (limitCheck x0 x1 x2).mem (limitCheck x0 x1 x2).cyc := by
  unfold limitCheck
  simp (maxDischargeDepth := 40) +contextual [*]

@[simp] theorem sound_limitRound {x0 : State} {x1 : List (Nat × Int)} (h0 : Sound q z x0.pending x0.sec.fuses x0.csr x0.mem x0.cyc) : Sound q z (limitRound x0 x1).pending (limitRound x0 x1).sec.fuses (limitRound x0 x1).csr (limitRound x0 x1).mem (limitRound x0 x1).cyc := by
  unfold limitRound
  simp (maxDischargeDepth := 40) +contextual [*]

@[simp] theorem sound_moveV {x0 : List (Nat × Int)} {x1 : Nat} {x2 : State} {x3 : Nat} (h2 : Sound q z x2.pending x2.sec.fuses x2.csr x2.mem x2.cyc) : Sound q z (moveV x0 x1 x2 x3).pending (moveV x0 x1 x2 x3).sec.fuses (moveV x0 x1 x2 x3).csr (moveV x0 x1 x2 x3).mem (moveV x0 x1 x2 x3).cyc := by
  unfold moveV
  try dsimp only
  repeat' first
    | with_reducible assumption
    | with_reducible refine sound_ite ?_ ?_
    | with_reducible refine sound_foldl ?_ (fun _ _ _ => ?_)
    | split

@[simp] theorem sound_pmbWrite {x0 : State} {x1 : Nat} {x2 : Nat} {x3 : Nat} (h0 : Sound q z x0.pending x0.sec.fuses x0.csr x0.mem x0.cyc) : Sound q z (pmbWrite x0 x1 x2 x3).pending (pmbWrite x0 x1 x2 x3).sec.fuses (pmbWrite x0 x1 x2 x3).csr (pmbWrite x0 x1 x2 x3).mem (pmbWrite x0 x1 x2 x3).cyc := by
  unfold pmbWrite
  simp (maxDischargeDepth := 40) +contextual [*]

@[simp] theorem sound_moveRail {x0 : List (Nat × Int)} {x1 : State} {x2 : Nat} (h1 : Sound q z x1.pending x1.sec.fuses x1.csr x1.mem x1.cyc) : Sound q z (moveRail x0 x1 x2).pending (moveRail x0 x1 x2).sec.fuses (moveRail x0 x1 x2).csr (moveRail x0 x1 x2).mem (moveRail x0 x1 x2).cyc := by
  unfold moveRail
  simp (maxDischargeDepth := 40) +contextual [*]

@[simp] theorem sound_railHome {x0 : State} {x1 : Nat} (h0 : Sound q z x0.pending x0.sec.fuses x0.csr x0.mem x0.cyc) : Sound q z (railHome x0 x1).pending (railHome x0 x1).sec.fuses (railHome x0 x1).csr (railHome x0 x1).mem (railHome x0 x1).cyc := by
  unfold railHome
  simp (maxDischargeDepth := 40) +contextual [*]

@[simp] theorem sound_avsRound {x0 : State} {x1 : List (Nat × Int)} (h0 : Sound q z x0.pending x0.sec.fuses x0.csr x0.mem x0.cyc) : Sound q z (avsRound x0 x1).pending (avsRound x0 x1).sec.fuses (avsRound x0 x1).csr (avsRound x0 x1).mem (avsRound x0 x1).cyc := by
  unfold avsRound
  simp (maxDischargeDepth := 40) +contextual [*]

@[simp] theorem sound_respond10 {x0 : State} {x1 : Nat} {x2 : ReqHdr} {x3 : Ans} (h0 : Sound q z x0.pending x0.sec.fuses x0.csr x0.mem x0.cyc) : Sound q z (respond10 x0 x1 x2 x3).pending (respond10 x0 x1 x2 x3).sec.fuses (respond10 x0 x1 x2 x3).csr (respond10 x0 x1 x2 x3).mem (respond10 x0 x1 x2 x3).cyc := by
  unfold respond10
  try dsimp only
  repeat' first
    | with_reducible assumption
    | with_reducible refine sound_ite ?_ ?_
    | with_reducible refine sound_foldl ?_ (fun _ _ _ => ?_)
    | with_reducible refine sound_getD (fun _ e => sound_sendFrom ?_ e) ?_
    | with_reducible refine sound_sendFrom ?_ ‹_›
    | split

@[simp] theorem sound_badOp {x0 : State} {x1 : Nat} {x2 : ReqHdr} (h0 : Sound q z x0.pending x0.sec.fuses x0.csr x0.mem x0.cyc) : Sound q z (badOp x0 x1 x2).pending (badOp x0 x1 x2).sec.fuses (badOp x0 x1 x2).csr (badOp x0 x1 x2).mem (badOp x0 x1 x2).cyc := by
  unfold badOp
  try dsimp only
  repeat' first
    | with_reducible assumption
    | with_reducible refine sound_ite ?_ ?_
    | with_reducible refine sound_foldl ?_ (fun _ _ _ => ?_)
    | with_reducible refine sound_denied ?_
    | with_reducible refine sound_respond10 ?_
    | split

@[simp] theorem sound_bandRound {x0 : State} (h0 : Sound q z x0.pending x0.sec.fuses x0.csr x0.mem x0.cyc) : Sound q z (bandRound x0).pending (bandRound x0).sec.fuses (bandRound x0).csr (bandRound x0).mem (bandRound x0).cyc := by
  unfold bandRound
  simp (maxDischargeDepth := 40) +contextual [*]

@[simp] theorem sound_beatEvent {x0 : State} {x1 : Nat} {x2 : Nat} (h0 : Sound q z x0.pending x0.sec.fuses x0.csr x0.mem x0.cyc) : Sound q z (beatEvent x0 x1 x2).pending (beatEvent x0 x1 x2).sec.fuses (beatEvent x0 x1 x2).csr (beatEvent x0 x1 x2).mem (beatEvent x0 x1 x2).cyc := by
  unfold beatEvent
  simp (maxDischargeDepth := 40) +contextual [*]

@[simp] theorem sound_clearLanded {x0 : State} {x1 : Nat} (h0 : Sound q z x0.pending x0.sec.fuses x0.csr x0.mem x0.cyc) : Sound q z (clearLanded x0 x1).pending (clearLanded x0 x1).sec.fuses (clearLanded x0 x1).csr (clearLanded x0 x1).mem (clearLanded x0 x1).cyc := by
  unfold clearLanded
  simp (maxDischargeDepth := 40) +contextual [*]

@[simp] theorem sound_flushStep {x0 : State} {x1 : Nat} (h0 : Sound q z x0.pending x0.sec.fuses x0.csr x0.mem x0.cyc) : Sound q z (flushStep x0 x1).pending (flushStep x0 x1).sec.fuses (flushStep x0 x1).csr (flushStep x0 x1).mem (flushStep x0 x1).cyc := by
  unfold flushStep
  try dsimp only
  repeat' first
    | with_reducible assumption
    | with_reducible refine sound_ite ?_ ?_
    | with_reducible refine sound_foldl ?_ (fun _ _ _ => ?_)
    | with_reducible refine sound_flushCounts ?_
    | split

@[simp] theorem sound_clearStep {x0 : State} {x1 : Nat} (h0 : Sound q z x0.pending x0.sec.fuses x0.csr x0.mem x0.cyc) : Sound q z (clearStep x0 x1).pending (clearStep x0 x1).sec.fuses (clearStep x0 x1).csr (clearStep x0 x1).mem (clearStep x0 x1).cyc := by
  unfold clearStep
  simp (maxDischargeDepth := 40) +contextual [*]

@[simp] theorem sound_loadMap {x0 : State} {x1 : Nat} (h0 : Sound q z x0.pending x0.sec.fuses x0.csr x0.mem x0.cyc) : Sound q z (loadMap x0 x1).pending (loadMap x0 x1).sec.fuses (loadMap x0 x1).csr (loadMap x0 x1).mem (loadMap x0 x1).cyc := by
  unfold loadMap
  simp (maxDischargeDepth := 40) +contextual [*]

@[simp] theorem sound_startStep {x0 : State} {x1 : Nat} (h0 : Sound q z x0.pending x0.sec.fuses x0.csr x0.mem x0.cyc) : Sound q z (startStep x0 x1).pending (startStep x0 x1).sec.fuses (startStep x0 x1).csr (startStep x0 x1).mem (startStep x0 x1).cyc := by
  unfold startStep
  simp (maxDischargeDepth := 40) +contextual [*]

@[simp] theorem sound_startSteps {x0 : State} (h0 : Sound q z x0.pending x0.sec.fuses x0.csr x0.mem x0.cyc) : Sound q z (startSteps x0).pending (startSteps x0).sec.fuses (startSteps x0).csr (startSteps x0).mem (startSteps x0).cyc := by
  unfold startSteps
  simp (maxDischargeDepth := 40) +contextual [*]

@[simp] theorem sound_beginFiring {x0 : State} {x1 : Nat} (h0 : Sound q z x0.pending x0.sec.fuses x0.csr x0.mem x0.cyc) : Sound q z (beginFiring x0 x1).pending (beginFiring x0 x1).sec.fuses (beginFiring x0 x1).csr (beginFiring x0 x1).mem (beginFiring x0 x1).cyc := by
  unfold beginFiring
  simp (maxDischargeDepth := 40) +contextual [*]

@[simp] theorem sound_beginPower {x0 : State} (h0 : Sound q z x0.pending x0.sec.fuses x0.csr x0.mem x0.cyc) : Sound q z (beginPower x0).pending (beginPower x0).sec.fuses (beginPower x0).csr (beginPower x0).mem (beginPower x0).cyc := by
  unfold beginPower
  simp (maxDischargeDepth := 40) +contextual [*]

@[simp] theorem sound_useRun {x0 : State} {x1 : Nat} {x2 : Nat} {x3 : Nat} (h0 : Sound q z x0.pending x0.sec.fuses x0.csr x0.mem x0.cyc) : Sound q z (useRun x0 x1 x2 x3).pending (useRun x0 x1 x2 x3).sec.fuses (useRun x0 x1 x2 x3).csr (useRun x0 x1 x2 x3).mem (useRun x0 x1 x2 x3).cyc := by
  unfold useRun
  simp (maxDischargeDepth := 40) +contextual [*]

@[simp] theorem sound_makeList {x0 : State} {x1 : Nat} {x2 : Nat} {x3 : Nat} {x4 : Nat} (h0 : Sound q z x0.pending x0.sec.fuses x0.csr x0.mem x0.cyc) : Sound q z (makeList x0 x1 x2 x3 x4).pending (makeList x0 x1 x2 x3 x4).sec.fuses (makeList x0 x1 x2 x3 x4).csr (makeList x0 x1 x2 x3 x4).mem (makeList x0 x1 x2 x3 x4).cyc := by
  unfold makeList
  try dsimp only
  repeat' first
    | with_reducible assumption
    | with_reducible refine sound_ite ?_ ?_
    | with_reducible refine sound_foldl ?_ (fun _ _ _ => ?_)
    | with_reducible refine sound_write ?_
    | with_reducible refine sound_useRun ?_
    | split

@[simp] theorem sound_bindEntry {x0 : State} {x1 : Nat} (h0 : Sound q z x0.pending x0.sec.fuses x0.csr x0.mem x0.cyc) : Sound q z (bindEntry x0 x1).pending (bindEntry x0 x1).sec.fuses (bindEntry x0 x1).csr (bindEntry x0 x1).mem (bindEntry x0 x1).cyc := by
  unfold bindEntry
  try dsimp only
  repeat' first
    | with_reducible assumption
    | with_reducible refine sound_ite ?_ ?_
    | with_reducible refine sound_foldl ?_ (fun _ _ _ => ?_)
    | with_reducible refine sound_setDirStatus ?_
    | with_reducible refine sound_write ?_
    | with_reducible refine sound_makeList ?_
    | split

@[simp] theorem sound_writeEvent {x0 : State} {x1 : Nat} {x2 : List Byte} (h0 : Sound q z x0.pending x0.sec.fuses x0.csr x0.mem x0.cyc) : Sound q z (writeEvent x0 x1 x2).pending (writeEvent x0 x1 x2).sec.fuses (writeEvent x0 x1 x2).csr (writeEvent x0 x1 x2).mem (writeEvent x0 x1 x2).cyc := by
  unfold writeEvent
  simp (maxDischargeDepth := 40) +contextual [*]

@[simp] theorem sound_writeHeader {x0 : State} {x1 : EvHdr → EvHdr} (h0 : Sound q z x0.pending x0.sec.fuses x0.csr x0.mem x0.cyc) : Sound q z (writeHeader x0 x1).pending (writeHeader x0 x1).sec.fuses (writeHeader x0 x1).csr (writeHeader x0 x1).mem (writeHeader x0 x1).cyc := by
  unfold writeHeader
  simp (maxDischargeDepth := 40) +contextual [*]

@[simp] theorem sound_bootLog {x0 : State} (h0 : Sound q z x0.pending x0.sec.fuses x0.csr x0.mem x0.cyc) : Sound q z (bootLog x0).pending (bootLog x0).sec.fuses (bootLog x0).csr (bootLog x0).mem (bootLog x0).cyc := by
  unfold bootLog
  simp (maxDischargeDepth := 40) +contextual [*]

@[simp] theorem sound_bootPatch {x0 : State} (h0 : Sound q z x0.pending x0.sec.fuses x0.csr x0.mem x0.cyc) : Sound q z (bootPatch x0).pending (bootPatch x0).sec.fuses (bootPatch x0).csr (bootPatch x0).mem (bootPatch x0).cyc := by
  unfold bootPatch
  try dsimp only
  repeat' first
    | with_reducible assumption
    | with_reducible refine sound_ite ?_ ?_
    | with_reducible refine sound_foldl ?_ (fun _ _ _ => ?_)
    | with_reducible refine sound_setFld ?_
    | with_reducible refine sound_sigFail ?_
    | split

@[simp] theorem sound_loadTile {x0 : Bool} {x1 : State} {x2 : Nat} (h1 : Sound q z x1.pending x1.sec.fuses x1.csr x1.mem x1.cyc) : Sound q z (loadTile x0 x1 x2).pending (loadTile x0 x1 x2).sec.fuses (loadTile x0 x1 x2).csr (loadTile x0 x1 x2).mem (loadTile x0 x1 x2).cyc := by
  unfold loadTile
  try dsimp only
  repeat' first
    | with_reducible assumption
    | with_reducible refine sound_ite ?_ ?_
    | with_reducible refine sound_foldl ?_ (fun _ _ _ => ?_)
    | with_reducible refine sound_updTile ?_
    | with_reducible refine sound_pendByAge ?_
    | with_reducible refine sound_retireTile ?_
    | split

@[simp] theorem sound_loadRecords {x0 : State} {x1 : Nat} {x2 : Bool} (h0 : Sound q z x0.pending x0.sec.fuses x0.csr x0.mem x0.cyc) : Sound q z (loadRecords x0 x1 x2).pending (loadRecords x0 x1 x2).sec.fuses (loadRecords x0 x1 x2).csr (loadRecords x0 x1 x2).mem (loadRecords x0 x1 x2).cyc := by
  unfold loadRecords
  simp (maxDischargeDepth := 40) +contextual [*]

@[simp] theorem sound_bootPower {x0 : State} (h0 : Sound q z x0.pending x0.sec.fuses x0.csr x0.mem x0.cyc) : Sound q z (bootPower x0).pending (bootPower x0).sec.fuses (bootPower x0).csr (bootPower x0).mem (bootPower x0).cyc := by
  unfold bootPower
  simp (maxDischargeDepth := 40) +contextual [*]

@[simp] theorem sound_bootTrip {x0 : State} (h0 : Sound q z x0.pending x0.sec.fuses x0.csr x0.mem x0.cyc) : Sound q z (bootTrip x0).pending (bootTrip x0).sec.fuses (bootTrip x0).csr (bootTrip x0).mem (bootTrip x0).cyc := by
  unfold bootTrip
  simp (maxDischargeDepth := 40) +contextual [*]

@[simp] theorem sound_budgetPauses {x0 : State} (h0 : Sound q z x0.pending x0.sec.fuses x0.csr x0.mem x0.cyc) : Sound q z (budgetPauses x0).pending (budgetPauses x0).sec.fuses (budgetPauses x0).csr (budgetPauses x0).mem (budgetPauses x0).cyc := by
  unfold budgetPauses
  try dsimp only
  repeat' first
    | with_reducible assumption
    | with_reducible refine sound_ite ?_ ?_
    | with_reducible refine sound_foldl ?_ (fun _ _ _ => ?_)
    | with_reducible refine sound_pauseCheck ?_
    | with_reducible refine sound_updSeq ?_
    | split

@[simp] theorem sound_updBudget {x0 : State} {x1 : Nat} {x2 : Budget → Budget} (h0 : Sound q z x0.pending x0.sec.fuses x0.csr x0.mem x0.cyc) : Sound q z (updBudget x0 x1 x2).pending (updBudget x0 x1 x2).sec.fuses (updBudget x0 x1 x2).csr (updBudget x0 x1 x2).mem (updBudget x0 x1 x2).cyc := by
  unfold updBudget
  simp (maxDischargeDepth := 40) +contextual [*]

@[simp] theorem sound_takeGrant {x0 : State} {x1 : Nat} {x2 : Nat} (h0 : Sound q z x0.pending x0.sec.fuses x0.csr x0.mem x0.cyc) : Sound q z (takeGrant x0 x1 x2).pending (takeGrant x0 x1 x2).sec.fuses (takeGrant x0 x1 x2).csr (takeGrant x0 x1 x2).mem (takeGrant x0 x1 x2).cyc := by
  unfold takeGrant
  try dsimp only
  repeat' first
    | with_reducible assumption
    | with_reducible refine sound_ite ?_ ?_
    | with_reducible refine sound_foldl ?_ (fun _ _ _ => ?_)
    | with_reducible refine sound_updBudget ?_
    | with_reducible refine sound_resumeCheck ?_
    | with_reducible refine sound_updSeq ?_
    | split

@[simp] theorem sound_takeAnswer {x0 : State} {x1 : Nat} {x2 : Nat} {x3 : Nat} (h0 : Sound q z x0.pending x0.sec.fuses x0.csr x0.mem x0.cyc) : Sound q z (takeAnswer x0 x1 x2 x3).pending (takeAnswer x0 x1 x2 x3).sec.fuses (takeAnswer x0 x1 x2 x3).csr (takeAnswer x0 x1 x2 x3).mem (takeAnswer x0 x1 x2 x3).cyc := by
  unfold takeAnswer
  try dsimp only
  repeat' first
    | with_reducible assumption
    | with_reducible refine sound_ite ?_ ?_
    | with_reducible refine sound_foldl ?_ (fun _ _ _ => ?_)
    | with_reducible refine sound_takeGrant ?_
    | split

@[simp] theorem sound_sendBudgetReq {x0 : State} {x1 : Nat} {x2 : Budget} (h0 : Sound q z x0.pending x0.sec.fuses x0.csr x0.mem x0.cyc) : Sound q z (sendBudgetReq x0 x1 x2).pending (sendBudgetReq x0 x1 x2).sec.fuses (sendBudgetReq x0 x1 x2).csr (sendBudgetReq x0 x1 x2).mem (sendBudgetReq x0 x1 x2).cyc := by
  unfold sendBudgetReq
  simp (maxDischargeDepth := 40) +contextual [*]

@[simp] theorem sound_budgetReqs {x0 : State} (h0 : Sound q z x0.pending x0.sec.fuses x0.csr x0.mem x0.cyc) : Sound q z (budgetReqs x0).pending (budgetReqs x0).sec.fuses (budgetReqs x0).csr (budgetReqs x0).mem (budgetReqs x0).cyc := by
  unfold budgetReqs
  try dsimp only
  repeat' first
    | with_reducible assumption
    | with_reducible refine sound_ite ?_ ?_
    | with_reducible refine sound_foldl ?_ (fun _ _ _ => ?_)
    | with_reducible refine sound_sendBudgetReq ?_
    | split

@[simp] theorem sound_busConvert {x0 : State} {x1 : Nat} (h0 : Sound q z x0.pending x0.sec.fuses x0.csr x0.mem x0.cyc) : Sound q z (busConvert x0 x1).pending (busConvert x0 x1).sec.fuses (busConvert x0 x1).csr (busConvert x0 x1).mem (busConvert x0 x1).cyc := by
  unfold busConvert
  simp (maxDischargeDepth := 40) +contextual [*]

@[simp] theorem sound_charge {x0 : State} {x1 : Nat} {x2 : Nat} (h0 : Sound q z x0.pending x0.sec.fuses x0.csr x0.mem x0.cyc) : Sound q z (charge x0 x1 x2).pending (charge x0 x1 x2).sec.fuses (charge x0 x1 x2).csr (charge x0 x1 x2).mem (charge x0 x1 x2).cyc := by
  unfold charge
  simp (maxDischargeDepth := 40) +contextual [*]

@[simp] theorem sound_chargeWear {x0 : State} {x1 : Nat} {x2 : Nat} (h0 : Sound q z x0.pending x0.sec.fuses x0.csr x0.mem x0.cyc) : Sound q z (chargeWear x0 x1 x2).pending (chargeWear x0 x1 x2).sec.fuses (chargeWear x0 x1 x2).csr (chargeWear x0 x1 x2).mem (chargeWear x0 x1 x2).cyc := by
  unfold chargeWear
  simp (maxDischargeDepth := 40) +contextual [*]

@[simp] theorem sound_setEarly {x0 : State} {x1 : Nat} (h0 : Sound q z x0.pending x0.sec.fuses x0.csr x0.mem x0.cyc) : Sound q z (setEarly x0 x1).pending (setEarly x0 x1).sec.fuses (setEarly x0 x1).csr (setEarly x0 x1).mem (setEarly x0 x1).cyc := by
  unfold setEarly
  simp (maxDischargeDepth := 40) +contextual [*]

@[simp] theorem sound_checkDone {x0 : State} {x1 : Nat} {x2 : ChkSt} (h0 : Sound q z x0.pending x0.sec.fuses x0.csr x0.mem x0.cyc) : Sound q z (checkDone x0 x1 x2).pending (checkDone x0 x1 x2).sec.fuses (checkDone x0 x1 x2).csr (checkDone x0 x1 x2).mem (checkDone x0 x1 x2).cyc := by
  unfold checkDone
  simp (maxDischargeDepth := 40) +contextual [*]

@[simp] theorem sound_failStepIn {x0 : State} {x1 : Nat} {x2 : Nat} {x3 : Nat} {x4 : Nat} {x5 : Nat} {x6 : Nat} {x7 : List Byte} (h0 : Sound q z x0.pending x0.sec.fuses x0.csr x0.mem x0.cyc) : Sound q z (failStepIn x0 x1 x2 x3 x4 x5 x6 x7).pending (failStepIn x0 x1 x2 x3 x4 x5 x6 x7).sec.fuses (failStepIn x0 x1 x2 x3 x4 x5 x6 x7).csr (failStepIn x0 x1 x2 x3 x4 x5 x6 x7).mem (failStepIn x0 x1 x2 x3 x4 x5 x6 x7).cyc := by
  unfold failStepIn
  simp (maxDischargeDepth := 40) +contextual [*]

@[simp] theorem sound_failPos {x0 : State} {x1 : Nat} {x2 : Nat} {x3 : Nat} {x4 : Nat} {x5 : Nat} {x6 : Nat} (h0 : Sound q z x0.pending x0.sec.fuses x0.csr x0.mem x0.cyc) : Sound q z (failPos x0 x1 x2 x3 x4 x5 x6).pending (failPos x0 x1 x2 x3 x4 x5 x6).sec.fuses (failPos x0 x1 x2 x3 x4 x5 x6).csr (failPos x0 x1 x2 x3 x4 x5 x6).mem (failPos x0 x1 x2 x3 x4 x5 x6).cyc := by
  unfold failPos
  simp (maxDischargeDepth := 40) +contextual [*]

@[simp] theorem sound_sideFail {x0 : State} {x1 : Nat} {x2 : Nat} {x3 : Nat} {x4 : Nat} {x5 : Nat} (h0 : Sound q z x0.pending x0.sec.fuses x0.csr x0.mem x0.cyc) : Sound q z (sideFail x0 x1 x2 x3 x4 x5).pending (sideFail x0 x1 x2 x3 x4 x5).sec.fuses (sideFail x0 x1 x2 x3 x4 x5).csr (sideFail x0 x1 x2 x3 x4 x5).mem (sideFail x0 x1 x2 x3 x4 x5).cyc := by
  unfold sideFail
  simp (maxDischargeDepth := 40) +contextual [*]

@[simp] theorem sound_checkPos {x0 : State} {x1 : State} {x2 : Nat} {x3 : Nat} {x4 : Nat} (h0 : Sound q z x0.pending x0.sec.fuses x0.csr x0.mem x0.cyc) (h1 : Sound q z x1.pending x1.sec.fuses x1.csr x1.mem x1.cyc) : Sound q z (checkPos x0 x1 x2 x3 x4).pending (checkPos x0 x1 x2 x3 x4).sec.fuses (checkPos x0 x1 x2 x3 x4).csr (checkPos x0 x1 x2 x3 x4).mem (checkPos x0 x1 x2 x3 x4).cyc := by
  unfold checkPos
  try dsimp only
  repeat' first
    | with_reducible assumption
    | with_reducible refine sound_ite ?_ ?_
    | with_reducible refine sound_foldl ?_ (fun _ _ _ => ?_)
    | with_reducible refine sound_sideFail ?_
    | with_reducible refine sound_count ?_
    | with_reducible refine sound_failStepIn ?_
    | with_reducible refine sound_failPos ?_
    | with_reducible refine sound_readUe ?_
    | split

@[simp] theorem sound_checkWait {x0 : State} {x1 : Nat} (h0 : Sound q z x0.pending x0.sec.fuses x0.csr x0.mem x0.cyc) : Sound q z (checkWait x0 x1).pending (checkWait x0 x1).sec.fuses (checkWait x0 x1).csr (checkWait x0 x1).mem (checkWait x0 x1).cyc := by
  unfold checkWait
  simp (maxDischargeDepth := 40) +contextual [*]

@[simp] theorem sound_failStep {x0 : State} {x1 : Nat} {x2 : Nat} {x3 : Nat} {x4 : Nat} {x5 : Nat} {x6 : List Byte} (h0 : Sound q z x0.pending x0.sec.fuses x0.csr x0.mem x0.cyc) : Sound q z (failStep x0 x1 x2 x3 x4 x5 x6).pending (failStep x0 x1 x2 x3 x4 x5 x6).sec.fuses (failStep x0 x1 x2 x3 x4 x5 x6).csr (failStep x0 x1 x2 x3 x4 x5 x6).mem (failStep x0 x1 x2 x3 x4 x5 x6).cyc := by
  unfold failStep
  simp (maxDischargeDepth := 40) +contextual [*]

@[simp] theorem sound_memFail {x0 : State} {x1 : Nat} {x2 : Nat} {x3 : Nat} {x4 : Nat} (h0 : Sound q z x0.pending x0.sec.fuses x0.csr x0.mem x0.cyc) : Sound q z (memFail x0 x1 x2 x3 x4).pending (memFail x0 x1 x2 x3 x4).sec.fuses (memFail x0 x1 x2 x3 x4).csr (memFail x0 x1 x2 x3 x4).mem (memFail x0 x1 x2 x3 x4).cyc := by
  unfold memFail
  simp (maxDischargeDepth := 40) +contextual [*]

@[simp] theorem sound_spoilRecord {x0 : State} {x1 : Nat} {x2 : Nat} {x3 : Nat} (h0 : Sound q z x0.pending x0.sec.fuses x0.csr x0.mem x0.cyc) : Sound q z (spoilRecord x0 x1 x2 x3).pending (spoilRecord x0 x1 x2 x3).sec.fuses (spoilRecord x0 x1 x2 x3).csr (spoilRecord x0 x1 x2 x3).mem (spoilRecord x0 x1 x2 x3).cyc := by
  unfold spoilRecord
  try dsimp only
  repeat' first
    | with_reducible assumption
    | with_reducible refine sound_ite ?_ ?_
    | with_reducible refine sound_foldl ?_ (fun _ _ _ => ?_)
    | with_reducible refine sound_updTile ?_
    | split

@[simp] theorem sound_takeMemErr {x0 : State} {x1 : MemErr} (h0 : Sound q z x0.pending x0.sec.fuses x0.csr x0.mem x0.cyc) : Sound q z (takeMemErr x0 x1).pending (takeMemErr x0 x1).sec.fuses (takeMemErr x0 x1).csr (takeMemErr x0 x1).mem (takeMemErr x0 x1).cyc := by
  unfold takeMemErr
  simp (maxDischargeDepth := 40) +contextual [*]

@[simp] theorem sound_checksRound {x0 : RoundIn} {x1 : State} (h1 : Sound q z x1.pending x1.sec.fuses x1.csr x1.mem x1.cyc) : Sound q z (checksRound x0 x1).pending (checksRound x0 x1).sec.fuses (checksRound x0 x1).csr (checksRound x0 x1).mem (checksRound x0 x1).cyc := by
  unfold checksRound
  simp (maxDischargeDepth := 40) +contextual [*]

@[simp] theorem sound_clearGated {x0 : State} {x1 : Nat} (h0 : Sound q z x0.pending x0.sec.fuses x0.csr x0.mem x0.cyc) : Sound q z (clearGated x0 x1).pending (clearGated x0 x1).sec.fuses (clearGated x0 x1).csr (clearGated x0 x1).mem (clearGated x0 x1).cyc := by
  unfold clearGated
  simp (maxDischargeDepth := 40) +contextual [*]

@[simp] theorem sound_clearMarks {x0 : State} {x1 : Nat} (h0 : Sound q z x0.pending x0.sec.fuses x0.csr x0.mem x0.cyc) : Sound q z (clearMarks x0 x1).pending (clearMarks x0 x1).sec.fuses (clearMarks x0 x1).csr (clearMarks x0 x1).mem (clearMarks x0 x1).cyc := by
  unfold clearMarks
  simp (maxDischargeDepth := 40) +contextual [*]

@[simp] theorem sound_closeVector {x0 : State} {x1 : Nat} {x2 : Nat} {x3 : Nat} {x4 : Nat} {x5 : Nat} {x6 : Scan} (h0 : Sound q z x0.pending x0.sec.fuses x0.csr x0.mem x0.cyc) : Sound q z (closeVector x0 x1 x2 x3 x4 x5 x6).pending (closeVector x0 x1 x2 x3 x4 x5 x6).sec.fuses (closeVector x0 x1 x2 x3 x4 x5 x6).csr (closeVector x0 x1 x2 x3 x4 x5 x6).mem (closeVector x0 x1 x2 x3 x4 x5 x6).cyc := by
  unfold closeVector
  simp (maxDischargeDepth := 40) +contextual [*]

@[simp] theorem sound_cmdWords {n : Nat} : ∀ {s : State} {m o : Nat} {bs : List Byte}, Sound q z s.pending s.sec.fuses s.csr s.mem s.cyc →
    Sound q z (cmdWords s m o bs n).pending (cmdWords s m o bs n).sec.fuses (cmdWords s m o bs n).csr (cmdWords s m o bs n).mem (cmdWords s m o bs n).cyc := by
  induction n with
  | zero => intro s m o bs h; exact h
  | succ n ih => intro s m o bs h; exact ih (sound_mbxCmd h)

@[simp] theorem sound_committed {x0 : State} {x1 : Nat} (h0 : Sound q z x0.pending x0.sec.fuses x0.csr x0.mem x0.cyc) : Sound q z (committed x0 x1).pending (committed x0 x1).sec.fuses (committed x0 x1).csr (committed x0 x1).mem (committed x0 x1).cyc := by
  unfold committed
  simp (maxDischargeDepth := 40) +contextual [*]

@[simp] theorem sound_deliverTok {x0 : State} {x1 : Nat} {x2 : Nat} {x3 : Nat} (h0 : Sound q z x0.pending x0.sec.fuses x0.csr x0.mem x0.cyc) : Sound q z (deliverTok x0 x1 x2 x3).pending (deliverTok x0 x1 x2 x3).sec.fuses (deliverTok x0 x1 x2 x3).csr (deliverTok x0 x1 x2 x3).mem (deliverTok x0 x1 x2 x3).cyc := by
  unfold deliverTok
  simp (maxDischargeDepth := 40) +contextual [*]

@[simp] theorem sound_deliverAll {x0 : State} {x1 : Nat} {x2 : Nat} {x3 : List Nat} (h0 : Sound q z x0.pending x0.sec.fuses x0.csr x0.mem x0.cyc) : Sound q z (deliverAll x0 x1 x2 x3).pending (deliverAll x0 x1 x2 x3).sec.fuses (deliverAll x0 x1 x2 x3).csr (deliverAll x0 x1 x2 x3).mem (deliverAll x0 x1 x2 x3).cyc := by
  unfold deliverAll
  simp (maxDischargeDepth := 40) +contextual [*]

@[simp] theorem sound_commitDecode {x0 : State} {x1 : Nat} {x2 : List Place} {x3 : List Nat} (h0 : Sound q z x0.pending x0.sec.fuses x0.csr x0.mem x0.cyc) : Sound q z (commitDecode x0 x1 x2 x3).pending (commitDecode x0 x1 x2 x3).sec.fuses (commitDecode x0 x1 x2 x3).csr (commitDecode x0 x1 x2 x3).mem (commitDecode x0 x1 x2 x3).cyc := by
  unfold commitDecode
  simp (maxDischargeDepth := 40) +contextual [*]

@[simp] theorem sound_commitEnds {x0 : State} {x1 : Bool} (h0 : Sound q z x0.pending x0.sec.fuses x0.csr x0.mem x0.cyc) : Sound q z (commitEnds x0 x1).pending (commitEnds x0 x1).sec.fuses (commitEnds x0 x1).csr (commitEnds x0 x1).mem (commitEnds x0 x1).cyc := by
  unfold commitEnds
  simp (maxDischargeDepth := 40) +contextual [*]

@[simp] theorem sound_commitPrefill {x0 : State} {x1 : Nat} {x2 : List Place} {x3 : List Nat} (h0 : Sound q z x0.pending x0.sec.fuses x0.csr x0.mem x0.cyc) : Sound q z (commitPrefill x0 x1 x2 x3).pending (commitPrefill x0 x1 x2 x3).sec.fuses (commitPrefill x0 x1 x2 x3).csr (commitPrefill x0 x1 x2 x3).mem (commitPrefill x0 x1 x2 x3).cyc := by
  unfold commitPrefill
  simp (maxDischargeDepth := 40) +contextual [*]

@[simp] theorem sound_returnBad {x0 : State} {x1 : Nat} {x2 : Bool} (h0 : Sound q z x0.pending x0.sec.fuses x0.csr x0.mem x0.cyc) : Sound q z (returnBad x0 x1 x2).pending (returnBad x0 x1 x2).sec.fuses (returnBad x0 x1 x2).csr (returnBad x0 x1 x2).mem (returnBad x0 x1 x2).cyc := by
  unfold returnBad
  simp (maxDischargeDepth := 40) +contextual [*]

@[simp] theorem sound_commitSeq {x0 : Bool} {x1 : Nat} {x2 : List Place} {x3 : State} {x4 : Nat} (h3 : Sound q z x3.pending x3.sec.fuses x3.csr x3.mem x3.cyc) : Sound q z (commitSeq x0 x1 x2 x3 x4).pending (commitSeq x0 x1 x2 x3 x4).sec.fuses (commitSeq x0 x1 x2 x3 x4).csr (commitSeq x0 x1 x2 x3 x4).mem (commitSeq x0 x1 x2 x3 x4).cyc := by
  unfold commitSeq
  simp (maxDischargeDepth := 40) +contextual [*]

@[simp] theorem sound_commitStep {x0 : State} {x1 : Bool} {x2 : Nat} {x3 : Nat} (h0 : Sound q z x0.pending x0.sec.fuses x0.csr x0.mem x0.cyc) : Sound q z (commitStep x0 x1 x2 x3).pending (commitStep x0 x1 x2 x3).sec.fuses (commitStep x0 x1 x2 x3).csr (commitStep x0 x1 x2 x3).mem (commitStep x0 x1 x2 x3).cyc := by
  unfold commitStep
  simp (maxDischargeDepth := 40) +contextual [*]

@[simp] theorem sound_resetLists {x0 : State} (h0 : Sound q z x0.pending x0.sec.fuses x0.csr x0.mem x0.cyc) : Sound q z (resetLists x0).pending (resetLists x0).sec.fuses (resetLists x0).csr (resetLists x0).mem (resetLists x0).cyc := by
  unfold resetLists
  simp (maxDischargeDepth := 40) +contextual [*]

@[simp] theorem sound_swapSeqs {x0 : State} (h0 : Sound q z x0.pending x0.sec.fuses x0.csr x0.mem x0.cyc) : Sound q z (swapSeqs x0).pending (swapSeqs x0).sec.fuses (swapSeqs x0).csr (swapSeqs x0).mem (swapSeqs x0).cyc := by
  unfold swapSeqs
  simp (maxDischargeDepth := 40) +contextual [*]

@[simp] theorem sound_updateImage {x0 : State} (h0 : Sound q z x0.pending x0.sec.fuses x0.csr x0.mem x0.cyc) : Sound q z (updateImage x0).pending (updateImage x0).sec.fuses (updateImage x0).csr (updateImage x0).mem (updateImage x0).cyc := by
  unfold updateImage
  simp (maxDischargeDepth := 40) +contextual [*]

@[simp] theorem sound_commitSwap {x0 : State} {x1 : Option (Nat × Nat)} (h0 : Sound q z x0.pending x0.sec.fuses x0.csr x0.mem x0.cyc) : Sound q z (commitSwap x0 x1).pending (commitSwap x0 x1).sec.fuses (commitSwap x0 x1).csr (commitSwap x0 x1).mem (commitSwap x0 x1).cyc := by
  unfold commitSwap
  simp (maxDischargeDepth := 40) +contextual [*]

@[simp] theorem sound_computePos {x0 : State} {x1 : Nat} {x2 : Nat} (h0 : Sound q z x0.pending x0.sec.fuses x0.csr x0.mem x0.cyc) : Sound q z (computePos x0 x1 x2).pending (computePos x0 x1 x2).sec.fuses (computePos x0 x1 x2).csr (computePos x0 x1 x2).mem (computePos x0 x1 x2).cyc := by
  unfold computePos
  try dsimp only
  repeat' first
    | with_reducible assumption
    | with_reducible refine sound_ite ?_ ?_
    | with_reducible refine sound_foldl ?_ (fun _ _ _ => ?_)
    | with_reducible refine sound_write ?_
    | split

@[simp] theorem sound_configIntegrity {x0 : State} {x1 : List Nat} (h0 : Sound q z x0.pending x0.sec.fuses x0.csr x0.mem x0.cyc) : Sound q z (configIntegrity x0 x1).pending (configIntegrity x0 x1).sec.fuses (configIntegrity x0 x1).csr (configIntegrity x0 x1).mem (configIntegrity x0 x1).cyc := by
  unfold configIntegrity
  try dsimp only
  repeat' first
    | with_reducible assumption
    | with_reducible refine sound_ite ?_ ?_
    | with_reducible refine sound_foldl ?_ (fun _ _ _ => ?_)
    | with_reducible refine sound_raiseInt ?_
    | with_reducible refine sound_setFld ?_
    | with_reducible refine sound_recordFault ?_
    | with_reducible refine sound_clearEnable ?_
    | split

@[simp] theorem sound_failReset {x0 : State} {x1 : Nat} (h0 : Sound q z x0.pending x0.sec.fuses x0.csr x0.mem x0.cyc) : Sound q z (failReset x0 x1).pending (failReset x0 x1).sec.fuses (failReset x0 x1).csr (failReset x0 x1).mem (failReset x0 x1).cyc := by
  unfold failReset
  simp (maxDischargeDepth := 40) +contextual [*]

@[simp] theorem sound_resetFieldDomain {x0 : State} {x1 : Nat} (h0 : Sound q z x0.pending x0.sec.fuses x0.csr x0.mem x0.cyc) : Sound q z (resetFieldDomain x0 x1).pending (resetFieldDomain x0 x1).sec.fuses (resetFieldDomain x0 x1).csr (resetFieldDomain x0 x1).mem (resetFieldDomain x0 x1).cyc := by
  unfold resetFieldDomain
  simp (maxDischargeDepth := 40) +contextual [*]

@[simp] theorem sound_resetLink {x0 : State} {x1 : Nat} (h0 : Sound q z x0.pending x0.sec.fuses x0.csr x0.mem x0.cyc) : Sound q z (resetLink x0 x1).pending (resetLink x0 x1).sec.fuses (resetLink x0 x1).csr (resetLink x0 x1).mem (resetLink x0 x1).cyc := by
  unfold resetLink
  simp (maxDischargeDepth := 40) +contextual [*]

@[simp] theorem sound_dropShardWork {x0 : State} (h0 : Sound q z x0.pending x0.sec.fuses x0.csr x0.mem x0.cyc) : Sound q z (dropShardWork x0).pending (dropShardWork x0).sec.fuses (dropShardWork x0).csr (dropShardWork x0).mem (dropShardWork x0).cyc := by
  unfold dropShardWork
  try dsimp only
  repeat' first
    | with_reducible assumption
    | with_reducible refine sound_ite ?_ ?_
    | with_reducible refine sound_foldl ?_ (fun _ _ _ => ?_)
    | with_reducible refine sound_endFetch ?_
    | with_reducible refine sound_finish ?_
    | with_reducible refine sound_unhold ?_
    | with_reducible refine sound_swapIdle ?_
    | split

@[simp] theorem sound_toJoined {x0 : State} (h0 : Sound q z x0.pending x0.sec.fuses x0.csr x0.mem x0.cyc) : Sound q z (toJoined x0).pending (toJoined x0).sec.fuses (toJoined x0).csr (toJoined x0).mem (toJoined x0).cyc := by
  unfold toJoined
  simp (maxDischargeDepth := 40) +contextual [*]

@[simp] theorem sound_loseMaster {s : State} (h : Sound q z s.pending s.sec.fuses s.csr s.mem s.cyc) :
    Sound q z (loseMaster s).pending (loseMaster s).sec.fuses (loseMaster s).csr (loseMaster s).mem (loseMaster s).cyc := by
  unfold loseMaster
  dsimp only
  repeat' first
    | with_reducible assumption
    | with_reducible refine sound_toJoined ?_
    | with_reducible refine sound_foldl ?_ (fun _ _ _ => ?_)
    | with_reducible refine sound_endSeq ?_
    | with_reducible refine sound_uninstall ?_
    | with_reducible refine sound_stopFiring ?_
    | with_reducible refine sound_setFld ?_
    | with_reducible refine sound_dropShardWork ?_

@[simp] theorem sound_resetStack {x0 : State} {x1 : Nat} (h0 : Sound q z x0.pending x0.sec.fuses x0.csr x0.mem x0.cyc) : Sound q z (resetStack x0 x1).pending (resetStack x0 x1).sec.fuses (resetStack x0 x1).csr (resetStack x0 x1).mem (resetStack x0 x1).cyc := by
  unfold resetStack
  simp (maxDischargeDepth := 40) +contextual [*]

@[simp] theorem sound_shutLinks {x0 : State} (h0 : Sound q z x0.pending x0.sec.fuses x0.csr x0.mem x0.cyc) : Sound q z (shutLinks x0).pending (shutLinks x0).sec.fuses (shutLinks x0).csr (shutLinks x0).mem (shutLinks x0).cyc := by
  unfold shutLinks
  simp (maxDischargeDepth := 40) +contextual [*]

@[simp] theorem sound_enterOos {x0 : State} (h0 : Sound q z x0.pending x0.sec.fuses x0.csr x0.mem x0.cyc) : Sound q z (enterOos x0).pending (enterOos x0).sec.fuses (enterOos x0).csr (enterOos x0).mem (enterOos x0).cyc := by
  unfold enterOos
  simp (maxDischargeDepth := 40) +contextual [*]

@[simp] theorem sound_markOos {x0 : State} (h0 : Sound q z x0.pending x0.sec.fuses x0.csr x0.mem x0.cyc) : Sound q z (markOos x0).pending (markOos x0).sec.fuses (markOos x0).csr (markOos x0).mem (markOos x0).cyc := by
  unfold markOos
  simp (maxDischargeDepth := 40) +contextual [*]

@[simp] theorem sound_retireEffect {x0 : State} {x1 : Nat} (h0 : Sound q z x0.pending x0.sec.fuses x0.csr x0.mem x0.cyc) : Sound q z (retireEffect x0 x1).pending (retireEffect x0 x1).sec.fuses (retireEffect x0 x1).csr (retireEffect x0 x1).mem (retireEffect x0 x1).cyc := by
  unfold retireEffect
  simp (maxDischargeDepth := 40) +contextual [*]

@[simp] theorem sound_retireDomain {x0 : State} {x1 : DomReset} (h0 : Sound q z x0.pending x0.sec.fuses x0.csr x0.mem x0.cyc) : Sound q z (retireDomain x0 x1).pending (retireDomain x0 x1).sec.fuses (retireDomain x0 x1).csr (retireDomain x0 x1).mem (retireDomain x0 x1).cyc := by
  unfold retireDomain
  simp (maxDischargeDepth := 40) +contextual [*]

@[simp] theorem sound_enterReset {x0 : State} {x1 : DomReset} (h0 : Sound q z x0.pending x0.sec.fuses x0.csr x0.mem x0.cyc) : Sound q z (enterReset x0 x1).pending (enterReset x0 x1).sec.fuses (enterReset x0 x1).csr (enterReset x0 x1).mem (enterReset x0 x1).cyc := by
  unfold enterReset
  simp (maxDischargeDepth := 40) +contextual [*]

@[simp] theorem sound_enterResets {x0 : State} (h0 : Sound q z x0.pending x0.sec.fuses x0.csr x0.mem x0.cyc) : Sound q z (enterResets x0).pending (enterResets x0).sec.fuses (enterResets x0).csr (enterResets x0).mem (enterResets x0).cyc := by
  unfold enterResets
  simp (maxDischargeDepth := 40) +contextual [*]

@[simp] theorem sound_coreBoundary {x0 : State} (h0 : Sound q z x0.pending x0.sec.fuses x0.csr x0.mem x0.cyc) : Sound q z (coreBoundary x0).pending (coreBoundary x0).sec.fuses (coreBoundary x0).csr (coreBoundary x0).mem (coreBoundary x0).cyc := by
  unfold coreBoundary
  simp (maxDischargeDepth := 40) +contextual [*]

@[simp] theorem sound_countBehind {x0 : State} (h0 : Sound q z x0.pending x0.sec.fuses x0.csr x0.mem x0.cyc) : Sound q z (countBehind x0).pending (countBehind x0).sec.fuses (countBehind x0).csr (countBehind x0).mem (countBehind x0).cyc := by
  unfold countBehind
  simp (maxDischargeDepth := 40) +contextual [*]

@[simp] theorem sound_windowCount {x0 : State} {x1 : Nat} {x2 : Nat} {x3 : Nat} {x4 : Nat} (h0 : Sound q z x0.pending x0.sec.fuses x0.csr x0.mem x0.cyc) : Sound q z (windowCount x0 x1 x2 x3 x4).pending (windowCount x0 x1 x2 x3 x4).sec.fuses (windowCount x0 x1 x2 x3 x4).csr (windowCount x0 x1 x2 x3 x4).mem (windowCount x0 x1 x2 x3 x4).cyc := by
  unfold windowCount
  simp (maxDischargeDepth := 40) +contextual [*]

@[simp] theorem sound_countDrive {x0 : State} {x1 : Nat} {x2 : List (Int × Bool)} {x3 : Nat} (h0 : Sound q z x0.pending x0.sec.fuses x0.csr x0.mem x0.cyc) : Sound q z (countDrive x0 x1 x2 x3).pending (countDrive x0 x1 x2 x3).sec.fuses (countDrive x0 x1 x2 x3).csr (countDrive x0 x1 x2 x3).mem (countDrive x0 x1 x2 x3).cyc := by
  unfold countDrive
  simp (maxDischargeDepth := 40) +contextual [*]

@[simp] theorem sound_countInvalid {x0 : Nat} {x1 : State} {x2 : State} (h1 : Sound q z x1.pending x1.sec.fuses x1.csr x1.mem x1.cyc) (h2 : Sound q z x2.pending x2.sec.fuses x2.csr x2.mem x2.cyc) : Sound q z (countInvalid x0 x1 x2).pending (countInvalid x0 x1 x2).sec.fuses (countInvalid x0 x1 x2).csr (countInvalid x0 x1 x2).mem (countInvalid x0 x1 x2).cyc := by
  unfold countInvalid
  simp (maxDischargeDepth := 40) +contextual [*]

@[simp] theorem sound_countRefused {x0 : Nat} {x1 : State} {x2 : State} (h1 : Sound q z x1.pending x1.sec.fuses x1.csr x1.mem x1.cyc) (h2 : Sound q z x2.pending x2.sec.fuses x2.csr x2.mem x2.cyc) : Sound q z (countRefused x0 x1 x2).pending (countRefused x0 x1 x2).sec.fuses (countRefused x0 x1 x2).csr (countRefused x0 x1 x2).mem (countRefused x0 x1 x2).cyc := by
  unfold countRefused
  try dsimp only
  repeat' first
    | with_reducible assumption
    | with_reducible refine sound_ite ?_ ?_
    | with_reducible refine sound_foldl ?_ (fun _ _ _ => ?_)
    | with_reducible refine sound_count ?_
    | with_reducible refine sound_readUe ?_
    | split

@[simp] theorem sound_countReset {x0 : State} {x1 : Nat} (h0 : Sound q z x0.pending x0.sec.fuses x0.csr x0.mem x0.cyc) : Sound q z (countReset x0 x1).pending (countReset x0 x1).sec.fuses (countReset x0 x1).csr (countReset x0 x1).mem (countReset x0 x1).cyc := by
  unfold countReset
  simp (maxDischargeDepth := 40) +contextual [*]

@[simp] theorem sound_tellFrame {x0 : State} {x1 : Nat} (h0 : Sound q z x0.pending x0.sec.fuses x0.csr x0.mem x0.cyc) : Sound q z (tellFrame x0 x1).pending (tellFrame x0 x1).sec.fuses (tellFrame x0 x1).csr (tellFrame x0 x1).mem (tellFrame x0 x1).cyc := by
  unfold tellFrame
  simp (maxDischargeDepth := 40) +contextual [*]

@[simp] theorem sound_ctxMismatch {x0 : State} {x1 : Nat} {x2 : Nat} {x3 : Batch} {x4 : Pos} (h0 : Sound q z x0.pending x0.sec.fuses x0.csr x0.mem x0.cyc) : Sound q z (ctxMismatch x0 x1 x2 x3 x4).pending (ctxMismatch x0 x1 x2 x3 x4).sec.fuses (ctxMismatch x0 x1 x2 x3 x4).csr (ctxMismatch x0 x1 x2 x3 x4).mem (ctxMismatch x0 x1 x2 x3 x4).cyc := by
  unfold ctxMismatch
  simp (maxDischargeDepth := 40) +contextual [*]

@[simp] theorem sound_fieldDown {x0 : State} {x1 : Nat} {x2 : Nat} (h0 : Sound q z x0.pending x0.sec.fuses x0.csr x0.mem x0.cyc) : Sound q z (fieldDown x0 x1 x2).pending (fieldDown x0 x1 x2).sec.fuses (fieldDown x0 x1 x2).csr (fieldDown x0 x1 x2).mem (fieldDown x0 x1 x2).cyc := by
  unfold fieldDown
  simp (maxDischargeDepth := 40) +contextual [*]

@[simp] theorem sound_stackFail {x0 : State} {x1 : Nat} {x2 : Nat} {x3 : Nat} (h0 : Sound q z x0.pending x0.sec.fuses x0.csr x0.mem x0.cyc) : Sound q z (stackFail x0 x1 x2 x3).pending (stackFail x0 x1 x2 x3).sec.fuses (stackFail x0 x1 x2 x3).csr (stackFail x0 x1 x2 x3).mem (stackFail x0 x1 x2 x3).cyc := by
  unfold stackFail
  simp (maxDischargeDepth := 40) +contextual [*]

@[simp] theorem sound_takeFetched {x0 : State} {x1 : Nat} {x2 : Nat} {x3 : Batch} (h0 : Sound q z x0.pending x0.sec.fuses x0.csr x0.mem x0.cyc) : Sound q z (takeFetched x0 x1 x2 x3).pending (takeFetched x0 x1 x2 x3).sec.fuses (takeFetched x0 x1 x2 x3).csr (takeFetched x0 x1 x2 x3).mem (takeFetched x0 x1 x2 x3).cyc := by
  unfold takeFetched
  try dsimp only
  repeat' first
    | with_reducible assumption
    | with_reducible refine sound_ite ?_ ?_
    | with_reducible refine sound_foldl ?_ (fun _ _ _ => ?_)
    | with_reducible refine sound_stackFail ?_
    | with_reducible refine sound_setScan ?_
    | split

@[simp] theorem sound_lateField {x0 : State} {x1 : Nat} {x2 : Nat} {x3 : Nat} {x4 : Nat} (h0 : Sound q z x0.pending x0.sec.fuses x0.csr x0.mem x0.cyc) : Sound q z (lateField x0 x1 x2 x3 x4).pending (lateField x0 x1 x2 x3 x4).sec.fuses (lateField x0 x1 x2 x3 x4).csr (lateField x0 x1 x2 x3 x4).mem (lateField x0 x1 x2 x3 x4).cyc := by
  unfold lateField
  simp (maxDischargeDepth := 40) +contextual [*]

@[simp] theorem sound_updScan {x0 : State} {x1 : Nat} {x2 : Nat} {x3 : Nat} {x4 : Scan → Scan} (h0 : Sound q z x0.pending x0.sec.fuses x0.csr x0.mem x0.cyc) : Sound q z (updScan x0 x1 x2 x3 x4).pending (updScan x0 x1 x2 x3 x4).sec.fuses (updScan x0 x1 x2 x3 x4).csr (updScan x0 x1 x2 x3 x4).mem (updScan x0 x1 x2 x3 x4).cyc := by
  unfold updScan
  simp (maxDischargeDepth := 40) +contextual [*]

@[simp] theorem sound_takePartials {x0 : State} {x1 : Nat} {x2 : Nat} {x3 : Batch} (h0 : Sound q z x0.pending x0.sec.fuses x0.csr x0.mem x0.cyc) : Sound q z (takePartials x0 x1 x2 x3).pending (takePartials x0 x1 x2 x3).sec.fuses (takePartials x0 x1 x2 x3).csr (takePartials x0 x1 x2 x3).mem (takePartials x0 x1 x2 x3).cyc := by
  unfold takePartials
  simp (maxDischargeDepth := 40) +contextual [*]

@[simp] theorem sound_takePayload {x0 : State} {x1 : Nat} {x2 : Nat} {x3 : Batch} (h0 : Sound q z x0.pending x0.sec.fuses x0.csr x0.mem x0.cyc) : Sound q z (takePayload x0 x1 x2 x3).pending (takePayload x0 x1 x2 x3).sec.fuses (takePayload x0 x1 x2 x3).csr (takePayload x0 x1 x2 x3).mem (takePayload x0 x1 x2 x3).cyc := by
  unfold takePayload
  simp (maxDischargeDepth := 40) +contextual [*]

@[simp] theorem sound_frameMissing {x0 : State} {x1 : Nat} {x2 : Nat} {x3 : Batch} (h0 : Sound q z x0.pending x0.sec.fuses x0.csr x0.mem x0.cyc) : Sound q z (frameMissing x0 x1 x2 x3).pending (frameMissing x0 x1 x2 x3).sec.fuses (frameMissing x0 x1 x2 x3).csr (frameMissing x0 x1 x2 x3).mem (frameMissing x0 x1 x2 x3).cyc := by
  unfold frameMissing
  simp (maxDischargeDepth := 40) +contextual [*]

@[simp] theorem sound_takePos {x0 : State} {x1 : Nat} {x2 : Batch} (h0 : Sound q z x0.pending x0.sec.fuses x0.csr x0.mem x0.cyc) : Sound q z (takePos x0 x1 x2).pending (takePos x0 x1 x2).sec.fuses (takePos x0 x1 x2).csr (takePos x0 x1 x2).mem (takePos x0 x1 x2).cyc := by
  unfold takePos
  try dsimp only
  repeat' first
    | with_reducible assumption
    | with_reducible refine sound_ite ?_ ?_
    | with_reducible refine sound_foldl ?_ (fun _ _ _ => ?_)
    | with_reducible refine sound_setPos ?_
    | with_reducible refine sound_failMb ?_
    | with_reducible refine sound_ctxMismatch ?_
    | with_reducible refine sound_frameMissing ?_
    | with_reducible refine sound_lateField ?_
    | split

@[simp] theorem sound_mergeWords {x0 : State} {x1 : Nat} {x2 : Nat} {x3 : Batch} {x4 : Scan} (h0 : Sound q z x0.pending x0.sec.fuses x0.csr x0.mem x0.cyc) : Sound q z (mergeWords x0 x1 x2 x3 x4).pending (mergeWords x0 x1 x2 x3 x4).sec.fuses (mergeWords x0 x1 x2 x3 x4).csr (mergeWords x0 x1 x2 x3 x4).mem (mergeWords x0 x1 x2 x3 x4).cyc := by
  unfold mergeWords
  simp (maxDischargeDepth := 40) +contextual [*]

@[simp] theorem sound_takeWords {x0 : State} {x1 : Nat} {x2 : Nat} {x3 : Batch} (h0 : Sound q z x0.pending x0.sec.fuses x0.csr x0.mem x0.cyc) : Sound q z (takeWords x0 x1 x2 x3).pending (takeWords x0 x1 x2 x3).sec.fuses (takeWords x0 x1 x2 x3).csr (takeWords x0 x1 x2 x3).mem (takeWords x0 x1 x2 x3).cyc := by
  unfold takeWords
  simp (maxDischargeDepth := 40) +contextual [*]

@[simp] theorem sound_deliverLocal {x0 : State} {x1 : Nat} {x2 : Nat} {x3 : Batch} (h0 : Sound q z x0.pending x0.sec.fuses x0.csr x0.mem x0.cyc) : Sound q z (deliverLocal x0 x1 x2 x3).pending (deliverLocal x0 x1 x2 x3).sec.fuses (deliverLocal x0 x1 x2 x3).csr (deliverLocal x0 x1 x2 x3).mem (deliverLocal x0 x1 x2 x3).cyc := by
  unfold deliverLocal
  try dsimp only
  repeat' first
    | with_reducible assumption
    | with_reducible refine sound_ite ?_ ?_
    | with_reducible refine sound_foldl ?_ (fun _ _ _ => ?_)
    | with_reducible refine sound_count ?_
    | with_reducible refine sound_takePos ?_
    | with_reducible refine sound_fieldDown ?_
    | with_reducible refine sound_takeFetched ?_
    | with_reducible refine sound_takePayload ?_
    | with_reducible refine sound_takePartials ?_
    | with_reducible refine sound_takeWords ?_
    | split

@[simp] theorem sound_takeInput {x0 : State} {x1 : Nat} {x2 : Batch} (h0 : Sound q z x0.pending x0.sec.fuses x0.csr x0.mem x0.cyc) : Sound q z (takeInput x0 x1 x2).pending (takeInput x0 x1 x2).sec.fuses (takeInput x0 x1 x2).csr (takeInput x0 x1 x2).mem (takeInput x0 x1 x2).cyc := by
  unfold takeInput
  simp (maxDischargeDepth := 40) +contextual [*]

@[simp] theorem sound_deliver {x0 : State} {x1 : Nat} {x2 : Nat} {x3 : Batch} {x4 : Nat} (h0 : Sound q z x0.pending x0.sec.fuses x0.csr x0.mem x0.cyc) : Sound q z (deliver x0 x1 x2 x3 x4).pending (deliver x0 x1 x2 x3 x4).sec.fuses (deliver x0 x1 x2 x3 x4).csr (deliver x0 x1 x2 x3 x4).mem (deliver x0 x1 x2 x3 x4).cyc := by
  unfold deliver
  try dsimp only
  repeat' first
    | with_reducible assumption
    | with_reducible refine sound_ite ?_ ?_
    | with_reducible refine sound_foldl ?_ (fun _ _ _ => ?_)
    | with_reducible refine sound_deliverLocal ?_
    | with_reducible refine sound_takeInput ?_
    | split

@[simp] theorem sound_domainResetStart {x0 : Nat} {x1 : List Byte} {x2 : Nat} {x3 : State} (h3 : Sound q z x3.pending x3.sec.fuses x3.csr x3.mem x3.cyc) : Sound q z (domainResetStart x0 x1 x2 x3).pending (domainResetStart x0 x1 x2 x3).sec.fuses (domainResetStart x0 x1 x2 x3).csr (domainResetStart x0 x1 x2 x3).mem (domainResetStart x0 x1 x2 x3).cyc := by
  unfold domainResetStart
  simp (maxDischargeDepth := 40) +contextual [*]

@[simp] theorem sound_drainAll {x0 : State} {x1 : Nat} (h0 : Sound q z x0.pending x0.sec.fuses x0.csr x0.mem x0.cyc) : Sound q z (drainAll x0 x1).pending (drainAll x0 x1).sec.fuses (drainAll x0 x1).csr (drainAll x0 x1).mem (drainAll x0 x1).cyc := by
  unfold drainAll
  simp (maxDischargeDepth := 40) +contextual [*]

@[simp] theorem sound_drainEnds {x0 : State} (h0 : Sound q z x0.pending x0.sec.fuses x0.csr x0.mem x0.cyc) : Sound q z (drainEnds x0).pending (drainEnds x0).sec.fuses (drainEnds x0).csr (drainEnds x0).mem (drainEnds x0).cyc := by
  unfold drainEnds
  simp (maxDischargeDepth := 40) +contextual [*]

@[simp] theorem sound_drainStart {x0 : Nat} {x1 : List Byte} {x2 : Nat} {x3 : State} (h3 : Sound q z x3.pending x3.sec.fuses x3.csr x3.mem x3.cyc) : Sound q z (drainStart x0 x1 x2 x3).pending (drainStart x0 x1 x2 x3).sec.fuses (drainStart x0 x1 x2 x3).csr (drainStart x0 x1 x2 x3).mem (drainStart x0 x1 x2 x3).cyc := by
  unfold drainStart
  simp (maxDischargeDepth := 40) +contextual [*]

@[simp] theorem sound_drawKeys {x0 : State} (h0 : Sound q z x0.pending x0.sec.fuses x0.csr x0.mem x0.cyc) : Sound q z (drawKeys x0).pending (drawKeys x0).sec.fuses (drawKeys x0).csr (drawKeys x0).mem (drawKeys x0).cyc := by
  unfold drawKeys
  simp (maxDischargeDepth := 40) +contextual [*]

end Sys2Proof.Machine
end

