-- ==== Sys2Proof/Laws/Sound2.lean ====
section
/-! SUPPORT. The operations that the lemmas of Sound1.lean did not reach, and the commands over them. -/
namespace Sys2Proof.Machine

variable {q : List Instr} {z : Fuses}

@[simp] theorem sound_noteDrive {x0 : State} {x1 : Nat} (h0 : Sound q z x0.pending x0.sec.fuses x0.csr x0.mem x0.cyc) : Sound q z (noteDrive x0 x1).pending (noteDrive x0 x1).sec.fuses (noteDrive x0 x1).csr (noteDrive x0 x1).mem (noteDrive x0 x1).cyc := by
  unfold noteDrive
  simp (maxDischargeDepth := 40) +contextual [*]

@[simp] theorem sound_drivePart {x0 : State} {x1 : Nat} {x2 : Nat} {x3 : Nat} {x4 : SRes} {x5 : List Int} (h0 : Sound q z x0.pending x0.sec.fuses x0.csr x0.mem x0.cyc) : Sound q z (drivePart x0 x1 x2 x3 x4 x5).pending (drivePart x0 x1 x2 x3 x4 x5).sec.fuses (drivePart x0 x1 x2 x3 x4 x5).csr (drivePart x0 x1 x2 x3 x4 x5).mem (drivePart x0 x1 x2 x3 x4 x5).cyc := by
  unfold drivePart
  simp (maxDischargeDepth := 40) +contextual [*]

@[simp] theorem sound_rerunClaim {x0 : State} {x1 : Nat} {x2 : Nat} {x3 : Nat} {x4 : Scan} {x5 : Nat} (h0 : Sound q z x0.pending x0.sec.fuses x0.csr x0.mem x0.cyc) : Sound q z (rerunClaim x0 x1 x2 x3 x4 x5).pending (rerunClaim x0 x1 x2 x3 x4 x5).sec.fuses (rerunClaim x0 x1 x2 x3 x4 x5).csr (rerunClaim x0 x1 x2 x3 x4 x5).mem (rerunClaim x0 x1 x2 x3 x4 x5).cyc := by
  unfold rerunClaim
  simp (maxDischargeDepth := 40) +contextual [*]

@[simp] theorem sound_judgeClaim {x0 : Nat} {x1 : Nat} {x2 : State} {x3 : Nat} (h2 : Sound q z x2.pending x2.sec.fuses x2.csr x2.mem x2.cyc) : Sound q z (judgeClaim x0 x1 x2 x3).pending (judgeClaim x0 x1 x2 x3).sec.fuses (judgeClaim x0 x1 x2 x3).csr (judgeClaim x0 x1 x2 x3).mem (judgeClaim x0 x1 x2 x3).cyc := by
  unfold judgeClaim
  try dsimp only
  repeat' first
    | with_reducible assumption
    | with_reducible refine sound_ite ?_ ?_
    | with_reducible refine sound_foldl ?_ (fun _ _ _ => ?_)
    | with_reducible refine sound_setScan ?_
    | with_reducible refine sound_rerunClaim ?_
    | split

@[simp] theorem sound_judgeClaims {x0 : State} {x1 : Nat} {x2 : Nat} (h0 : Sound q z x0.pending x0.sec.fuses x0.csr x0.mem x0.cyc) : Sound q z (judgeClaims x0 x1 x2).pending (judgeClaims x0 x1 x2).sec.fuses (judgeClaims x0 x1 x2).csr (judgeClaims x0 x1 x2).mem (judgeClaims x0 x1 x2).cyc := by
  unfold judgeClaims
  simp (maxDischargeDepth := 40) +contextual [*]

theorem sound_sramFault {x0 : State} {x1 x2 x3 x4 : Nat} {y : State} (h0 : Sound q z x0.pending x0.sec.fuses x0.csr x0.mem x0.cyc) (e : sramFault x0 x1 x2 x3 x4 = some y) : Sound q z y.pending y.sec.fuses y.csr y.mem y.cyc := by
  obtain ⟨g, _, rfl⟩ := Option.map_eq_some_iff.mp e
  with_reducible exact sound_memFail h0

@[simp] theorem sound_drivePlane {s : State} {f t c e : Nat} {x : Scan} {err : List Int} (h : Sound q z s.pending s.sec.fuses s.csr s.mem s.cyc) : Sound q z (drivePlane s f t c e x err).pending (drivePlane s f t c e x err).sec.fuses (drivePlane s f t c e x err).csr (drivePlane s f t c e x err).mem (drivePlane s f t c e x err).cyc := by
  unfold drivePlane
  extract_lets
  repeat' first
    | with_reducible assumption
    | with_reducible refine sound_ite ?_ ?_
    | with_reducible refine sound_judgeClaims ?_
    | with_reducible refine sound_addLanes ?_
    | with_reducible refine sound_drivePart ?_
    | with_reducible refine sound_updTile ?_
    | with_reducible refine sound_count ?_
    | with_reducible refine sound_sramFault ?_ ‹_›
    | extract_lets
    | split

@[simp] theorem sound_refRunDone {x0 : State} {x1 : Nat} {x2 : ChkSt} (h0 : Sound q z x0.pending x0.sec.fuses x0.csr x0.mem x0.cyc) : Sound q z (refRunDone x0 x1 x2).pending (refRunDone x0 x1 x2).sec.fuses (refRunDone x0 x1 x2).csr (refRunDone x0 x1 x2).mem (refRunDone x0 x1 x2).cyc := by
  unfold refRunDone
  try dsimp only
  repeat' first
    | with_reducible assumption
    | with_reducible refine sound_ite ?_ ?_
    | with_reducible refine sound_foldl ?_ (fun _ _ _ => ?_)
    | with_reducible refine sound_updTile ?_
    | with_reducible refine sound_jobDone ?_
    | with_reducible refine sound_readUe ?_
    | with_reducible refine sound_write ?_
    | split

@[simp] theorem sound_settle {x0 : State} {x1 : Nat} (h0 : Sound q z x0.pending x0.sec.fuses x0.csr x0.mem x0.cyc) : Sound q z (settle x0 x1).pending (settle x0 x1).sec.fuses (settle x0 x1).csr (settle x0 x1).mem (settle x0 x1).cyc := by
  unfold settle
  try dsimp only
  repeat' first
    | with_reducible assumption
    | with_reducible refine sound_ite ?_ ?_
    | with_reducible refine sound_foldl ?_ (fun _ _ _ => ?_)
    | with_reducible refine sound_checkDone ?_
    | with_reducible refine sound_refRunDone ?_
    | split

@[simp] theorem sound_drivePlaneM {x0 : State} {x1 : Nat} {x2 : List Int} (h0 : Sound q z x0.pending x0.sec.fuses x0.csr x0.mem x0.cyc) : Sound q z (drivePlaneM x0 x1 x2).pending (drivePlaneM x0 x1 x2).sec.fuses (drivePlaneM x0 x1 x2).csr (drivePlaneM x0 x1 x2).mem (drivePlaneM x0 x1 x2).cyc := by
  unfold drivePlaneM
  try dsimp only
  repeat' first
    | with_reducible assumption
    | with_reducible refine sound_ite ?_ ?_
    | with_reducible refine sound_foldl ?_ (fun _ _ _ => ?_)
    | with_reducible refine sound_settle ?_
    | with_reducible refine sound_updTile ?_
    | split

@[simp] theorem sound_dropCounted {x0 : State} {x1 : BufMark} (h0 : Sound q z x0.pending x0.sec.fuses x0.csr x0.mem x0.cyc) : Sound q z (dropCounted x0 x1).pending (dropCounted x0 x1).sec.fuses (dropCounted x0 x1).csr (dropCounted x0 x1).mem (dropCounted x0 x1).cyc := by
  unfold dropCounted
  simp (maxDischargeDepth := 40) +contextual [*]

@[simp] theorem sound_dropPage {x0 : Nat} {x1 : State} {x2 : Nat} (h1 : Sound q z x1.pending x1.sec.fuses x1.csr x1.mem x1.cyc) : Sound q z (dropPage x0 x1 x2).pending (dropPage x0 x1 x2).sec.fuses (dropPage x0 x1 x2).csr (dropPage x0 x1 x2).mem (dropPage x0 x1 x2).cyc := by
  unfold dropPage
  simp (maxDischargeDepth := 40) +contextual [*]

@[simp] theorem sound_endReset {x0 : State} {x1 : DomReset} {x2 : Nat} (h0 : Sound q z x0.pending x0.sec.fuses x0.csr x0.mem x0.cyc) : Sound q z (endReset x0 x1 x2).pending (endReset x0 x1 x2).sec.fuses (endReset x0 x1 x2).csr (endReset x0 x1 x2).mem (endReset x0 x1 x2).cyc := by
  unfold endReset
  simp (maxDischargeDepth := 40) +contextual [*]

@[simp] theorem sound_enableReset {x0 : State} {x1 : DomReset} (h0 : Sound q z x0.pending x0.sec.fuses x0.csr x0.mem x0.cyc) : Sound q z (enableReset x0 x1).pending (enableReset x0 x1).sec.fuses (enableReset x0 x1).csr (enableReset x0 x1).mem (enableReset x0 x1).cyc := by
  unfold enableReset
  simp (maxDischargeDepth := 40) +contextual [*]

@[simp] theorem sound_endSteps {x0 : State} (h0 : Sound q z x0.pending x0.sec.fuses x0.csr x0.mem x0.cyc) : Sound q z (endSteps x0).pending (endSteps x0).sec.fuses (endSteps x0).csr (endSteps x0).mem (endSteps x0).cyc := by
  unfold endSteps
  simp (maxDischargeDepth := 40) +contextual [*]

@[simp] theorem sound_keepState {s : State} (h : Sound q z s.pending s.sec.fuses s.csr s.mem s.cyc) : Sound q z (keepState s).pending (keepState s).sec.fuses (keepState s).csr (keepState s).mem (keepState s).cyc :=
  ⟨rfl, rfl, by show 0 < 5120; decide, h.2.2.2⟩

@[simp] theorem sound_releaseTrip {x0 : State} (h0 : Sound q z x0.pending x0.sec.fuses x0.csr x0.mem x0.cyc) : Sound q z (releaseTrip x0).pending (releaseTrip x0).sec.fuses (releaseTrip x0).csr (releaseTrip x0).mem (releaseTrip x0).cyc := by
  unfold releaseTrip
  simp (maxDischargeDepth := 40) +contextual [*]

@[simp] theorem sound_enterBoot {x0 : State} {x1 : Nat} (h0 : Sound q z x0.pending x0.sec.fuses x0.csr x0.mem x0.cyc) : Sound q z (enterBoot x0 x1).pending (enterBoot x0 x1).sec.fuses (enterBoot x0 x1).csr (enterBoot x0 x1).mem (enterBoot x0 x1).cyc := by
  unfold enterBoot
  simp (maxDischargeDepth := 40) +contextual [*]

@[simp] theorem sound_enterOff {x0 : State} (h0 : Sound q z x0.pending x0.sec.fuses x0.csr x0.mem x0.cyc) : Sound q z (enterOff x0).pending (enterOff x0).sec.fuses (enterOff x0).csr (enterOff x0).mem (enterOff x0).cyc := by
  unfold enterOff
  simp (maxDischargeDepth := 40) +contextual [*]

@[simp] theorem sound_enterShutdown {x0 : State} {x1 : Nat} {x2 : Int} (h0 : Sound q z x0.pending x0.sec.fuses x0.csr x0.mem x0.cyc) : Sound q z (enterShutdown x0 x1 x2).pending (enterShutdown x0 x1 x2).sec.fuses (enterShutdown x0 x1 x2).csr (enterShutdown x0 x1 x2).mem (enterShutdown x0 x1 x2).cyc := by
  unfold enterShutdown
  simp (maxDischargeDepth := 40) +contextual [*]

theorem sound_tableFault {x0 : State} {x1 x2 x3 x4 x5 x6 : Nat} {y : State} (h0 : Sound q z x0.pending x0.sec.fuses x0.csr x0.mem x0.cyc) (e : tableFault x0 x1 x2 x3 x4 x5 x6 = some y) : Sound q z y.pending y.sec.fuses y.csr y.mem y.cyc := by
  obtain ⟨g, _, rfl⟩ := Option.map_eq_some_iff.mp e
  with_reducible exact sound_memFail h0

theorem sound_entryFault {x0 : State} {x1 x2 x3 x4 x5 x6 x7 : Nat} {y : State} (h0 : Sound q z x0.pending x0.sec.fuses x0.csr x0.mem x0.cyc) (e : entryFault x0 x1 x2 x3 x4 x5 x6 x7 = some y) : Sound q z y.pending y.sec.fuses y.csr y.mem y.cyc := by
  unfold entryFault at e
  cases h1 : tableFault x0 x1 x2 x3 x4 (x5 * x6) x5 with
  | some t => rw [h1] at e; cases e; exact sound_tableFault h0 h1
  | none =>
    rw [h1] at e
    cases h2 : tableFault x0 x1 x2 8 x1 (16 * x7) 16 with
    | some t => simp [h2] at e; cases e; exact sound_tableFault h0 h2
    | none => simp [h2] at e; exact sound_tableFault h0 e

theorem sound_execAcquireTimeout {x0 : State} (h0 : Sound q z x0.pending x0.sec.fuses x0.csr x0.mem x0.cyc) : SoundOut q z (execAcquireTimeout x0) := by
  unfold execAcquireTimeout
  simp (maxDischargeDepth := 40) +contextual [*]

@[simp] theorem sound_respond {x0 : State} {x1 : Nat} {x2 : CmdHdr} {x3 : Nat} {x4 : Nat} {x5 : Nat} {x6 : List Byte} (h0 : Sound q z x0.pending x0.sec.fuses x0.csr x0.mem x0.cyc) : Sound q z (respond x0 x1 x2 x3 x4 x5 x6).pending (respond x0 x1 x2 x3 x4 x5 x6).sec.fuses (respond x0 x1 x2 x3 x4 x5 x6).csr (respond x0 x1 x2 x3 x4 x5 x6).mem (respond x0 x1 x2 x3 x4 x5 x6).cyc := by
  unfold respond
  try dsimp only
  repeat' first
    | with_reducible assumption
    | with_reducible refine sound_ite ?_ ?_
    | with_reducible refine sound_foldl ?_ (fun _ _ _ => ?_)
    | with_reducible refine sound_updMb ?_
    | with_reducible refine sound_sendCtrl ?_
    | with_reducible refine sound_raiseInt ?_
    | split

@[simp] theorem sound_startJob {x0 : State} {x1 : Nat} {x2 : Nat} {x3 : CmdHdr} {x4 : List Byte} (h0 : Sound q z x0.pending x0.sec.fuses x0.csr x0.mem x0.cyc) : Sound q z (startJob x0 x1 x2 x3 x4).pending (startJob x0 x1 x2 x3 x4).sec.fuses (startJob x0 x1 x2 x3 x4).csr (startJob x0 x1 x2 x3 x4).mem (startJob x0 x1 x2 x3 x4).cyc := by
  unfold startJob
  simp (maxDischargeDepth := 40) +contextual [*]

@[simp] theorem sound_takeCommand {m op : Nat} {bs ba : List Byte → State → Bool} {rf : List Byte → State → Option (Nat × List Byte)}
    {act : CmdAct} {s : State} (ha : SoundAct q z act) (h : Sound q z s.pending s.sec.fuses s.csr s.mem s.cyc) :
    Sound q z (takeCommand m op bs ba rf act s).pending (takeCommand m op bs ba rf act s).sec.fuses (takeCommand m op bs ba rf act s).csr (takeCommand m op bs ba rf act s).mem (takeCommand m op bs ba rf act s).cyc := by
  unfold takeCommand
  try dsimp only
  cases act with
  | now f =>
    have ha' := fun a t => ha a t
    dsimp only at ha' ⊢
    repeat' first
      | with_reducible assumption
      | with_reducible refine sound_ite ?_ ?_
      | with_reducible refine sound_respond ?_
      | with_reducible refine sound_cmdCounted ?_
      | with_reducible refine sound_updMb ?_
      | with_reducible refine ha' _ _ ?_
      | split
  | job f =>
    have ha' := fun a k t => ha a k t
    dsimp only at ha' ⊢
    repeat' first
      | with_reducible assumption
      | with_reducible refine sound_ite ?_ ?_
      | with_reducible refine sound_respond ?_
      | with_reducible refine sound_cmdCounted ?_
      | with_reducible refine sound_startJob ?_
      | with_reducible refine sound_updMb ?_
      | with_reducible refine ha' _ _ _ ?_
      | split
  | jobData d f =>
    have ha' := fun a k t => ha a k t
    dsimp only at ha' ⊢
    repeat' first
      | with_reducible assumption
      | with_reducible refine sound_ite ?_ ?_
      | with_reducible refine sound_respond ?_
      | with_reducible refine sound_cmdCounted ?_
      | with_reducible refine sound_startJob ?_
      | with_reducible refine sound_updMb ?_
      | with_reducible refine ha' _ _ _ ?_
      | split

theorem sound_execAdapterEvict {x0 : Nat} {x1 : State} (h1 : Sound q z x1.pending x1.sec.fuses x1.csr x1.mem x1.cyc) : SoundOut q z (execAdapterEvict x0 x1) := by
  unfold execAdapterEvict
  simp (maxDischargeDepth := 40) +contextual [*]

@[simp] theorem sound_loadAdapter {x0 : Nat} {x1 : List Byte} {x2 : Nat} {x3 : State} (h3 : Sound q z x3.pending x3.sec.fuses x3.csr x3.mem x3.cyc) : Sound q z (loadAdapter x0 x1 x2 x3).pending (loadAdapter x0 x1 x2 x3).sec.fuses (loadAdapter x0 x1 x2 x3).csr (loadAdapter x0 x1 x2 x3).mem (loadAdapter x0 x1 x2 x3).cyc := by
  unfold loadAdapter
  simp (maxDischargeDepth := 40) +contextual [*]

theorem sound_execAdapterLoad {x0 : Nat} {x1 : State} (h1 : Sound q z x1.pending x1.sec.fuses x1.csr x1.mem x1.cyc) : SoundOut q z (execAdapterLoad x0 x1) := by
  unfold execAdapterLoad
  simp (maxDischargeDepth := 40) +contextual [*]

theorem sound_execAliveSecond {x0 : State} (h0 : Sound q z x0.pending x0.sec.fuses x0.csr x0.mem x0.cyc) : SoundOut q z (execAliveSecond x0) := by
  unfold execAliveSecond
  simp (maxDischargeDepth := 40) +contextual [*]

@[simp] theorem sound_ptpDiscard {x0 : State} (h0 : Sound q z x0.pending x0.sec.fuses x0.csr x0.mem x0.cyc) : Sound q z (ptpDiscard x0).pending (ptpDiscard x0).sec.fuses (ptpDiscard x0).csr (ptpDiscard x0).mem (ptpDiscard x0).cyc := by
  unfold ptpDiscard
  simp (maxDischargeDepth := 40) +contextual [*]

theorem sound_execAnnounceReceived {x0 : Nat} {x1 : PtpMsg} {x2 : State} (h2 : Sound q z x2.pending x2.sec.fuses x2.csr x2.mem x2.cyc) : SoundOut q z (execAnnounceReceived x0 x1 x2) := by
  unfold execAnnounceReceived
  simp (maxDischargeDepth := 40) +contextual [*]

theorem sound_execAnnounceSend {x0 : State} (h0 : Sound q z x0.pending x0.sec.fuses x0.csr x0.mem x0.cyc) : SoundOut q z (execAnnounceSend x0) := by
  unfold execAnnounceSend
  simp (maxDischargeDepth := 40) +contextual [*]

@[simp] theorem sound_gatherPos {x0 : State} {x1 : State} {x2 : Nat} {x3 : Nat} (h0 : Sound q z x0.pending x0.sec.fuses x0.csr x0.mem x0.cyc) (h1 : Sound q z x1.pending x1.sec.fuses x1.csr x1.mem x1.cyc) : Sound q z (gatherPos x0 x1 x2 x3).pending (gatherPos x0 x1 x2 x3).sec.fuses (gatherPos x0 x1 x2 x3).csr (gatherPos x0 x1 x2 x3).mem (gatherPos x0 x1 x2 x3).cyc := by
  unfold gatherPos
  try dsimp only
  repeat' first
    | with_reducible assumption
    | with_reducible refine sound_ite ?_ ?_
    | with_reducible refine sound_foldl ?_ (fun _ _ _ => ?_)
    | with_reducible refine sound_sideFail ?_
    | with_reducible refine sound_failPos ?_
    | with_reducible refine sound_count ?_
    | with_reducible refine sound_readUe ?_
    | with_reducible refine sound_write ?_
    | split

@[simp] theorem sound_hbmLate {x0 : State} {x1 : Nat} {x2 : Nat} {x3 : Nat} {x4 : Nat} (h0 : Sound q z x0.pending x0.sec.fuses x0.csr x0.mem x0.cyc) : Sound q z (hbmLate x0 x1 x2 x3 x4).pending (hbmLate x0 x1 x2 x3 x4).sec.fuses (hbmLate x0 x1 x2 x3 x4).csr (hbmLate x0 x1 x2 x3 x4).mem (hbmLate x0 x1 x2 x3 x4).cyc := by
  unfold hbmLate
  simp (maxDischargeDepth := 40) +contextual [*]

@[simp] theorem sound_lateAccesses {x0 : State} {x1 : Nat} {x2 : List (Nat × Nat)} (h0 : Sound q z x0.pending x0.sec.fuses x0.csr x0.mem x0.cyc) : Sound q z (lateAccesses x0 x1 x2).pending (lateAccesses x0 x1 x2).sec.fuses (lateAccesses x0 x1 x2).csr (lateAccesses x0 x1 x2).mem (lateAccesses x0 x1 x2).cyc := by
  unfold lateAccesses
  simp (maxDischargeDepth := 40) +contextual [*]

theorem sound_execAttGather {x0 : WinRun} {x1 : State} (h1 : Sound q z x1.pending x1.sec.fuses x1.csr x1.mem x1.cyc) : SoundOut q z (execAttGather x0 x1) := by
  unfold execAttGather
  simp (maxDischargeDepth := 40) +contextual [*]

@[simp] theorem sound_pageWrite {x0 : State} {x1 : Nat} {x2 : KeySlot} {x3 : List Byte} {x4 : Nat} {x5 : List Byte} (h0 : Sound q z x0.pending x0.sec.fuses x0.csr x0.mem x0.cyc) : Sound q z (pageWrite x0 x1 x2 x3 x4 x5).pending (pageWrite x0 x1 x2 x3 x4 x5).sec.fuses (pageWrite x0 x1 x2 x3 x4 x5).csr (pageWrite x0 x1 x2 x3 x4 x5).mem (pageWrite x0 x1 x2 x3 x4 x5).cyc := by
  unfold pageWrite
  simp (maxDischargeDepth := 40) +contextual [*]

@[simp] theorem sound_writeKv {x0 : State} {x1 : Nat} {x2 : Nat} (h0 : Sound q z x0.pending x0.sec.fuses x0.csr x0.mem x0.cyc) : Sound q z (writeKv x0 x1 x2).pending (writeKv x0 x1 x2).sec.fuses (writeKv x0 x1 x2).csr (writeKv x0 x1 x2).mem (writeKv x0 x1 x2).cyc := by
  unfold writeKv
  try dsimp only
  repeat' first
    | with_reducible assumption
    | with_reducible refine sound_ite ?_ ?_
    | with_reducible refine sound_foldl ?_ (fun _ _ _ => ?_)
    | with_reducible refine sound_pageWrite ?_
    | split

theorem sound_execAttWindow {x0 : WinRun} {x1 : State} (h1 : Sound q z x1.pending x1.sec.fuses x1.csr x1.mem x1.cyc) : SoundOut q z (execAttWindow x0 x1) := by
  unfold execAttWindow
  simp (maxDischargeDepth := 40) +contextual [*]

theorem sound_execAttest {x0 : Nat} {x1 : State} (h1 : Sound q z x1.pending x1.sec.fuses x1.csr x1.mem x1.cyc) : SoundOut q z (execAttest x0 x1) := by
  unfold execAttest
  simp (maxDischargeDepth := 40) +contextual [*]

theorem sound_execBandChange {x0 : State} (h0 : Sound q z x0.pending x0.sec.fuses x0.csr x0.mem x0.cyc) : SoundOut q z (execBandChange x0) := by
  unfold execBandChange
  try dsimp only
  repeat' first
    | with_reducible assumption
    | with_reducible refine soundOut_next ?_
    | with_reducible refine soundOut_ite ?_ ?_
    | with_reducible refine sound_ite ?_ ?_
    | with_reducible refine sound_foldl ?_ (fun _ _ _ => ?_)
    | split

theorem sound_execBeatAck {x0 : Nat} {x1 : Marker} {x2 : State} (h2 : Sound q z x2.pending x2.sec.fuses x2.csr x2.mem x2.cyc) : SoundOut q z (execBeatAck x0 x1 x2) := by
  unfold execBeatAck
  try dsimp only
  repeat' first
    | with_reducible assumption
    | with_reducible refine soundOut_next ?_
    | with_reducible refine soundOut_ite ?_ ?_
    | with_reducible refine sound_ite ?_ ?_
    | with_reducible refine sound_foldl ?_ (fun _ _ _ => ?_)
    | with_reducible refine sound_updLnk ?_
    | with_reducible refine sound_beatEvent ?_
    | with_reducible refine sound_count ?_
    | split

theorem sound_execBeatAckTimeout {x0 : Nat} {x1 : Nat} {x2 : State} (h2 : Sound q z x2.pending x2.sec.fuses x2.csr x2.mem x2.cyc) : SoundOut q z (execBeatAckTimeout x0 x1 x2) := by
  unfold execBeatAckTimeout
  try dsimp only
  repeat' first
    | with_reducible assumption
    | with_reducible refine soundOut_next ?_
    | with_reducible refine soundOut_ite ?_ ?_
    | with_reducible refine sound_ite ?_ ?_
    | with_reducible refine sound_foldl ?_ (fun _ _ _ => ?_)
    | with_reducible refine sound_beatEvent ?_
    | with_reducible refine sound_count ?_
    | with_reducible refine sound_updLnk ?_
    | split

@[simp] theorem sound_sendManager {s : State} {e : Nat × List Byte} (h : Sound q z s.pending s.sec.fuses s.csr s.mem s.cyc) : Sound q z (sendManager s e).pending (sendManager s e).sec.fuses (sendManager s e).csr (sendManager s e).mem (sendManager s e).cyc := by
  unfold sendManager
  refine sound_ite h ?_
  split
  · obtain ⟨k, _, e⟩ := Option.bind_eq_some_iff.mp ‹_›
    with_reducible exact sound_sendFrom h e
  · exact h

@[simp] theorem sound_flushLinks {x0 : State} {x1 : Nat} (h0 : Sound q z x0.pending x0.sec.fuses x0.csr x0.mem x0.cyc) : Sound q z (flushLinks x0 x1).pending (flushLinks x0 x1).sec.fuses (flushLinks x0 x1).csr (flushLinks x0 x1).mem (flushLinks x0 x1).cyc := by
  unfold flushLinks
  simp (maxDischargeDepth := 40) +contextual [*]

@[simp] theorem sound_linkBeat {x0 : State} {x1 : Nat} (h0 : Sound q z x0.pending x0.sec.fuses x0.csr x0.mem x0.cyc) : Sound q z (linkBeat x0 x1).pending (linkBeat x0 x1).sec.fuses (linkBeat x0 x1).csr (linkBeat x0 x1).mem (linkBeat x0 x1).cyc := by
  unfold linkBeat
  simp (maxDischargeDepth := 40) +contextual [*]

@[simp] theorem sound_retrainLink {x0 : State} {x1 : Nat} (h0 : Sound q z x0.pending x0.sec.fuses x0.csr x0.mem x0.cyc) : Sound q z (retrainLink x0 x1).pending (retrainLink x0 x1).sec.fuses (retrainLink x0 x1).csr (retrainLink x0 x1).mem (retrainLink x0 x1).cyc := by
  unfold retrainLink
  simp (maxDischargeDepth := 40) +contextual [*]

@[simp] theorem sound_linkOut {x0 : State} {x1 : Nat} (h0 : Sound q z x0.pending x0.sec.fuses x0.csr x0.mem x0.cyc) : Sound q z (linkOut x0 x1).pending (linkOut x0 x1).sec.fuses (linkOut x0 x1).csr (linkOut x0 x1).mem (linkOut x0 x1).cyc := by
  unfold linkOut
  try dsimp only
  repeat' first
    | with_reducible assumption
    | with_reducible refine sound_ite ?_ ?_
    | with_reducible refine sound_foldl ?_ (fun _ _ _ => ?_)
    | with_reducible refine sound_retrainLink ?_
    | with_reducible refine sound_recordFault ?_
    | with_reducible refine sound_setFld ?_
    | split

@[simp] theorem sound_outCheck {x0 : State} (h0 : Sound q z x0.pending x0.sec.fuses x0.csr x0.mem x0.cyc) : Sound q z (outCheck x0).pending (outCheck x0).sec.fuses (outCheck x0).csr (outCheck x0).mem (outCheck x0).cyc := by
  unfold outCheck
  simp (maxDischargeDepth := 40) +contextual [*]

@[simp] theorem sound_linkBoundary {x0 : State} (h0 : Sound q z x0.pending x0.sec.fuses x0.csr x0.mem x0.cyc) : Sound q z (linkBoundary x0).pending (linkBoundary x0).sec.fuses (linkBoundary x0).csr (linkBoundary x0).mem (linkBoundary x0).cyc := by
  unfold linkBoundary
  simp (maxDischargeDepth := 40) +contextual [*]

@[simp] theorem sound_nextBeat {s : State} (h : Sound q z s.pending s.sec.fuses s.csr s.mem s.cyc) :
    Sound q z (nextBeat s).pending (nextBeat s).sec.fuses (nextBeat s).csr (nextBeat s).mem (nextBeat s).cyc := ⟨h.1, h.2.1, by show 0 < 5120; decide, h.2.2.2⟩

@[simp] theorem sound_rejoinEnds {x0 : State} (h0 : Sound q z x0.pending x0.sec.fuses x0.csr x0.mem x0.cyc) : Sound q z (rejoinEnds x0).pending (rejoinEnds x0).sec.fuses (rejoinEnds x0).csr (rejoinEnds x0).mem (rejoinEnds x0).cyc := by
  unfold rejoinEnds
  simp (maxDischargeDepth := 40) +contextual [*]

@[simp] theorem sound_holdDown {x0 : State} (h0 : Sound q z x0.pending x0.sec.fuses x0.csr x0.mem x0.cyc) : Sound q z (holdDown x0).pending (holdDown x0).sec.fuses (holdDown x0).csr (holdDown x0).mem (holdDown x0).cyc := by
  unfold holdDown
  simp (maxDischargeDepth := 40) +contextual [*]

@[simp] theorem sound_showAlt {x0 : State} (h0 : Sound q z x0.pending x0.sec.fuses x0.csr x0.mem x0.cyc) : Sound q z (showAlt x0).pending (showAlt x0).sec.fuses (showAlt x0).csr (showAlt x0).mem (showAlt x0).cyc := by
  unfold showAlt
  simp (maxDischargeDepth := 40) +contextual [*]

@[simp] theorem sound_sourceGone {x0 : State} {x1 : Nat} (h0 : Sound q z x0.pending x0.sec.fuses x0.csr x0.mem x0.cyc) : Sound q z (sourceGone x0 x1).pending (sourceGone x0 x1).sec.fuses (sourceGone x0 x1).csr (sourceGone x0 x1).mem (sourceGone x0 x1).cyc := by
  unfold sourceGone
  simp (maxDischargeDepth := 40) +contextual [*]

@[simp] theorem sound_lostClocks {x0 : State} (h0 : Sound q z x0.pending x0.sec.fuses x0.csr x0.mem x0.cyc) : Sound q z (lostClocks x0).pending (lostClocks x0).sec.fuses (lostClocks x0).csr (lostClocks x0).mem (lostClocks x0).cyc := by
  unfold lostClocks
  simp (maxDischargeDepth := 40) +contextual [*]

@[simp] theorem sound_pllBoundary {x0 : State} (h0 : Sound q z x0.pending x0.sec.fuses x0.csr x0.mem x0.cyc) : Sound q z (pllBoundary x0).pending (pllBoundary x0).sec.fuses (pllBoundary x0).csr (pllBoundary x0).mem (pllBoundary x0).cyc := by
  unfold pllBoundary
  simp (maxDischargeDepth := 40) +contextual [*]

@[simp] theorem sound_relockCheck {x0 : State} {x1 : State} (h0 : Sound q z x0.pending x0.sec.fuses x0.csr x0.mem x0.cyc) (h1 : Sound q z x1.pending x1.sec.fuses x1.csr x1.mem x1.cyc) : Sound q z (relockCheck x0 x1).pending (relockCheck x0 x1).sec.fuses (relockCheck x0 x1).csr (relockCheck x0 x1).mem (relockCheck x0 x1).cyc := by
  unfold relockCheck
  simp (maxDischargeDepth := 40) +contextual [*]

@[simp] theorem sound_takePhase {x0 : State} (h0 : Sound q z x0.pending x0.sec.fuses x0.csr x0.mem x0.cyc) : Sound q z (takePhase x0).pending (takePhase x0).sec.fuses (takePhase x0).csr (takePhase x0).mem (takePhase x0).cyc := by
  unfold takePhase
  simp (maxDischargeDepth := 40) +contextual [*]

@[simp] theorem sound_timeBoundary {x0 : State} (h0 : Sound q z x0.pending x0.sec.fuses x0.csr x0.mem x0.cyc) : Sound q z (timeBoundary x0).pending (timeBoundary x0).sec.fuses (timeBoundary x0).csr (timeBoundary x0).mem (timeBoundary x0).cyc := by
  unfold timeBoundary
  simp (maxDischargeDepth := 40) +contextual [*]

theorem sound_execBeatBoundary {x0 : State} (h0 : Sound q z x0.pending x0.sec.fuses x0.csr x0.mem x0.cyc) : SoundOut q z (execBeatBoundary x0) := by
  unfold execBeatBoundary
  simp (maxDischargeDepth := 40) +contextual [*]

theorem sound_execBeatMarker {x0 : Nat} {x1 : Marker} {x2 : State} (h2 : Sound q z x2.pending x2.sec.fuses x2.csr x2.mem x2.cyc) : SoundOut q z (execBeatMarker x0 x1 x2) := by
  unfold execBeatMarker
  simp (maxDischargeDepth := 40) +contextual [*]

@[simp] theorem sound_raiseShed {x0 : State} {x1 : Nat} (h0 : Sound q z x0.pending x0.sec.fuses x0.csr x0.mem x0.cyc) : Sound q z (raiseShed x0 x1).pending (raiseShed x0 x1).sec.fuses (raiseShed x0 x1).csr (raiseShed x0 x1).mem (raiseShed x0 x1).cyc := by
  unfold raiseShed
  simp (maxDischargeDepth := 40) +contextual [*]

theorem sound_execBrownout {x0 : Nat} {x1 : Nat} {x2 : State} (h2 : Sound q z x2.pending x2.sec.fuses x2.csr x2.mem x2.cyc) : SoundOut q z (execBrownout x0 x1 x2) := by
  unfold execBrownout
  simp (maxDischargeDepth := 40) +contextual [*]

theorem sound_execBrownoutClear {x0 : Nat} {x1 : State} (h1 : Sound q z x1.pending x1.sec.fuses x1.csr x1.mem x1.cyc) : SoundOut q z (execBrownoutClear x0 x1) := by
  unfold execBrownoutClear
  simp (maxDischargeDepth := 40) +contextual [*]

theorem sound_execBudgetGrant {x0 : Nat} {x1 : Nat} {x2 : Nat} {x3 : Nat} {x4 : State} (h4 : Sound q z x4.pending x4.sec.fuses x4.csr x4.mem x4.cyc) : SoundOut q z (execBudgetGrant x0 x1 x2 x3 x4) := by
  unfold execBudgetGrant
  simp (maxDischargeDepth := 40) +contextual [*]

theorem sound_execBudgetReq {x0 : Nat} {x1 : Nat} {x2 : Nat} {x3 : Nat} {x4 : State} (h4 : Sound q z x4.pending x4.sec.fuses x4.csr x4.mem x4.cyc) : SoundOut q z (execBudgetReq x0 x1 x2 x3 x4) := by
  unfold execBudgetReq
  simp (maxDischargeDepth := 40) +contextual [*]

@[simp] theorem sound_setTenant {x0 : List Byte} {x1 : State} (h1 : Sound q z x1.pending x1.sec.fuses x1.csr x1.mem x1.cyc) : Sound q z (setTenant x0 x1).pending (setTenant x0 x1).sec.fuses (setTenant x0 x1).csr (setTenant x0 x1).mem (setTenant x0 x1).cyc := by
  unfold setTenant
  simp (maxDischargeDepth := 40) +contextual [*]

theorem sound_execBudgetSet {x0 : Nat} {x1 : State} (h1 : Sound q z x1.pending x1.sec.fuses x1.csr x1.mem x1.cyc) : SoundOut q z (execBudgetSet x0 x1) := by
  unfold execBudgetSet
  simp (maxDischargeDepth := 40) +contextual [*]

theorem sound_execBusOver {x0 : Nat} {x1 : State} (h1 : Sound q z x1.pending x1.sec.fuses x1.csr x1.mem x1.cyc) : SoundOut q z (execBusOver x0 x1) := by
  unfold execBusOver
  simp (maxDischargeDepth := 40) +contextual [*]

@[simp] theorem sound_snapshot {x0 : State} (h0 : Sound q z x0.pending x0.sec.fuses x0.csr x0.mem x0.cyc) : Sound q z (snapshot x0).pending (snapshot x0).sec.fuses (snapshot x0).csr (snapshot x0).mem (snapshot x0).cyc := by
  unfold snapshot
  try dsimp only
  repeat' first
    | with_reducible assumption
    | with_reducible refine sound_ite ?_ ?_
    | with_reducible refine sound_foldl ?_ (fun _ _ _ => ?_)
    | with_reducible refine sound_setFld ?_
    | with_reducible refine sound_setWord ?_
    | split

theorem sound_execCfgCommit {x0 : Nat} {x1 : State} (h1 : Sound q z x1.pending x1.sec.fuses x1.csr x1.mem x1.cyc) : SoundOut q z (execCfgCommit x0 x1) := by
  unfold execCfgCommit
  simp (maxDischargeDepth := 40) +contextual [*]

theorem sound_execCheckAbandon {x0 : Nat} {x1 : State} (h1 : Sound q z x1.pending x1.sec.fuses x1.csr x1.mem x1.cyc) : SoundOut q z (execCheckAbandon x0 x1) := by
  unfold execCheckAbandon
  try dsimp only
  repeat' first
    | with_reducible assumption
    | with_reducible refine soundOut_next ?_
    | with_reducible refine soundOut_ite ?_ ?_
    | with_reducible refine sound_ite ?_ ?_
    | with_reducible refine sound_foldl ?_ (fun _ _ _ => ?_)
    | with_reducible refine sound_count ?_
    | with_reducible refine sound_updTile ?_
    | split

theorem sound_execCommitPrepare {x0 : Nat} {x1 : State} (h1 : Sound q z x1.pending x1.sec.fuses x1.csr x1.mem x1.cyc) : SoundOut q z (execCommitPrepare x0 x1) := by
  unfold execCommitPrepare
  simp (maxDischargeDepth := 40) +contextual [*]

@[simp] theorem sound_hostDenied {x0 : State} (h0 : Sound q z x0.pending x0.sec.fuses x0.csr x0.mem x0.cyc) : Sound q z (hostDenied x0).pending (hostDenied x0).sec.fuses (hostDenied x0).csr (hostDenied x0).mem (hostDenied x0).cyc := by
  unfold hostDenied
  simp (maxDischargeDepth := 40) +contextual [*]

@[simp] theorem sound_hostWrite {x0 : State} {x1 : Nat} {x2 : Word} (h0 : Sound q z x0.pending x0.sec.fuses x0.csr x0.mem x0.cyc) : Sound q z (hostWrite x0 x1 x2).pending (hostWrite x0 x1 x2).sec.fuses (hostWrite x0 x1 x2).csr (hostWrite x0 x1 x2).mem (hostWrite x0 x1 x2).cyc := by
  unfold hostWrite
  simp (maxDischargeDepth := 40) +contextual [*]

theorem sound_execConfigWrite {x0 : Nat} {x1 : Word} {x2 : State} (h2 : Sound q z x2.pending x2.sec.fuses x2.csr x2.mem x2.cyc) : SoundOut q z (execConfigWrite x0 x1 x2) := by
  unfold execConfigWrite
  simp (maxDischargeDepth := 40) +contextual [*]

theorem sound_execConfigure {x0 : Nat} {x1 : State} (h1 : Sound q z x1.pending x1.sec.fuses x1.csr x1.mem x1.cyc) : SoundOut q z (execConfigure x0 x1) := by
  unfold execConfigure
  simp (maxDischargeDepth := 40) +contextual [*]

theorem sound_execCopyComplete {x0 : Nat} {x1 : Nat} {x2 : State} (h2 : Sound q z x2.pending x2.sec.fuses x2.csr x2.mem x2.cyc) : SoundOut q z (execCopyComplete x0 x1 x2) := by
  unfold execCopyComplete
  try dsimp only
  repeat' first
    | with_reducible assumption
    | with_reducible refine soundOut_next ?_
    | with_reducible refine soundOut_ite ?_ ?_
    | with_reducible refine sound_ite ?_ ?_
    | with_reducible refine sound_foldl ?_ (fun _ _ _ => ?_)
    | with_reducible refine sound_pumpAll ?_
    | with_reducible refine sound_answerTag ?_
    | with_reducible refine sound_respond10 ?_
    | split

theorem sound_execCoreFatal {x0 : Nat} {x1 : Nat} {x2 : State} (h2 : Sound q z x2.pending x2.sec.fuses x2.csr x2.mem x2.cyc) : SoundOut q z (execCoreFatal x0 x1 x2) := by
  unfold execCoreFatal
  simp (maxDischargeDepth := 40) +contextual [*]

theorem sound_execDeadlineExpire {x0 : Nat} {x1 : State} (h1 : Sound q z x1.pending x1.sec.fuses x1.csr x1.mem x1.cyc) : SoundOut q z (execDeadlineExpire x0 x1) := by
  unfold execDeadlineExpire
  simp (maxDischargeDepth := 40) +contextual [*]

@[simp] theorem sound_sendSched {x0 : State} {x1 : Nat} {x2 : Nat} {x3 : SchedFrame} (h0 : Sound q z x0.pending x0.sec.fuses x0.csr x0.mem x0.cyc) : Sound q z (sendSched x0 x1 x2 x3).pending (sendSched x0 x1 x2 x3).sec.fuses (sendSched x0 x1 x2 x3).csr (sendSched x0 x1 x2 x3).mem (sendSched x0 x1 x2 x3).cyc := by
  unfold sendSched
  simp (maxDischargeDepth := 40) +contextual [*]

theorem sound_execDeparture {l i : Nat} {s : State} (h : Sound q z s.pending s.sec.fuses s.csr s.mem s.cyc) : SoundOut q z (execDeparture l i s) := by
  unfold execDeparture
  split
  · exact h
  · refine soundOut_ite h ?_
    extract_lets s0 f v late s1 s2 zeros _ base fr s3 _ fr2
    have h0 : Sound q z s0.pending s0.sec.fuses s0.csr s0.mem s0.cyc := sound_atCycle h
    have k1 : Sound q z s1.pending s1.sec.fuses s1.csr s1.mem s1.cyc := sound_ite (sound_failStepIn (sound_count h0)) h0
    have k2 : Sound q z s2.pending s2.sec.fuses s2.csr s2.mem s2.cyc := sound_ite (sound_getD (sound_orElse (fun _ e => sound_tableFault k1 e) (fun _ e => sound_sramFault k1 e)) k1) k1
    have k3 : Sound q z s3.pending s3.sec.fuses s3.csr s3.mem s3.cyc := sound_ite (sound_fieldDown k2) k2
    refine soundOut_ite (soundOut_next (sound_count h0)) ?_
    exact soundOut_next (sound_sendSched k3)

theorem sound_execDirBind {x0 : Nat} {x1 : State} (h1 : Sound q z x1.pending x1.sec.fuses x1.csr x1.mem x1.cyc) : SoundOut q z (execDirBind x0 x1) := by
  unfold execDirBind
  simp (maxDischargeDepth := 40) +contextual [*]

theorem sound_execDirLength {x0 : Nat} {x1 : State} (h1 : Sound q z x1.pending x1.sec.fuses x1.csr x1.mem x1.cyc) : SoundOut q z (execDirLength x0 x1) := by
  unfold execDirLength
  simp (maxDischargeDepth := 40) +contextual [*]

@[simp] theorem sound_frameCopy {x0 : State} {x1 : Nat} {x2 : Nat} {x3 : ReqWhy} (h0 : Sound q z x0.pending x0.sec.fuses x0.csr x0.mem x0.cyc) : Sound q z (frameCopy x0 x1 x2 x3).pending (frameCopy x0 x1 x2 x3).sec.fuses (frameCopy x0 x1 x2 x3).csr (frameCopy x0 x1 x2 x3).mem (frameCopy x0 x1 x2 x3).cyc := by
  unfold frameCopy
  simp (maxDischargeDepth := 40) +contextual [*]

@[simp] theorem sound_startPark {x0 : State} {x1 : Nat} (h0 : Sound q z x0.pending x0.sec.fuses x0.csr x0.mem x0.cyc) : Sound q z (startPark x0 x1).pending (startPark x0 x1).sec.fuses (startPark x0 x1).csr (startPark x0 x1).mem (startPark x0 x1).cyc := by
  unfold startPark
  try dsimp only
  repeat' first
    | with_reducible assumption
    | with_reducible refine sound_ite ?_ ?_
    | with_reducible refine sound_foldl ?_ (fun _ _ _ => ?_)
    | with_reducible refine sound_parkSettled ?_
    | with_reducible refine sound_frameCopy ?_
    | split

@[simp] theorem sound_startUnpark {x0 : State} {x1 : Nat} (h0 : Sound q z x0.pending x0.sec.fuses x0.csr x0.mem x0.cyc) : Sound q z (startUnpark x0 x1).pending (startUnpark x0 x1).sec.fuses (startUnpark x0 x1).csr (startUnpark x0 x1).mem (startUnpark x0 x1).cyc := by
  unfold startUnpark
  try dsimp only
  repeat' first
    | with_reducible assumption
    | with_reducible refine sound_ite ?_ ?_
    | with_reducible refine sound_foldl ?_ (fun _ _ _ => ?_)
    | with_reducible refine sound_parkSettled ?_
    | with_reducible refine sound_frameCopy ?_
    | with_reducible refine sound_useFrame ?_
    | split

theorem sound_execDirPark {x0 : Nat} {x1 : State} (h1 : Sound q z x1.pending x1.sec.fuses x1.csr x1.mem x1.cyc) : SoundOut q z (execDirPark x0 x1) := by
  unfold execDirPark
  simp (maxDischargeDepth := 40) +contextual [*]

@[simp] theorem sound_returnRun {x0 : State} {x1 : Nat} {x2 : Nat} {x3 : Nat} (h0 : Sound q z x0.pending x0.sec.fuses x0.csr x0.mem x0.cyc) : Sound q z (returnRun x0 x1 x2 x3).pending (returnRun x0 x1 x2 x3).sec.fuses (returnRun x0 x1 x2 x3).csr (returnRun x0 x1 x2 x3).mem (returnRun x0 x1 x2 x3).cyc := by
  unfold returnRun
  simp (maxDischargeDepth := 40) +contextual [*]

@[simp] theorem sound_releaseEntry {x0 : State} {x1 : Nat} (h0 : Sound q z x0.pending x0.sec.fuses x0.csr x0.mem x0.cyc) : Sound q z (releaseEntry x0 x1).pending (releaseEntry x0 x1).sec.fuses (releaseEntry x0 x1).csr (releaseEntry x0 x1).mem (releaseEntry x0 x1).cyc := by
  unfold releaseEntry
  simp (maxDischargeDepth := 40) +contextual [*]

theorem sound_execDirRelease {x0 : Nat} {x1 : State} (h1 : Sound q z x1.pending x1.sec.fuses x1.csr x1.mem x1.cyc) : SoundOut q z (execDirRelease x0 x1) := by
  unfold execDirRelease
  simp (maxDischargeDepth := 40) +contextual [*]

theorem sound_execDisableWrite {x0 : Nat} {x1 : Word} {x2 : State} (h2 : Sound q z x2.pending x2.sec.fuses x2.csr x2.mem x2.cyc) : SoundOut q z (execDisableWrite x0 x1 x2) := by
  unfold execDisableWrite
  simp (maxDischargeDepth := 40) +contextual [*]

theorem sound_execDistRead {x0 : Nat} {x1 : State} (h1 : Sound q z x1.pending x1.sec.fuses x1.csr x1.mem x1.cyc) : SoundOut q z (execDistRead x0 x1) := by
  unfold execDistRead
  simp (maxDischargeDepth := 40) +contextual [*]

@[simp] theorem sound_loadGated {x0 : State} {x1 : Nat} (h0 : Sound q z x0.pending x0.sec.fuses x0.csr x0.mem x0.cyc) : Sound q z (loadGated x0 x1).pending (loadGated x0 x1).sec.fuses (loadGated x0 x1).csr (loadGated x0 x1).mem (loadGated x0 x1).cyc := by
  unfold loadGated
  simp (maxDischargeDepth := 40) +contextual [*]

@[simp] theorem sound_fieldReady {x0 : State} {x1 : Nat} (h0 : Sound q z x0.pending x0.sec.fuses x0.csr x0.mem x0.cyc) : Sound q z (fieldReady x0 x1).pending (fieldReady x0 x1).sec.fuses (fieldReady x0 x1).csr (fieldReady x0 x1).mem (fieldReady x0 x1).cyc := by
  unfold fieldReady
  simp (maxDischargeDepth := 40) +contextual [*]

@[simp] theorem sound_trainDomain {x0 : State} {x1 : Nat} (h0 : Sound q z x0.pending x0.sec.fuses x0.csr x0.mem x0.cyc) : Sound q z (trainDomain x0 x1).pending (trainDomain x0 x1).sec.fuses (trainDomain x0 x1).csr (trainDomain x0 x1).mem (trainDomain x0 x1).cyc := by
  unfold trainDomain
  simp (maxDischargeDepth := 40) +contextual [*]

theorem sound_execDomainPowerReady {x0 : Nat} {x1 : State} (h1 : Sound q z x1.pending x1.sec.fuses x1.csr x1.mem x1.cyc) : SoundOut q z (execDomainPowerReady x0 x1) := by
  unfold execDomainPowerReady
  simp (maxDischargeDepth := 40) +contextual [*]

theorem sound_execDomainReset {m : Nat} {s : State} (h : Sound q z s.pending s.sec.fuses s.csr s.mem s.cyc) : SoundOut q z (execDomainReset m s) := by
  unfold execDomainReset
  dsimp only
  refine soundOut_next (sound_takeCommand ?_ h)
  split
  · exact soundAct_now (fun a t ht => sound_askReset ht)
  · exact soundAct_job (fun a k t ht => sound_domainResetStart ht)

@[simp] theorem sound_writeCfgs {x0 : State} {x1 : Nat → Word} {x2 : List Nat} (h0 : Sound q z x0.pending x0.sec.fuses x0.csr x0.mem x0.cyc) : Sound q z (writeCfgs x0 x1 x2).pending (writeCfgs x0 x1 x2).sec.fuses (writeCfgs x0 x1 x2).csr (writeCfgs x0 x1 x2).mem (writeCfgs x0 x1 x2).cyc := by
  unfold writeCfgs
  simp (maxDischargeDepth := 40) +contextual [*]

@[simp] theorem sound_releaseReset {x0 : State} {x1 : DomReset} (h0 : Sound q z x0.pending x0.sec.fuses x0.csr x0.mem x0.cyc) : Sound q z (releaseReset x0 x1).pending (releaseReset x0 x1).sec.fuses (releaseReset x0 x1).csr (releaseReset x0 x1).mem (releaseReset x0 x1).cyc := by
  unfold releaseReset
  simp (maxDischargeDepth := 40) +contextual [*]

theorem sound_execDomainResetRelease {x0 : Nat} {x1 : State} (h1 : Sound q z x1.pending x1.sec.fuses x1.csr x1.mem x1.cyc) : SoundOut q z (execDomainResetRelease x0 x1) := by
  unfold execDomainResetRelease
  try dsimp only
  repeat' first
    | with_reducible assumption
    | with_reducible refine soundOut_next ?_
    | with_reducible refine soundOut_ite ?_ ?_
    | with_reducible refine sound_ite ?_ ?_
    | with_reducible refine sound_foldl ?_ (fun _ _ _ => ?_)
    | with_reducible refine sound_releaseReset ?_
    | split

theorem sound_execDownRetry {x0 : Nat} {x1 : State} (h1 : Sound q z x1.pending x1.sec.fuses x1.csr x1.mem x1.cyc) : SoundOut q z (execDownRetry x0 x1) := by
  unfold execDownRetry
  simp (maxDischargeDepth := 40) +contextual [*]

theorem sound_execDrain {x0 : Nat} {x1 : State} (h1 : Sound q z x1.pending x1.sec.fuses x1.csr x1.mem x1.cyc) : SoundOut q z (execDrain x0 x1) := by
  unfold execDrain
  simp (maxDischargeDepth := 40) +contextual [*]

theorem sound_execDrainComplete {x0 : State} (h0 : Sound q z x0.pending x0.sec.fuses x0.csr x0.mem x0.cyc) : SoundOut q z (execDrainComplete x0) := by
  unfold execDrainComplete
  simp (maxDischargeDepth := 40) +contextual [*]

theorem sound_execDriftAgeTick {x0 : Nat} {x1 : State} (h1 : Sound q z x1.pending x1.sec.fuses x1.csr x1.mem x1.cyc) : SoundOut q z (execDriftAgeTick x0 x1) := by
  unfold execDriftAgeTick
  simp (maxDischargeDepth := 40) +contextual [*]

theorem sound_execEcho {x0 : Nat} {x1 : State} (h1 : Sound q z x1.pending x1.sec.fuses x1.csr x1.mem x1.cyc) : SoundOut q z (execEcho x0 x1) := by
  unfold execEcho
  simp (maxDischargeDepth := 40) +contextual [*]

theorem sound_execEnableWrite {x0 : Nat} {x1 : Word} {x2 : State} (h2 : Sound q z x2.pending x2.sec.fuses x2.csr x2.mem x2.cyc) : SoundOut q z (execEnableWrite x0 x1 x2) := by
  unfold execEnableWrite
  simp (maxDischargeDepth := 40) +contextual [*]

@[simp] theorem sound_prepareTakeover {x0 : State} (h0 : Sound q z x0.pending x0.sec.fuses x0.csr x0.mem x0.cyc) : Sound q z (prepareTakeover x0).pending (prepareTakeover x0).sec.fuses (prepareTakeover x0).csr (prepareTakeover x0).mem (prepareTakeover x0).cyc := by
  unfold prepareTakeover
  try dsimp only
  repeat' first
    | with_reducible assumption
    | with_reducible refine sound_ite ?_ ?_
    | with_reducible refine sound_foldl ?_ (fun _ _ _ => ?_)
    | with_reducible refine sound_setFld ?_
    | split

@[simp] theorem sound_sigInvalid {x0 : State} {x1 : Check} {x2 : Nat} {x3 : Nat} (h0 : Sound q z x0.pending x0.sec.fuses x0.csr x0.mem x0.cyc) : Sound q z (sigInvalid x0 x1 x2 x3).pending (sigInvalid x0 x1 x2 x3).sec.fuses (sigInvalid x0 x1 x2 x3).csr (sigInvalid x0 x1 x2 x3).mem (sigInvalid x0 x1 x2 x3).cyc := by
  unfold sigInvalid
  simp (maxDischargeDepth := 40) +contextual [*]

@[simp] theorem sound_installEndorse {x0 : Nat} {x1 : List Byte} {x2 : Nat} {x3 : State} (h3 : Sound q z x3.pending x3.sec.fuses x3.csr x3.mem x3.cyc) : Sound q z (installEndorse x0 x1 x2 x3).pending (installEndorse x0 x1 x2 x3).sec.fuses (installEndorse x0 x1 x2 x3).csr (installEndorse x0 x1 x2 x3).mem (installEndorse x0 x1 x2 x3).cyc := by
  unfold installEndorse
  simp (maxDischargeDepth := 40) +contextual [*]

theorem sound_execEndorseInstall {x0 : Nat} {x1 : State} (h1 : Sound q z x1.pending x1.sec.fuses x1.csr x1.mem x1.cyc) : SoundOut q z (execEndorseInstall x0 x1) := by
  unfold execEndorseInstall
  simp (maxDischargeDepth := 40) +contextual [*]

@[simp] theorem sound_recordNbr {x0 : State} {x1 : Nat} {x2 : Hello} (h0 : Sound q z x0.pending x0.sec.fuses x0.csr x0.mem x0.cyc) : Sound q z (recordNbr x0 x1 x2).pending (recordNbr x0 x1 x2).sec.fuses (recordNbr x0 x1 x2).csr (recordNbr x0 x1 x2).mem (recordNbr x0 x1 x2).cyc := by
  unfold recordNbr
  simp (maxDischargeDepth := 40) +contextual [*]

@[simp] theorem sound_quarantine {x0 : State} {x1 : Nat} {x2 : Nat} {x3 : Option Hello} (h0 : Sound q z x0.pending x0.sec.fuses x0.csr x0.mem x0.cyc) : Sound q z (quarantine x0 x1 x2 x3).pending (quarantine x0 x1 x2 x3).sec.fuses (quarantine x0 x1 x2 x3).csr (quarantine x0 x1 x2 x3).mem (quarantine x0 x1 x2 x3).cyc := by
  unfold quarantine
  try dsimp only
  repeat' first
    | with_reducible assumption
    | with_reducible refine sound_ite ?_ ?_
    | with_reducible refine sound_foldl ?_ (fun _ _ _ => ?_)
    | with_reducible refine sound_setFld ?_
    | with_reducible refine sound_recordNbr ?_
    | with_reducible refine sound_count ?_
    | with_reducible refine sound_setLink ?_
    | with_reducible refine sound_recordFault ?_
    | split

theorem sound_execEpochWaitTimeout {x0 : Nat} {x1 : State} (h1 : Sound q z x1.pending x1.sec.fuses x1.csr x1.mem x1.cyc) : SoundOut q z (execEpochWaitTimeout x0 x1) := by
  unfold execEpochWaitTimeout
  try dsimp only
  repeat' first
    | with_reducible assumption
    | with_reducible refine soundOut_next ?_
    | with_reducible refine soundOut_ite ?_ ?_
    | with_reducible refine sound_ite ?_ ?_
    | with_reducible refine sound_foldl ?_ (fun _ _ _ => ?_)
    | with_reducible refine sound_rowTook ?_ ?_
    | with_reducible refine sound_quarantine ?_
    | split

@[simp] theorem sound_logRead {x0 : State} {x1 : Nat} {x2 : List Byte} {x3 : List Byte} (h0 : Sound q z x0.pending x0.sec.fuses x0.csr x0.mem x0.cyc) : Sound q z (logRead x0 x1 x2 x3).1.pending (logRead x0 x1 x2 x3).1.sec.fuses (logRead x0 x1 x2 x3).1.csr (logRead x0 x1 x2 x3).1.mem (logRead x0 x1 x2 x3).1.cyc := by
  unfold logRead
  try dsimp only
  repeat' first
    | with_reducible assumption
    | with_reducible refine sound_ite ?_ ?_
    | with_reducible refine sound_foldl ?_ (fun _ _ _ => ?_)
    | with_reducible refine sound_write ?_
    | split

theorem sound_execEventLogRead {x0 : Nat} {x1 : State} (h1 : Sound q z x1.pending x1.sec.fuses x1.csr x1.mem x1.cyc) : SoundOut q z (execEventLogRead x0 x1) := by
  unfold execEventLogRead
  simp (maxDischargeDepth := 40) +contextual [*]

theorem sound_execExtGmLost {x0 : State} (h0 : Sound q z x0.pending x0.sec.fuses x0.csr x0.mem x0.cyc) : SoundOut q z (execExtGmLost x0) := by
  unfold execExtGmLost
  simp (maxDischargeDepth := 40) +contextual [*]

@[simp] theorem sound_rowState {x0 : State} {x1 : Nat} {x2 : Nat} {x3 : LinkState → Bool} (h0 : Sound q z x0.pending x0.sec.fuses x0.csr x0.mem x0.cyc) : Sound q z (rowState x0 x1 x2 x3).pending (rowState x0 x1 x2 x3).sec.fuses (rowState x0 x1 x2 x3).csr (rowState x0 x1 x2 x3).mem (rowState x0 x1 x2 x3).cyc := by
  unfold rowState
  try dsimp only
  repeat' first
    | with_reducible assumption
    | with_reducible refine sound_ite ?_ ?_
    | with_reducible refine sound_foldl ?_ (fun _ _ _ => ?_)
    | with_reducible refine sound_updLnk ?_
    | with_reducible refine sound_setFld ?_
    | with_reducible refine sound_setWord ?_
    | split

theorem sound_execFastRetrainDone {x0 : Nat} {x1 : Bool} {x2 : Nat} {x3 : Nat} {x4 : State} (h4 : Sound q z x4.pending x4.sec.fuses x4.csr x4.mem x4.cyc) : SoundOut q z (execFastRetrainDone x0 x1 x2 x3 x4) := by
  unfold execFastRetrainDone
  simp (maxDischargeDepth := 40) +contextual [*]

theorem sound_execFaultLogRead {x0 : Nat} {x1 : State} (h1 : Sound q z x1.pending x1.sec.fuses x1.csr x1.mem x1.cyc) : SoundOut q z (execFaultLogRead x0 x1) := by
  unfold execFaultLogRead
  simp (maxDischargeDepth := 40) +contextual [*]

@[simp] theorem sound_nullPos {x0 : State} {x1 : Nat} {x2 : Ctx} (h0 : Sound q z x0.pending x0.sec.fuses x0.csr x0.mem x0.cyc) : Sound q z (nullPos x0 x1 x2).pending (nullPos x0 x1 x2).sec.fuses (nullPos x0 x1 x2).csr (nullPos x0 x1 x2).mem (nullPos x0 x1 x2).cyc := by
  unfold nullPos
  simp (maxDischargeDepth := 40) +contextual [*]

@[simp] theorem sound_genCheck {x0 : State} {x1 : Nat} {x2 : Nat} {x3 : Nat} (h0 : Sound q z x0.pending x0.sec.fuses x0.csr x0.mem x0.cyc) : Sound q z (genCheck x0 x1 x2 x3).pending (genCheck x0 x1 x2 x3).sec.fuses (genCheck x0 x1 x2 x3).csr (genCheck x0 x1 x2 x3).mem (genCheck x0 x1 x2 x3).cyc := by
  unfold genCheck
  try dsimp only
  repeat' first
    | with_reducible assumption
    | with_reducible refine sound_ite ?_ ?_
    | with_reducible refine sound_foldl ?_ (fun _ _ _ => ?_)
    | with_reducible refine sound_setPos ?_
    | with_reducible refine sound_count ?_
    | with_reducible refine sound_nullPos ?_
    | split

@[simp] theorem sound_fieldAction {act f sl v : Nat} {s : State} {g : State → Nat → Nat → State} (h : Sound q z s.pending s.sec.fuses s.csr s.mem s.cyc)
    (hg : ∀ t n e, Sound q z t.pending t.sec.fuses t.csr t.mem t.cyc → Sound q z (g t n e).pending (g t n e).sec.fuses (g t n e).csr (g t n e).mem (g t n e).cyc) : Sound q z (fieldAction act f sl v s g).pending (fieldAction act f sl v s g).sec.fuses (fieldAction act f sl v s g).csr (fieldAction act f sl v s g).mem (fieldAction act f sl v s g).cyc := by
  unfold fieldAction
  extract_lets
  repeat' first
    | with_reducible assumption
    | with_reducible refine sound_ite ?_ ?_
    | with_reducible refine sound_fieldDown ?_
    | with_reducible refine sound_atSlot ?_
    | with_reducible refine sound_genCheck ?_
    | with_reducible refine hg _ _ _ ?_
    | with_reducible refine sound_entryFault ?_ ‹_›
    | extract_lets
    | split

theorem sound_execFieldAlign {f sl v : Nat} {s : State} (h : Sound q z s.pending s.sec.fuses s.csr s.mem s.cyc) : SoundOut q z (execFieldAlign f sl v s) := by
  unfold execFieldAlign
  refine soundOut_next (sound_fieldAction h (fun t q e ht => ?_))
  repeat' first
    | with_reducible assumption
    | with_reducible refine sound_ite ?_ ?_
    | with_reducible refine sound_lateField ?_
    | with_reducible refine sound_alignVector ?_
    | split

@[simp] theorem sound_formH {x0 : State} {x1 : Nat} {x2 : Nat} {x3 : Scan} (h0 : Sound q z x0.pending x0.sec.fuses x0.csr x0.mem x0.cyc) : Sound q z (formH x0 x1 x2 x3).pending (formH x0 x1 x2 x3).sec.fuses (formH x0 x1 x2 x3).csr (formH x0 x1 x2 x3).mem (formH x0 x1 x2 x3).cyc := by
  unfold formH
  try dsimp only
  repeat' first
    | with_reducible assumption
    | with_reducible refine sound_ite ?_ ?_
    | with_reducible refine sound_foldl ?_ (fun _ _ _ => ?_)
    | with_reducible refine sound_setScan ?_
    | with_reducible refine sound_count ?_
    | split

@[simp] theorem sound_nettleOnly {x0 : State} {x1 : Nat} {x2 : Nat} {x3 : Scan} (h0 : Sound q z x0.pending x0.sec.fuses x0.csr x0.mem x0.cyc) : Sound q z (nettleOnly x0 x1 x2 x3).pending (nettleOnly x0 x1 x2 x3).sec.fuses (nettleOnly x0 x1 x2 x3).csr (nettleOnly x0 x1 x2 x3).mem (nettleOnly x0 x1 x2 x3).cyc := by
  unfold nettleOnly
  try dsimp only
  repeat' first
    | with_reducible assumption
    | with_reducible refine sound_ite ?_ ?_
    | with_reducible refine sound_foldl ?_ (fun _ _ _ => ?_)
    | with_reducible refine sound_failStep ?_
    | with_reducible refine sound_readObject ?_
    | with_reducible refine sound_addLanes ?_
    | with_reducible refine sound_setScan ?_
    | split

theorem sound_execFieldClose {f sl v : Nat} {s : State} (h : Sound q z s.pending s.sec.fuses s.csr s.mem s.cyc) : SoundOut q z (execFieldClose f sl v s) := by
  unfold execFieldClose
  refine soundOut_next (sound_fieldAction h (fun t c e ht => ?_))
  repeat' first
    | with_reducible assumption
    | with_reducible refine sound_ite ?_ ?_
    | with_reducible refine sound_lateField ?_
    | with_reducible refine sound_closeVector ?_
    | with_reducible refine sound_failStep ?_
    | with_reducible refine sound_nettleOnly ?_
    | with_reducible refine sound_formH ?_
    | with_reducible refine sound_getD (fun _ e => sound_sramFault ?_ e) ?_
    | split
    | extract_lets

theorem sound_execFieldExponent {x0 : Nat} {x1 : Nat} {x2 : Nat} {x3 : State} (h3 : Sound q z x3.pending x3.sec.fuses x3.csr x3.mem x3.cyc) : SoundOut q z (execFieldExponent x0 x1 x2 x3) := by
  unfold execFieldExponent
  simp (maxDischargeDepth := 40) +contextual [*]

theorem sound_execFieldOpen {x0 : Nat} {x1 : Nat} {x2 : Nat} {x3 : State} (h3 : Sound q z x3.pending x3.sec.fuses x3.csr x3.mem x3.cyc) : SoundOut q z (execFieldOpen x0 x1 x2 x3) := by
  unfold execFieldOpen
  try dsimp only
  repeat' first
    | with_reducible assumption
    | with_reducible refine soundOut_next ?_
    | with_reducible refine soundOut_ite ?_ ?_
    | with_reducible refine sound_ite ?_ ?_
    | with_reducible refine sound_foldl ?_ (fun _ _ _ => ?_)
    | with_reducible refine sound_atSlot ?_
    | with_reducible refine sound_fieldDown ?_
    | with_reducible refine sound_genCheck ?_
    | with_reducible refine sound_setLane ?_
    | split

@[simp] theorem sound_fieldPowerStart {x0 : Nat} {x1 : List Byte} {x2 : Nat} {x3 : State} (h3 : Sound q z x3.pending x3.sec.fuses x3.csr x3.mem x3.cyc) : Sound q z (fieldPowerStart x0 x1 x2 x3).pending (fieldPowerStart x0 x1 x2 x3).sec.fuses (fieldPowerStart x0 x1 x2 x3).csr (fieldPowerStart x0 x1 x2 x3).mem (fieldPowerStart x0 x1 x2 x3).cyc := by
  unfold fieldPowerStart
  simp (maxDischargeDepth := 40) +contextual [*]

theorem sound_execFieldPower {x0 : Nat} {x1 : State} (h1 : Sound q z x1.pending x1.sec.fuses x1.csr x1.mem x1.cyc) : SoundOut q z (execFieldPower x0 x1) := by
  unfold execFieldPower
  simp (maxDischargeDepth := 40) +contextual [*]

@[simp] theorem sound_scanVector_finishScan {x0 : Nat} {x1 : Nat} {x2 : State} {x3 : Scan} (h2 : Sound q z x2.pending x2.sec.fuses x2.csr x2.mem x2.cyc) : Sound q z (scanVector.finishScan x0 x1 x2 x3).pending (scanVector.finishScan x0 x1 x2 x3).sec.fuses (scanVector.finishScan x0 x1 x2 x3).csr (scanVector.finishScan x0 x1 x2 x3).mem (scanVector.finishScan x0 x1 x2 x3).cyc := by
  unfold scanVector.finishScan
  try dsimp only
  repeat' first
    | with_reducible assumption
    | with_reducible refine sound_ite ?_ ?_
    | with_reducible refine sound_foldl ?_ (fun _ _ _ => ?_)
    | with_reducible refine sound_failStep ?_
    | with_reducible refine sound_readObject ?_
    | with_reducible refine sound_setScan ?_
    | split

@[simp] theorem sound_scanVector {x0 : State} {x1 : Nat} {x2 : Nat} {x3 : Nat} {x4 : Nat} (h0 : Sound q z x0.pending x0.sec.fuses x0.csr x0.mem x0.cyc) : Sound q z (scanVector x0 x1 x2 x3 x4).pending (scanVector x0 x1 x2 x3 x4).sec.fuses (scanVector x0 x1 x2 x3 x4).csr (scanVector x0 x1 x2 x3 x4).mem (scanVector x0 x1 x2 x3 x4).cyc := by
  unfold scanVector
  try dsimp only
  repeat' first
    | with_reducible assumption
    | with_reducible refine sound_ite ?_ ?_
    | with_reducible refine sound_foldl ?_ (fun _ _ _ => ?_)
    | with_reducible refine sound_count ?_
    | with_reducible refine sound_failStep ?_
    | with_reducible refine sound_scanVector_finishScan ?_
    | split

theorem sound_execFieldScan {x0 : Nat} {x1 : Nat} {x2 : Nat} {x3 : State} (h3 : Sound q z x3.pending x3.sec.fuses x3.csr x3.mem x3.cyc) : SoundOut q z (execFieldScan x0 x1 x2 x3) := by
  unfold execFieldScan
  try dsimp only
  repeat' first
    | with_reducible assumption
    | with_reducible refine soundOut_next ?_
    | with_reducible refine soundOut_ite ?_ ?_
    | with_reducible refine sound_ite ?_ ?_
    | with_reducible refine sound_foldl ?_ (fun _ _ _ => ?_)
    | with_reducible refine sound_fieldAction ?_ (fun _ _ _ _ => ?_)
    | with_reducible refine sound_lateField ?_
    | with_reducible refine sound_getD (fun _ e => sound_sramFault ?_ e) ?_
    | with_reducible refine sound_sramFault ?_ ‹_›
    | with_reducible refine sound_scanVector ?_
    | split

theorem sound_execFieldSelect {x0 : Nat} {x1 : Nat} {x2 : Nat} {x3 : State} (h3 : Sound q z x3.pending x3.sec.fuses x3.csr x3.mem x3.cyc) : SoundOut q z (execFieldSelect x0 x1 x2 x3) := by
  unfold execFieldSelect
  try dsimp only
  repeat' first
    | with_reducible assumption
    | with_reducible refine soundOut_next ?_
    | with_reducible refine soundOut_ite ?_ ?_
    | with_reducible refine sound_ite ?_ ?_
    | with_reducible refine sound_foldl ?_ (fun _ _ _ => ?_)
    | with_reducible refine sound_atSlot ?_
    | with_reducible refine sound_fieldDown ?_
    | with_reducible refine sound_genCheck ?_
    | with_reducible refine sound_putSram ?_
    | with_reducible refine sound_setScan ?_
    | with_reducible refine sound_lateField ?_
    | split

@[simp] theorem sound_servo {x0 : State} {x1 : PtpMsg} {x2 : Int} (h0 : Sound q z x0.pending x0.sec.fuses x0.csr x0.mem x0.cyc) : Sound q z (servo x0 x1 x2).pending (servo x0 x1 x2).sec.fuses (servo x0 x1 x2).csr (servo x0 x1 x2).mem (servo x0 x1 x2).cyc := by
  unfold servo
  try dsimp only
  repeat' first
    | with_reducible assumption
    | with_reducible refine sound_ite ?_ ?_
    | with_reducible refine sound_foldl ?_ (fun _ _ _ => ?_)
    | with_reducible refine sound_draw ?_
    | with_reducible refine sound_setFld ?_
    | split

@[simp] theorem sound_syncMarks {x0 : State} {x1 : Nat} {x2 : PtpMsg} (h0 : Sound q z x0.pending x0.sec.fuses x0.csr x0.mem x0.cyc) : Sound q z (syncMarks x0 x1 x2).pending (syncMarks x0 x1 x2).sec.fuses (syncMarks x0 x1 x2).csr (syncMarks x0 x1 x2).mem (syncMarks x0 x1 x2).cyc := by
  unfold syncMarks
  dsimp only
  exact sound_updLnk h0

@[simp] theorem sound_syncTake {x0 : State} {x1 : Nat} {x2 : PtpMsg} (h0 : Sound q z x0.pending x0.sec.fuses x0.csr x0.mem x0.cyc) : Sound q z (syncTake x0 x1 x2).pending (syncTake x0 x1 x2).sec.fuses (syncTake x0 x1 x2).csr (syncTake x0 x1 x2).mem (syncTake x0 x1 x2).cyc := by
  unfold syncTake
  try dsimp only
  repeat' first
    | with_reducible assumption
    | with_reducible refine sound_ite ?_ ?_
    | with_reducible refine sound_foldl ?_ (fun _ _ _ => ?_)
    | with_reducible refine sound_syncMarks ?_
    | with_reducible refine sound_takePort ?_
    | with_reducible refine sound_setFld ?_
    | with_reducible refine sound_servo ?_
    | with_reducible refine sound_showAlt ?_
    | split

@[simp] theorem sound_syncDone {x0 : State} {x1 : Nat} {x2 : PtpMsg} (h0 : Sound q z x0.pending x0.sec.fuses x0.csr x0.mem x0.cyc) : Sound q z (syncDone x0 x1 x2).pending (syncDone x0 x1 x2).sec.fuses (syncDone x0 x1 x2).csr (syncDone x0 x1 x2).mem (syncDone x0 x1 x2).cyc := by
  unfold syncDone
  simp (maxDischargeDepth := 40) +contextual [*]

theorem sound_execFollowUpReceived {x0 : Nat} {x1 : PtpMsg} {x2 : State} (h2 : Sound q z x2.pending x2.sec.fuses x2.csr x2.mem x2.cyc) : SoundOut q z (execFollowUpReceived x0 x1 x2) := by
  unfold execFollowUpReceived
  try dsimp only
  repeat' first
    | with_reducible assumption
    | with_reducible refine soundOut_next ?_
    | with_reducible refine soundOut_ite ?_ ?_
    | with_reducible refine sound_ite ?_ ?_
    | with_reducible refine sound_foldl ?_ (fun _ _ _ => ?_)
    | with_reducible refine sound_ptpDiscard ?_
    | with_reducible refine sound_syncDone ?_
    | split

@[simp] theorem sound_hostRead {x0 : State} {x1 : Nat} (h0 : Sound q z x0.pending x0.sec.fuses x0.csr x0.mem x0.cyc) : Sound q z (hostRead x0 x1).pending (hostRead x0 x1).sec.fuses (hostRead x0 x1).csr (hostRead x0 x1).mem (hostRead x0 x1).cyc := by
  unfold hostRead
  simp (maxDischargeDepth := 40) +contextual [*]

theorem sound_execFtNsLoRead {x0 : State} (h0 : Sound q z x0.pending x0.sec.fuses x0.csr x0.mem x0.cyc) : SoundOut q z (execFtNsLoRead x0) := by
  unfold execFtNsLoRead
  simp (maxDischargeDepth := 40) +contextual [*]

theorem sound_execGetInfo {x0 : Nat} {x1 : State} (h1 : Sound q z x1.pending x1.sec.fuses x1.csr x1.mem x1.cyc) : SoundOut q z (execGetInfo x0 x1) := by
  unfold execGetInfo
  simp (maxDischargeDepth := 40) +contextual [*]

theorem sound_execHbmStackTrained {x0 : Nat} {x1 : State} (h1 : Sound q z x1.pending x1.sec.fuses x1.csr x1.mem x1.cyc) : SoundOut q z (execHbmStackTrained x0 x1) := by
  unfold execHbmStackTrained
  simp (maxDischargeDepth := 40) +contextual [*]

theorem sound_execHeaderCheckpoint {x0 : State} (h0 : Sound q z x0.pending x0.sec.fuses x0.csr x0.mem x0.cyc) : SoundOut q z (execHeaderCheckpoint x0) := by
  unfold execHeaderCheckpoint
  simp (maxDischargeDepth := 40) +contextual [*]

theorem sound_execHealthRead {x0 : Nat} {x1 : State} (h1 : Sound q z x1.pending x1.sec.fuses x1.csr x1.mem x1.cyc) : SoundOut q z (execHealthRead x0 x1) := by
  unfold execHealthRead
  simp (maxDischargeDepth := 40) +contextual [*]

@[simp] theorem sound_takeReport {x0 : State} {x1 : Nat} {x2 : List Byte} (h0 : Sound q z x0.pending x0.sec.fuses x0.csr x0.mem x0.cyc) : Sound q z (takeReport x0 x1 x2).pending (takeReport x0 x1 x2).sec.fuses (takeReport x0 x1 x2).csr (takeReport x0 x1 x2).mem (takeReport x0 x1 x2).cyc := by
  unfold takeReport
  simp (maxDischargeDepth := 40) +contextual [*]

theorem sound_execHealthReport {x0 : Nat} {x1 : List Byte} {x2 : State} (h2 : Sound q z x2.pending x2.sec.fuses x2.csr x2.mem x2.cyc) : SoundOut q z (execHealthReport x0 x1 x2) := by
  unfold execHealthReport
  simp (maxDischargeDepth := 40) +contextual [*]

@[simp] theorem sound_helloIdentify {x0 : State} {x1 : Nat} {x2 : Hello} (h0 : Sound q z x0.pending x0.sec.fuses x0.csr x0.mem x0.cyc) : Sound q z (helloIdentify x0 x1 x2).pending (helloIdentify x0 x1 x2).sec.fuses (helloIdentify x0 x1 x2).csr (helloIdentify x0 x1 x2).mem (helloIdentify x0 x1 x2).cyc := by
  unfold helloIdentify
  simp (maxDischargeDepth := 40) +contextual [*]

theorem sound_execHello {x0 : Nat} {x1 : List Byte} {x2 : State} (h2 : Sound q z x2.pending x2.sec.fuses x2.csr x2.mem x2.cyc) : SoundOut q z (execHello x0 x1 x2) := by
  unfold execHello
  try dsimp only
  repeat' first
    | with_reducible assumption
    | with_reducible refine soundOut_next ?_
    | with_reducible refine soundOut_ite ?_ ?_
    | with_reducible refine sound_ite ?_ ?_
    | with_reducible refine sound_foldl ?_ (fun _ _ _ => ?_)
    | with_reducible refine sound_count ?_
    | with_reducible refine sound_rowState ?_
    | with_reducible refine sound_helloIdentify ?_
    | with_reducible refine sound_updLnk ?_
    | split

theorem sound_execHelloSend {x0 : Nat} {x1 : State} (h1 : Sound q z x1.pending x1.sec.fuses x1.csr x1.mem x1.cyc) : SoundOut q z (execHelloSend x0 x1) := by
  unfold execHelloSend
  simp (maxDischargeDepth := 40) +contextual [*]

theorem sound_execHelloTimeout {x0 : Nat} {x1 : State} (h1 : Sound q z x1.pending x1.sec.fuses x1.csr x1.mem x1.cyc) : SoundOut q z (execHelloTimeout x0 x1) := by
  unfold execHelloTimeout
  simp (maxDischargeDepth := 40) +contextual [*]

theorem sound_execHoldLeftExpire {x0 : State} (h0 : Sound q z x0.pending x0.sec.fuses x0.csr x0.mem x0.cyc) : SoundOut q z (execHoldLeftExpire x0) := by
  unfold execHoldLeftExpire
  simp (maxDischargeDepth := 40) +contextual [*]

@[simp] theorem sound_pollMode {x0 : RoundIn} {x1 : State} {x2 : Nat} (h1 : Sound q z x1.pending x1.sec.fuses x1.csr x1.mem x1.cyc) : Sound q z (pollMode x0 x1 x2).pending (pollMode x0 x1 x2).sec.fuses (pollMode x0 x1 x2).csr (pollMode x0 x1 x2).mem (pollMode x0 x1 x2).cyc := by
  unfold pollMode
  simp (maxDischargeDepth := 40) +contextual [*]

@[simp] theorem sound_pollRail {x0 : RoundIn} {x1 : State} {x2 : Nat} (h1 : Sound q z x1.pending x1.sec.fuses x1.csr x1.mem x1.cyc) : Sound q z (pollRail x0 x1 x2).pending (pollRail x0 x1 x2).sec.fuses (pollRail x0 x1 x2).csr (pollRail x0 x1 x2).mem (pollRail x0 x1 x2).cyc := by
  unfold pollRail
  try dsimp only
  repeat' first
    | with_reducible assumption
    | with_reducible refine sound_ite ?_ ?_
    | with_reducible refine sound_foldl ?_ (fun _ _ _ => ?_)
    | with_reducible refine sound_setFld ?_
    | with_reducible refine sound_recordFault ?_
    | with_reducible refine sound_writeEvent ?_
    | split

@[simp] theorem sound_pollStatus {x0 : RoundIn} {x1 : State} {x2 : Nat} (h1 : Sound q z x1.pending x1.sec.fuses x1.csr x1.mem x1.cyc) : Sound q z (pollStatus x0 x1 x2).pending (pollStatus x0 x1 x2).sec.fuses (pollStatus x0 x1 x2).csr (pollStatus x0 x1 x2).mem (pollStatus x0 x1 x2).cyc := by
  unfold pollStatus
  try dsimp only
  repeat' first
    | with_reducible assumption
    | with_reducible refine sound_ite ?_ ?_
    | with_reducible refine sound_foldl ?_ (fun _ _ _ => ?_)
    | with_reducible refine sound_pmbWrite ?_
    | with_reducible refine sound_recordFault ?_
    | with_reducible refine sound_setFld ?_
    | split

@[simp] theorem sound_pmbRound {x0 : State} {x1 : RoundIn} (h0 : Sound q z x0.pending x0.sec.fuses x0.csr x0.mem x0.cyc) : Sound q z (pmbRound x0 x1).pending (pmbRound x0 x1).sec.fuses (pmbRound x0 x1).csr (pmbRound x0 x1).mem (pmbRound x0 x1).cyc := by
  unfold pmbRound
  try dsimp only
  repeat' first
    | with_reducible assumption
    | with_reducible refine sound_ite ?_ ?_
    | with_reducible refine sound_foldl ?_ (fun _ _ _ => ?_)
    | with_reducible refine sound_count ?_
    | with_reducible refine sound_pollMode ?_
    | with_reducible refine sound_pmbWrite ?_
    | with_reducible refine sound_pollRail ?_
    | with_reducible refine sound_pollStatus ?_
    | with_reducible refine sound_setFld ?_
    | split

@[simp] theorem sound_readSensor {x0 : State} {x1 : Nat} {x2 : Option Int} (h0 : Sound q z x0.pending x0.sec.fuses x0.csr x0.mem x0.cyc) : Sound q z (readSensor x0 x1 x2).pending (readSensor x0 x1 x2).sec.fuses (readSensor x0 x1 x2).csr (readSensor x0 x1 x2).mem (readSensor x0 x1 x2).cyc := by
  unfold readSensor
  try dsimp only
  repeat' first
    | with_reducible assumption
    | with_reducible refine sound_ite ?_ ?_
    | with_reducible refine sound_foldl ?_ (fun _ _ _ => ?_)
    | with_reducible refine sound_setFld ?_
    | with_reducible refine sound_count ?_
    | split

@[simp] theorem sound_levelStep {x0 : State} {x1 : Nat} {x2 : Int} {x3 : Int} {x4 : Int} {x5 : Fld} (h0 : Sound q z x0.pending x0.sec.fuses x0.csr x0.mem x0.cyc) : Sound q z (levelStep x0 x1 x2 x3 x4 x5).pending (levelStep x0 x1 x2 x3 x4 x5).sec.fuses (levelStep x0 x1 x2 x3 x4 x5).csr (levelStep x0 x1 x2 x3 x4 x5).mem (levelStep x0 x1 x2 x3 x4 x5).cyc := by
  unfold levelStep
  simp (maxDischargeDepth := 40) +contextual [*]

@[simp] theorem sound_updateTemp {x0 : State} (h0 : Sound q z x0.pending x0.sec.fuses x0.csr x0.mem x0.cyc) : Sound q z (updateTemp x0).pending (updateTemp x0).sec.fuses (updateTemp x0).csr (updateTemp x0).mem (updateTemp x0).cyc := by
  unfold updateTemp
  simp (maxDischargeDepth := 40) +contextual [*]

@[simp] theorem sound_readSensors {x0 : State} {x1 : List (Option Int)} (h0 : Sound q z x0.pending x0.sec.fuses x0.csr x0.mem x0.cyc) : Sound q z (readSensors x0 x1).pending (readSensors x0 x1).sec.fuses (readSensors x0 x1).csr (readSensors x0 x1).mem (readSensors x0 x1).cyc := by
  unfold readSensors
  simp (maxDischargeDepth := 40) +contextual [*]

@[simp] theorem sound_healthReports {x0 : State} (h0 : Sound q z x0.pending x0.sec.fuses x0.csr x0.mem x0.cyc) : Sound q z (healthReports x0).pending (healthReports x0).sec.fuses (healthReports x0).csr (healthReports x0).mem (healthReports x0).cyc := by
  unfold healthReports
  try dsimp only
  repeat' first
    | with_reducible assumption
    | with_reducible refine sound_ite ?_ ?_
    | with_reducible refine sound_foldl ?_ (fun _ _ _ => ?_)
    | with_reducible refine sound_takeReport ?_
    | with_reducible refine sound_sendCtrl ?_
    | split

@[simp] theorem sound_laneFail {x0 : State} {x1 : Nat} {x2 : Nat} (h0 : Sound q z x0.pending x0.sec.fuses x0.csr x0.mem x0.cyc) : Sound q z (laneFail x0 x1 x2).pending (laneFail x0 x1 x2).sec.fuses (laneFail x0 x1 x2).csr (laneFail x0 x1 x2).mem (laneFail x0 x1 x2).cyc := by
  unfold laneFail
  simp (maxDischargeDepth := 40) +contextual [*]

@[simp] theorem sound_laneRound {x0 : State} {x1 : LaneRead} (h0 : Sound q z x0.pending x0.sec.fuses x0.csr x0.mem x0.cyc) : Sound q z (laneRound x0 x1).pending (laneRound x0 x1).sec.fuses (laneRound x0 x1).csr (laneRound x0 x1).mem (laneRound x0 x1).cyc := by
  unfold laneRound
  simp (maxDischargeDepth := 40) +contextual [*]

@[simp] theorem sound_shedReport {x0 : State} (h0 : Sound q z x0.pending x0.sec.fuses x0.csr x0.mem x0.cyc) : Sound q z (shedReport x0).pending (shedReport x0).sec.fuses (shedReport x0).csr (shedReport x0).mem (shedReport x0).cyc := by
  unfold shedReport
  try dsimp only
  repeat' first
    | with_reducible assumption
    | with_reducible refine sound_ite ?_ ?_
    | with_reducible refine sound_foldl ?_ (fun _ _ _ => ?_)
    | with_reducible refine sound_sendCtrl ?_
    | split

@[simp] theorem sound_shedRound {x0 : State} (h0 : Sound q z x0.pending x0.sec.fuses x0.csr x0.mem x0.cyc) : Sound q z (shedRound x0).pending (shedRound x0).sec.fuses (shedRound x0).csr (shedRound x0).mem (shedRound x0).cyc := by
  unfold shedRound
  simp (maxDischargeDepth := 40) +contextual [*]

@[simp] theorem sound_roundEnd {x0 : RoundIn} {x1 : State} (h1 : Sound q z x1.pending x1.sec.fuses x1.csr x1.mem x1.cyc) : Sound q z (roundEnd x0 x1).pending (roundEnd x0 x1).sec.fuses (roundEnd x0 x1).csr (roundEnd x0 x1).mem (roundEnd x0 x1).cyc := by
  unfold roundEnd
  simp (maxDischargeDepth := 40) +contextual [*]

theorem sound_execHousekeepingRound {x0 : RoundIn} {x1 : State} (h1 : Sound q z x1.pending x1.sec.fuses x1.csr x1.mem x1.cyc) : SoundOut q z (execHousekeepingRound x0 x1) := by
  unfold execHousekeepingRound
  try dsimp only
  repeat' first
    | with_reducible assumption
    | with_reducible refine soundOut_next ?_
    | with_reducible refine soundOut_ite ?_ ?_
    | with_reducible refine sound_ite ?_ ?_
    | with_reducible refine sound_foldl ?_ (fun _ _ _ => ?_)
    | with_reducible refine sound_setFld ?_
    | with_reducible refine sound_busConvert ?_
    | with_reducible refine sound_readSensors ?_
    | with_reducible refine sound_roundEnd ?_
    | with_reducible refine sound_checksRound ?_
    | with_reducible refine sound_pmbRound ?_
    | split

theorem sound_execIdentityRead {x0 : Nat} {x1 : State} (h1 : Sound q z x1.pending x1.sec.fuses x1.csr x1.mem x1.cyc) : SoundOut q z (execIdentityRead x0 x1) := by
  unfold execIdentityRead
  simp (maxDischargeDepth := 40) +contextual [*]

theorem sound_execIntMaskWrite {x0 : Word} {x1 : State} (h1 : Sound q z x1.pending x1.sec.fuses x1.csr x1.mem x1.cyc) : SoundOut q z (execIntMaskWrite x0 x1) := by
  unfold execIntMaskWrite
  simp (maxDischargeDepth := 40) +contextual [*]

theorem sound_execIntWindowEnd {x0 : Nat} {x1 : State} (h1 : Sound q z x1.pending x1.sec.fuses x1.csr x1.mem x1.cyc) : SoundOut q z (execIntWindowEnd x0 x1) := by
  unfold execIntWindowEnd
  try dsimp only
  repeat' first
    | with_reducible assumption
    | with_reducible refine soundOut_next ?_
    | with_reducible refine soundOut_ite ?_ ?_
    | with_reducible refine sound_ite ?_ ?_
    | with_reducible refine sound_foldl ?_ (fun _ _ _ => ?_)
    | split

@[simp] theorem sound_mbxAccess {s : State} {m : Nat} {src : Option Nat} {g : State → State} (h : Sound q z s.pending s.sec.fuses s.csr s.mem s.cyc)
    (hg : ∀ t, Sound q z t.pending t.sec.fuses t.csr t.mem t.cyc → Sound q z (g t).pending (g t).sec.fuses (g t).csr (g t).mem (g t).cyc) :
    Sound q z (mbxAccess s m src g).pending (mbxAccess s m src g).sec.fuses (mbxAccess s m src g).csr (mbxAccess s m src g).mem (mbxAccess s m src g).cyc := by
  unfold mbxAccess
  cases src <;> dsimp only <;> repeat' first
    | with_reducible assumption
    | with_reducible refine sound_ite ?_ ?_
    | with_reducible refine sound_hostDenied ?_
    | with_reducible refine sound_count ?_
    | with_reducible refine hg _ ?_

theorem sound_execJobAck {x0 : Nat} {x1 : Nat} {x2 : Option Nat} {x3 : State} (h3 : Sound q z x3.pending x3.sec.fuses x3.csr x3.mem x3.cyc) : SoundOut q z (execJobAck x0 x1 x2 x3) := by
  unfold execJobAck
  simp (maxDischargeDepth := 40) +contextual [*]

@[simp] theorem sound_keyLater {x0 : State} {x1 : Nat} {x2 : Option KeySlot} (h0 : Sound q z x0.pending x0.sec.fuses x0.csr x0.mem x0.cyc) : Sound q z (keyLater x0 x1 x2).pending (keyLater x0 x1 x2).sec.fuses (keyLater x0 x1 x2).csr (keyLater x0 x1 x2).mem (keyLater x0 x1 x2).cyc := by
  unfold keyLater
  simp (maxDischargeDepth := 40) +contextual [*]

theorem sound_execKeySlotClear {x0 : Nat} {x1 : State} (h1 : Sound q z x1.pending x1.sec.fuses x1.csr x1.mem x1.cyc) : SoundOut q z (execKeySlotClear x0 x1) := by
  unfold execKeySlotClear
  simp (maxDischargeDepth := 40) +contextual [*]

theorem sound_execKeySlotWrite {x0 : Nat} {x1 : State} (h1 : Sound q z x1.pending x1.sec.fuses x1.csr x1.mem x1.cyc) : SoundOut q z (execKeySlotWrite x0 x1) := by
  unfold execKeySlotWrite
  simp (maxDischargeDepth := 40) +contextual [*]

theorem sound_execKvRecvClose {x0 : Nat} {x1 : State} (h1 : Sound q z x1.pending x1.sec.fuses x1.csr x1.mem x1.cyc) : SoundOut q z (execKvRecvClose x0 x1) := by
  unfold execKvRecvClose
  simp (maxDischargeDepth := 40) +contextual [*]

@[simp] theorem sound_openRange {x0 : List Byte} {x1 : State} (h1 : Sound q z x1.pending x1.sec.fuses x1.csr x1.mem x1.cyc) : Sound q z (openRange x0 x1).1.pending (openRange x0 x1).1.sec.fuses (openRange x0 x1).1.csr (openRange x0 x1).1.mem (openRange x0 x1).1.cyc := by
  unfold openRange
  try dsimp only
  repeat' first
    | with_reducible assumption
    | with_reducible refine sound_ite ?_ ?_
    | with_reducible refine sound_foldl ?_ (fun _ _ _ => ?_)
    | with_reducible refine sound_useRun ?_
    | split

@[simp] theorem sound_recordOpen {x0 : Nat} {x1 : State} {x2 : State} (h1 : Sound q z x1.pending x1.sec.fuses x1.csr x1.mem x1.cyc) (h2 : Sound q z x2.pending x2.sec.fuses x2.csr x2.mem x2.cyc) : Sound q z (recordOpen x0 x1 x2).pending (recordOpen x0 x1 x2).sec.fuses (recordOpen x0 x1 x2).csr (recordOpen x0 x1 x2).mem (recordOpen x0 x1 x2).cyc := by
  unfold recordOpen
  simp (maxDischargeDepth := 40) +contextual [*]

theorem sound_execKvRecvOpen {x0 : Nat} {x1 : State} (h1 : Sound q z x1.pending x1.sec.fuses x1.csr x1.mem x1.cyc) : SoundOut q z (execKvRecvOpen x0 x1) := by
  unfold execKvRecvOpen
  simp (maxDischargeDepth := 40) +contextual [*]

theorem sound_rxDiscard {x0 : State} {x1 : Nat} {x2 : RxIn} {x3 : Nat} {x4 : Bool} {y : State} (h0 : Sound q z x0.pending x0.sec.fuses x0.csr x0.mem x0.cyc) (e : rxDiscard x0 x1 x2 x3 x4 = some y) : Sound q z y.pending y.sec.fuses y.csr y.mem y.cyc := by
  unfold rxDiscard at e
  dsimp only at e
  repeat' split at e
  all_goals first | (cases e; with_reducible exact sound_count h0) | cases e

@[simp] theorem sound_transitStuck {x0 : State} {x1 : Nat} {x2 : TransitHdr} (h0 : Sound q z x0.pending x0.sec.fuses x0.csr x0.mem x0.cyc) : Sound q z (transitStuck x0 x1 x2).pending (transitStuck x0 x1 x2).sec.fuses (transitStuck x0 x1 x2).csr (transitStuck x0 x1 x2).mem (transitStuck x0 x1 x2).cyc := by
  unfold transitStuck
  simp (maxDischargeDepth := 40) +contextual [*]

@[simp] theorem sound_transit {s : State} {l : Nat} {t : TransitHdr} (h : Sound q z s.pending s.sec.fuses s.csr s.mem s.cyc) : Sound q z (transit s l t).pending (transit s l t).sec.fuses (transit s l t).csr (transit s l t).mem (transit s l t).cyc := by
  unfold transit
  refine sound_ite h (sound_ite (sound_count h) (sound_ite (sound_count h) ?_))
  split
  · obtain ⟨k, _, e⟩ := Option.bind_eq_some_iff.mp ‹_›
    with_reducible exact sound_count (sound_sendFrom h e)
  · with_reducible exact sound_transitStuck h

@[simp] theorem sound_reqFrame {s : State} {l : Nat} {r : ReqHdr} {d : List Byte} {g : State → State} (h : Sound q z s.pending s.sec.fuses s.csr s.mem s.cyc)
    (hg : ∀ t, Sound q z t.pending t.sec.fuses t.csr t.mem t.cyc → Sound q z (g t).pending (g t).sec.fuses (g t).csr (g t).mem (g t).cyc) : Sound q z (reqFrame s l r d g).pending (reqFrame s l r d g).sec.fuses (reqFrame s l r d g).csr (reqFrame s l r d g).mem (reqFrame s l r d g).cyc := by
  unfold reqFrame
  refine sound_ite h ?_
  split
  · with_reducible exact sound_rxDiscard h ‹_›
  · with_reducible exact sound_ite (sound_count h) (sound_ite (sound_transit h) (hg _ h))

theorem sound_execKvxPartWrite {l : Nat} {r : ReqHdr} {d : List Byte} {s : State} (h : Sound q z s.pending s.sec.fuses s.csr s.mem s.cyc) : SoundOut q z (execKvxPartWrite l r d s) := by
  unfold execKvxPartWrite
  refine soundOut_next (sound_reqFrame h (fun t ht => ?_))
  dsimp only
  repeat' first
    | with_reducible assumption
    | with_reducible refine sound_ite ?_ ?_
    | with_reducible refine sound_respond10 ?_
    | with_reducible refine sound_denied ?_
    | with_reducible refine sound_readUe ?_
    | with_reducible refine sound_applyPart ?_
    | with_reducible refine sound_meshTo ?_ ‹_›
    | split

theorem sound_execLaneFail {x0 : Nat} {x1 : Nat} {x2 : State} (h2 : Sound q z x2.pending x2.sec.fuses x2.csr x2.mem x2.cyc) : SoundOut q z (execLaneFail x0 x1 x2) := by
  unfold execLaneFail
  simp (maxDischargeDepth := 40) +contextual [*]

theorem sound_execLinkAdmit {x0 : Nat} {x1 : State} (h1 : Sound q z x1.pending x1.sec.fuses x1.csr x1.mem x1.cyc) : SoundOut q z (execLinkAdmit x0 x1) := by
  unfold execLinkAdmit
  simp (maxDischargeDepth := 40) +contextual [*]

@[simp] theorem sound_notePulse {x0 : State} {x1 : Nat} (h0 : Sound q z x0.pending x0.sec.fuses x0.csr x0.mem x0.cyc) : Sound q z (notePulse x0 x1).pending (notePulse x0 x1).sec.fuses (notePulse x0 x1).csr (notePulse x0 x1).mem (notePulse x0 x1).cyc := by
  unfold notePulse
  simp (maxDischargeDepth := 40) +contextual [*]

@[simp] theorem sound_programColumn {x0 : State} {x1 : Nat} {x2 : Nat} {x3 : Nat} {x4 : Nat} (h0 : Sound q z x0.pending x0.sec.fuses x0.csr x0.mem x0.cyc) : Sound q z (programColumn x0 x1 x2 x3 x4).pending (programColumn x0 x1 x2 x3 x4).sec.fuses (programColumn x0 x1 x2 x3 x4).csr (programColumn x0 x1 x2 x3 x4).mem (programColumn x0 x1 x2 x3 x4).cyc := by
  unfold programColumn
  simp (maxDischargeDepth := 40) +contextual [*]

@[simp] theorem sound_failColumn {x0 : Nat} {x1 : State} {x2 : Nat} (h1 : Sound q z x1.pending x1.sec.fuses x1.csr x1.mem x1.cyc) : Sound q z (failColumn x0 x1 x2).pending (failColumn x0 x1 x2).sec.fuses (failColumn x0 x1 x2).csr (failColumn x0 x1 x2).mem (failColumn x0 x1 x2).cyc := by
  unfold failColumn
  try dsimp only
  repeat' first
    | with_reducible assumption
    | with_reducible refine sound_ite ?_ ?_
    | with_reducible refine sound_foldl ?_ (fun _ _ _ => ?_)
    | with_reducible refine sound_retireTile ?_
    | with_reducible refine sound_programColumn ?_
    | with_reducible refine sound_notePulse ?_
    | with_reducible refine sound_updTile ?_
    | with_reducible refine sound_writeRecord ?_
    | with_reducible refine sound_chargeWear ?_
    | split

@[simp] theorem sound_refColumn {x0 : Nat} {x1 : Nat} {x2 : State} {x3 : Nat} {x4 : Int} {x5 : Int} (h2 : Sound q z x2.pending x2.sec.fuses x2.csr x2.mem x2.cyc) : Sound q z (refColumn x0 x1 x2 x3 x4 x5).pending (refColumn x0 x1 x2 x3 x4 x5).sec.fuses (refColumn x0 x1 x2 x3 x4 x5).csr (refColumn x0 x1 x2 x3 x4 x5).mem (refColumn x0 x1 x2 x3 x4 x5).cyc := by
  unfold refColumn
  simp (maxDischargeDepth := 40) +contextual [*]

@[simp] theorem sound_refRowDone {x0 : State} {x1 : Nat} {x2 : List Int} {x3 : List Int} (h0 : Sound q z x0.pending x0.sec.fuses x0.csr x0.mem x0.cyc) : Sound q z (refRowDone x0 x1 x2 x3).pending (refRowDone x0 x1 x2 x3).sec.fuses (refRowDone x0 x1 x2 x3).csr (refRowDone x0 x1 x2 x3).mem (refRowDone x0 x1 x2 x3).cyc := by
  unfold refRowDone
  simp (maxDischargeDepth := 40) +contextual [*]

@[simp] theorem sound_readImage {x0 : State} {x1 : Nat} {x2 : Nat} (h0 : Sound q z x0.pending x0.sec.fuses x0.csr x0.mem x0.cyc) : Sound q z (readImage x0 x1 x2).pending (readImage x0 x1 x2).sec.fuses (readImage x0 x1 x2).csr (readImage x0 x1 x2).mem (readImage x0 x1 x2).cyc := by
  unfold readImage
  simp (maxDischargeDepth := 40) +contextual [*]

@[simp] theorem sound_programTile {x0 : State} {x1 : Nat} {x2 : Nat} (h0 : Sound q z x0.pending x0.sec.fuses x0.csr x0.mem x0.cyc) : Sound q z (programTile x0 x1 x2).pending (programTile x0 x1 x2).sec.fuses (programTile x0 x1 x2).csr (programTile x0 x1 x2).mem (programTile x0 x1 x2).cyc := by
  unfold programTile
  simp (maxDischargeDepth := 40) +contextual [*]

@[simp] theorem sound_refreshDone {x0 : State} {x1 : Nat} {x2 : Nat} {x3 : List Nat} (h0 : Sound q z x0.pending x0.sec.fuses x0.csr x0.mem x0.cyc) : Sound q z (refreshDone x0 x1 x2 x3).pending (refreshDone x0 x1 x2 x3).sec.fuses (refreshDone x0 x1 x2 x3).csr (refreshDone x0 x1 x2 x3).mem (refreshDone x0 x1 x2 x3).cyc := by
  unfold refreshDone
  simp (maxDischargeDepth := 40) +contextual [*]

@[simp] theorem sound_trimAttempt {x0 : State} {x1 : Nat} {x2 : Nat} {x3 : Int} {x4 : Int} {x5 : List Int} (h0 : Sound q z x0.pending x0.sec.fuses x0.csr x0.mem x0.cyc) : Sound q z (trimAttempt x0 x1 x2 x3 x4 x5).pending (trimAttempt x0 x1 x2 x3 x4 x5).sec.fuses (trimAttempt x0 x1 x2 x3 x4 x5).csr (trimAttempt x0 x1 x2 x3 x4 x5).mem (trimAttempt x0 x1 x2 x3 x4 x5).cyc := by
  unfold trimAttempt
  simp (maxDischargeDepth := 40) +contextual [*]

theorem sound_execMSlot {x0 : Nat} {x1 : Nat} {x2 : MWork} {x3 : State} (h3 : Sound q z x3.pending x3.sec.fuses x3.csr x3.mem x3.cyc) : SoundOut q z (execMSlot x0 x1 x2 x3) := by
  unfold execMSlot
  try dsimp only
  repeat' first
    | with_reducible assumption
    | with_reducible refine soundOut_next ?_
    | with_reducible refine soundOut_ite ?_ ?_
    | with_reducible refine sound_ite ?_ ?_
    | with_reducible refine sound_foldl ?_ (fun _ _ _ => ?_)
    | with_reducible refine sound_checkWait ?_
    | with_reducible refine sound_atSlot ?_
    | with_reducible refine sound_trimAttempt ?_
    | with_reducible refine sound_updTile ?_
    | with_reducible refine sound_notePulse ?_
    | with_reducible refine sound_setFld ?_
    | with_reducible refine sound_refreshDone ?_
    | with_reducible refine sound_refRowDone ?_
    | with_reducible refine sound_drivePlaneM ?_
    | split

theorem sound_execManagerAlive {x0 : Nat} {x1 : Nat} {x2 : Nat} {x3 : State} (h3 : Sound q z x3.pending x3.sec.fuses x3.csr x3.mem x3.cyc) : SoundOut q z (execManagerAlive x0 x1 x2 x3) := by
  unfold execManagerAlive
  simp (maxDischargeDepth := 40) +contextual [*]

theorem sound_execManagerAliveSend {x0 : State} (h0 : Sound q z x0.pending x0.sec.fuses x0.csr x0.mem x0.cyc) : SoundOut q z (execManagerAliveSend x0) := by
  unfold execManagerAliveSend
  try dsimp only
  repeat' first
    | with_reducible assumption
    | with_reducible refine soundOut_next ?_
    | with_reducible refine soundOut_ite ?_ ?_
    | with_reducible refine sound_ite ?_ ?_
    | with_reducible refine sound_foldl ?_ (fun _ _ _ => ?_)
    | with_reducible refine sound_sendCtrl ?_
    | split

@[simp] theorem sound_installMap {x0 : Nat} {x1 : List Byte} {x2 : Nat} {x3 : State} (h3 : Sound q z x3.pending x3.sec.fuses x3.csr x3.mem x3.cyc) : Sound q z (installMap x0 x1 x2 x3).pending (installMap x0 x1 x2 x3).sec.fuses (installMap x0 x1 x2 x3).csr (installMap x0 x1 x2 x3).mem (installMap x0 x1 x2 x3).cyc := by
  unfold installMap
  simp (maxDischargeDepth := 40) +contextual [*]

theorem sound_execMapInstall {x0 : Nat} {x1 : State} (h1 : Sound q z x1.pending x1.sec.fuses x1.csr x1.mem x1.cyc) : SoundOut q z (execMapInstall x0 x1) := by
  unfold execMapInstall
  simp (maxDischargeDepth := 40) +contextual [*]

theorem sound_execMapNotice {x0 : Nat} {x1 : Nat} {x2 : Nat} {x3 : Nat} {x4 : List Byte} {x5 : State} (h5 : Sound q z x5.pending x5.sec.fuses x5.csr x5.mem x5.cyc) : SoundOut q z (execMapNotice x0 x1 x2 x3 x4 x5) := by
  unfold execMapNotice
  simp (maxDischargeDepth := 40) +contextual [*]

@[simp] theorem sound_sendNotices {x0 : State} {x1 : TopoMap} (h0 : Sound q z x0.pending x0.sec.fuses x0.csr x0.mem x0.cyc) : Sound q z (sendNotices x0 x1).pending (sendNotices x0 x1).sec.fuses (sendNotices x0 x1).csr (sendNotices x0 x1).mem (sendNotices x0 x1).cyc := by
  unfold sendNotices
  simp (maxDischargeDepth := 40) +contextual [*]

theorem sound_execMapNoticeResend {x0 : State} (h0 : Sound q z x0.pending x0.sec.fuses x0.csr x0.mem x0.cyc) : SoundOut q z (execMapNoticeResend x0) := by
  unfold execMapNoticeResend
  try dsimp only
  repeat' first
    | with_reducible assumption
    | with_reducible refine soundOut_next ?_
    | with_reducible refine soundOut_ite ?_ ?_
    | with_reducible refine sound_ite ?_ ?_
    | with_reducible refine sound_foldl ?_ (fun _ _ _ => ?_)
    | with_reducible refine sound_sendNotices ?_
    | split

@[simp] theorem sound_mapTime {x0 : State} {x1 : TopoMap} (h0 : Sound q z x0.pending x0.sec.fuses x0.csr x0.mem x0.cyc) : Sound q z (mapTime x0 x1).pending (mapTime x0 x1).sec.fuses (mapTime x0 x1).csr (mapTime x0 x1).mem (mapTime x0 x1).cyc := by
  unfold mapTime
  simp (maxDischargeDepth := 40) +contextual [*]

@[simp] theorem sound_openLinks {x0 : State} (h0 : Sound q z x0.pending x0.sec.fuses x0.csr x0.mem x0.cyc) : Sound q z (openLinks x0).pending (openLinks x0).sec.fuses (openLinks x0).csr (openLinks x0).mem (openLinks x0).cyc := by
  unfold openLinks
  simp (maxDischargeDepth := 40) +contextual [*]

@[simp] theorem sound_restartChecks {x0 : State} (h0 : Sound q z x0.pending x0.sec.fuses x0.csr x0.mem x0.cyc) : Sound q z (restartChecks x0).pending (restartChecks x0).sec.fuses (restartChecks x0).csr (restartChecks x0).mem (restartChecks x0).cyc := by
  unfold restartChecks
  try dsimp only
  repeat' first
    | with_reducible assumption
    | with_reducible refine sound_ite ?_ ?_
    | with_reducible refine sound_foldl ?_ (fun _ _ _ => ?_)
    | with_reducible refine sound_updLnk ?_
    | with_reducible refine sound_setLink ?_
    | split

@[simp] theorem sound_takePosition {x0 : State} (h0 : Sound q z x0.pending x0.sec.fuses x0.csr x0.mem x0.cyc) : Sound q z (takePosition x0).pending (takePosition x0).sec.fuses (takePosition x0).csr (takePosition x0).mem (takePosition x0).cyc := by
  unfold takePosition
  try dsimp only
  repeat' first
    | with_reducible assumption
    | with_reducible refine sound_ite ?_ ?_
    | with_reducible refine sound_foldl ?_ (fun _ _ _ => ?_)
    | with_reducible refine sound_setFld ?_
    | split

theorem sound_execMapObey {x0 : State} (h0 : Sound q z x0.pending x0.sec.fuses x0.csr x0.mem x0.cyc) : SoundOut q z (execMapObey x0) := by
  unfold execMapObey
  try dsimp only
  repeat' first
    | with_reducible assumption
    | with_reducible refine soundOut_next ?_
    | with_reducible refine soundOut_ite ?_ ?_
    | with_reducible refine sound_ite ?_ ?_
    | with_reducible refine sound_foldl ?_ (fun _ _ _ => ?_)
    | with_reducible refine sound_setFld ?_
    | with_reducible refine sound_takePosition ?_
    | with_reducible refine sound_openLinks ?_
    | with_reducible refine sound_restartChecks ?_
    | with_reducible refine sound_joinCheck ?_
    | with_reducible refine sound_relockCheck ?_ ?_
    | with_reducible refine sound_mapTime ?_
    | with_reducible refine sound_finish ?_
    | with_reducible refine sound_prepareTakeover ?_
    | split

@[simp] theorem sound_publishMap {x0 : Nat} {x1 : List Byte} {x2 : Nat} {x3 : State} (h3 : Sound q z x3.pending x3.sec.fuses x3.csr x3.mem x3.cyc) : Sound q z (publishMap x0 x1 x2 x3).pending (publishMap x0 x1 x2 x3).sec.fuses (publishMap x0 x1 x2 x3).csr (publishMap x0 x1 x2 x3).mem (publishMap x0 x1 x2 x3).cyc := by
  unfold publishMap
  simp (maxDischargeDepth := 40) +contextual [*]

theorem sound_execMapPublish {x0 : Nat} {x1 : State} (h1 : Sound q z x1.pending x1.sec.fuses x1.csr x1.mem x1.cyc) : SoundOut q z (execMapPublish x0 x1) := by
  unfold execMapPublish
  simp (maxDischargeDepth := 40) +contextual [*]

@[simp] theorem sound_writeSignedMap {x0 : State} {x1 : TopoMap} (h0 : Sound q z x0.pending x0.sec.fuses x0.csr x0.mem x0.cyc) : Sound q z (writeSignedMap x0 x1).pending (writeSignedMap x0 x1).sec.fuses (writeSignedMap x0 x1).csr (writeSignedMap x0 x1).mem (writeSignedMap x0 x1).cyc := by
  unfold writeSignedMap
  simp (maxDischargeDepth := 40) +contextual [*]

theorem sound_execMapPublishSigned {x0 : State} (h0 : Sound q z x0.pending x0.sec.fuses x0.csr x0.mem x0.cyc) : SoundOut q z (execMapPublishSigned x0) := by
  unfold execMapPublishSigned
  try dsimp only
  repeat' first
    | with_reducible assumption
    | with_reducible refine soundOut_next ?_
    | with_reducible refine soundOut_ite ?_ ?_
    | with_reducible refine sound_ite ?_ ?_
    | with_reducible refine sound_foldl ?_ (fun _ _ _ => ?_)
    | with_reducible refine sound_finish ?_
    | with_reducible refine sound_awaitMap ?_
    | with_reducible refine sound_sendNotices ?_
    | with_reducible refine sound_writeSignedMap ?_
    | split

theorem sound_execMbxCmdWrite {x0 : Nat} {x1 : Nat} {x2 : List Byte} {x3 : Option Nat} {x4 : State} (h4 : Sound q z x4.pending x4.sec.fuses x4.csr x4.mem x4.cyc) : SoundOut q z (execMbxCmdWrite x0 x1 x2 x3 x4) := by
  unfold execMbxCmdWrite
  simp (maxDischargeDepth := 40) +contextual [*]

theorem sound_execMbxGo {x0 : Nat} {x1 : Option Nat} {x2 : State} (h2 : Sound q z x2.pending x2.sec.fuses x2.csr x2.mem x2.cyc) : SoundOut q z (execMbxGo x0 x1 x2) := by
  unfold execMbxGo
  simp (maxDischargeDepth := 40) +contextual [*]

@[simp] theorem sound_startMoves {x0 : State} {x1 : Nat} (h0 : Sound q z x0.pending x0.sec.fuses x0.csr x0.mem x0.cyc) : Sound q z (startMoves x0 x1).pending (startMoves x0 x1).sec.fuses (startMoves x0 x1).csr (startMoves x0 x1).mem (startMoves x0 x1).cyc := by
  unfold startMoves
  try dsimp only
  repeat' first
    | with_reducible assumption
    | with_reducible refine sound_ite ?_ ?_
    | with_reducible refine sound_foldl ?_ (fun _ _ _ => ?_)
    | with_reducible refine sound_updSide ?_
    | with_reducible refine sound_useFrame ?_
    | split

@[simp] theorem sound_updMove {x0 : State} {x1 : Nat} {x2 : Nat} {x3 : Migr → List Migr} (h0 : Sound q z x0.pending x0.sec.fuses x0.csr x0.mem x0.cyc) : Sound q z (updMove x0 x1 x2 x3).pending (updMove x0 x1 x2 x3).sec.fuses (updMove x0 x1 x2 x3).csr (updMove x0 x1 x2 x3).mem (updMove x0 x1 x2 x3).cyc := by
  unfold updMove
  simp (maxDischargeDepth := 40) +contextual [*]

theorem sound_execMigrationCopyDone {a b : Nat} {s : State} (h : Sound q z s.pending s.sec.fuses s.csr s.mem s.cyc) : SoundOut q z (execMigrationCopyDone a b s) := by
  unfold execMigrationCopyDone
  dsimp only
  split
  · exact h
  · repeat' first
      | with_reducible assumption
      | with_reducible refine soundOut_ite ?_ ?_
      | with_reducible refine soundOut_next ?_
      | with_reducible refine sound_ite ?_ ?_
      | with_reducible refine sound_readUe ?_
      | with_reducible refine sound_startMoves ?_
      | with_reducible refine sound_returnFrame ?_
      | with_reducible refine sound_updMove ?_
      | with_reducible refine sound_write ?_
      | with_reducible refine sound_foldl ?_ (fun _ _ _ => ?_)

theorem sound_execNettleRefDone {x0 : Nat} {x1 : State} (h1 : Sound q z x1.pending x1.sec.fuses x1.csr x1.mem x1.cyc) : SoundOut q z (execNettleRefDone x0 x1) := by
  unfold execNettleRefDone
  try dsimp only
  repeat' first
    | with_reducible assumption
    | with_reducible refine soundOut_next ?_
    | with_reducible refine soundOut_ite ?_ ?_
    | with_reducible refine sound_ite ?_ ?_
    | with_reducible refine sound_foldl ?_ (fun _ _ _ => ?_)
    | with_reducible refine sound_settle ?_
    | with_reducible refine sound_updTile ?_
    | split

theorem sound_execOldFrameReturn {x0 : Nat} {x1 : Nat} {x2 : State} (h2 : Sound q z x2.pending x2.sec.fuses x2.csr x2.mem x2.cyc) : SoundOut q z (execOldFrameReturn x0 x1 x2) := by
  unfold execOldFrameReturn
  try dsimp only
  repeat' first
    | with_reducible assumption
    | with_reducible refine soundOut_next ?_
    | with_reducible refine soundOut_ite ?_ ?_
    | with_reducible refine sound_ite ?_ ?_
    | with_reducible refine sound_foldl ?_ (fun _ _ _ => ?_)
    | with_reducible refine sound_startMoves ?_
    | with_reducible refine sound_returnFrame ?_
    | with_reducible refine sound_updMove ?_
    | split

@[simp] theorem sound_installPatch {x0 : Nat} {x1 : List Byte} {x2 : Nat} {x3 : State} (h3 : Sound q z x3.pending x3.sec.fuses x3.csr x3.mem x3.cyc) : Sound q z (installPatch x0 x1 x2 x3).pending (installPatch x0 x1 x2 x3).sec.fuses (installPatch x0 x1 x2 x3).csr (installPatch x0 x1 x2 x3).mem (installPatch x0 x1 x2 x3).cyc := by
  unfold installPatch
  simp (maxDischargeDepth := 40) +contextual [*]

theorem sound_execPatchInstall {x0 : Nat} {x1 : State} (h1 : Sound q z x1.pending x1.sec.fuses x1.csr x1.mem x1.cyc) : SoundOut q z (execPatchInstall x0 x1) := by
  unfold execPatchInstall
  simp (maxDischargeDepth := 40) +contextual [*]

theorem sound_execPatrolScrub {x0 : Nat} {x1 : Nat} {x2 : Nat} {x3 : State} (h3 : Sound q z x3.pending x3.sec.fuses x3.csr x3.mem x3.cyc) : SoundOut q z (execPatrolScrub x0 x1 x2 x3) := by
  unfold execPatrolScrub
  try dsimp only
  repeat' first
    | with_reducible assumption
    | with_reducible refine soundOut_next ?_
    | with_reducible refine soundOut_ite ?_ ?_
    | with_reducible refine sound_ite ?_ ?_
    | with_reducible refine sound_foldl ?_ (fun _ _ _ => ?_)
    | with_reducible refine sound_count ?_
    | with_reducible refine sound_readUe ?_
    | with_reducible refine sound_setFld ?_
    | split

theorem sound_execPcsAligned {x0 : Nat} {x1 : Nat} {x2 : Nat} {x3 : State} (h3 : Sound q z x3.pending x3.sec.fuses x3.csr x3.mem x3.cyc) : SoundOut q z (execPcsAligned x0 x1 x2 x3) := by
  unfold execPcsAligned
  simp (maxDischargeDepth := 40) +contextual [*]

theorem sound_execPdelayReqReceived {x0 : Nat} {x1 : PtpMsg} {x2 : State} (h2 : Sound q z x2.pending x2.sec.fuses x2.csr x2.mem x2.cyc) : SoundOut q z (execPdelayReqReceived x0 x1 x2) := by
  unfold execPdelayReqReceived
  simp (maxDischargeDepth := 40) +contextual [*]

theorem sound_execPdelayReqSend {x0 : Nat} {x1 : State} (h1 : Sound q z x1.pending x1.sec.fuses x1.csr x1.mem x1.cyc) : SoundOut q z (execPdelayReqSend x0 x1) := by
  unfold execPdelayReqSend
  simp (maxDischargeDepth := 40) +contextual [*]

@[simp] theorem sound_takeDelay {x0 : State} {x1 : Nat} {x2 : Int} (h0 : Sound q z x0.pending x0.sec.fuses x0.csr x0.mem x0.cyc) : Sound q z (takeDelay x0 x1 x2).pending (takeDelay x0 x1 x2).sec.fuses (takeDelay x0 x1 x2).csr (takeDelay x0 x1 x2).mem (takeDelay x0 x1 x2).cyc := by
  unfold takeDelay
  simp (maxDischargeDepth := 40) +contextual [*]

theorem sound_execPdelayRespFuReceived {x0 : Nat} {x1 : PtpMsg} {x2 : State} (h2 : Sound q z x2.pending x2.sec.fuses x2.csr x2.mem x2.cyc) : SoundOut q z (execPdelayRespFuReceived x0 x1 x2) := by
  unfold execPdelayRespFuReceived
  try dsimp only
  repeat' first
    | with_reducible assumption
    | with_reducible refine soundOut_next ?_
    | with_reducible refine soundOut_ite ?_ ?_
    | with_reducible refine sound_ite ?_ ?_
    | with_reducible refine sound_foldl ?_ (fun _ _ _ => ?_)
    | with_reducible refine sound_ptpDiscard ?_
    | with_reducible refine sound_takeDelay ?_
    | split

theorem sound_execPdelayRespReceived {x0 : Nat} {x1 : PtpMsg} {x2 : State} (h2 : Sound q z x2.pending x2.sec.fuses x2.csr x2.mem x2.cyc) : SoundOut q z (execPdelayRespReceived x0 x1 x2) := by
  unfold execPdelayRespReceived
  simp (maxDischargeDepth := 40) +contextual [*]

theorem sound_execPhyTrainTimeout {x0 : Nat} {x1 : State} (h1 : Sound q z x1.pending x1.sec.fuses x1.csr x1.mem x1.cyc) : SoundOut q z (execPhyTrainTimeout x0 x1) := by
  unfold execPhyTrainTimeout
  simp (maxDischargeDepth := 40) +contextual [*]

theorem sound_execPlacementWindowClose {x0 : Nat} {x1 : List Nat} {x2 : List (Nat × Nat)} {x3 : State} (h3 : Sound q z x3.pending x3.sec.fuses x3.csr x3.mem x3.cyc) : SoundOut q z (execPlacementWindowClose x0 x1 x2 x3) := by
  unfold execPlacementWindowClose
  simp (maxDischargeDepth := 40) +contextual [*]

theorem sound_execPmbAlert {x0 : State} (h0 : Sound q z x0.pending x0.sec.fuses x0.csr x0.mem x0.cyc) : SoundOut q z (execPmbAlert x0) := by
  unfold execPmbAlert
  simp (maxDischargeDepth := 40) +contextual [*]

theorem sound_execPowerCap {x0 : Nat} {x1 : State} (h1 : Sound q z x1.pending x1.sec.fuses x1.csr x1.mem x1.cyc) : SoundOut q z (execPowerCap x0 x1) := by
  unfold execPowerCap
  simp (maxDischargeDepth := 40) +contextual [*]

theorem sound_execPowerOnResetRelease {x0 : Nat} {x1 : State} (h1 : Sound q z x1.pending x1.sec.fuses x1.csr x1.mem x1.cyc) : SoundOut q z (execPowerOnResetRelease x0 x1) := by
  unfold execPowerOnResetRelease
  simp (maxDischargeDepth := 40) +contextual [*]

@[simp] theorem sound_programDone {x0 : State} {x1 : Nat} {x2 : Nat} {x3 : List Nat} (h0 : Sound q z x0.pending x0.sec.fuses x0.csr x0.mem x0.cyc) : Sound q z (programDone x0 x1 x2 x3).pending (programDone x0 x1 x2 x3).sec.fuses (programDone x0 x1 x2 x3).csr (programDone x0 x1 x2 x3).mem (programDone x0 x1 x2 x3).cyc := by
  unfold programDone
  simp (maxDischargeDepth := 40) +contextual [*]

@[simp] theorem sound_waveEnd {x0 : State} {x1 : Nat → Option (List Nat)} (h0 : Sound q z x0.pending x0.sec.fuses x0.csr x0.mem x0.cyc) : Sound q z (waveEnd x0 x1).pending (waveEnd x0 x1).sec.fuses (waveEnd x0 x1).csr (waveEnd x0 x1).mem (waveEnd x0 x1).cyc := by
  unfold waveEnd
  try dsimp only
  repeat' first
    | with_reducible assumption
    | with_reducible refine sound_ite ?_ ?_
    | with_reducible refine sound_foldl ?_ (fun _ _ _ => ?_)
    | with_reducible refine sound_programDone ?_
    | with_reducible refine sound_count ?_
    | with_reducible refine sound_retireTile ?_
    | with_reducible refine sound_runProgs ?_
    | with_reducible refine sound_beginWave ?_
    | with_reducible refine sound_setHead ?_
    | split

theorem sound_execProgWaveEnd {x0 : List ProgOutcome} {x1 : State} (h1 : Sound q z x1.pending x1.sec.fuses x1.csr x1.mem x1.cyc) : SoundOut q z (execProgWaveEnd x0 x1) := by
  unfold execProgWaveEnd
  simp (maxDischargeDepth := 40) +contextual [*]

theorem sound_execProgWaveTimeout {x0 : WaveTimeout} {x1 : State} (h1 : Sound q z x1.pending x1.sec.fuses x1.csr x1.mem x1.cyc) : SoundOut q z (execProgWaveTimeout x0 x1) := by
  unfold execProgWaveTimeout
  simp (maxDischargeDepth := 40) +contextual [*]

@[simp] theorem sound_protLater {x0 : State} {x1 : Nat} {x2 : Option (Nat × Nat)} (h0 : Sound q z x0.pending x0.sec.fuses x0.csr x0.mem x0.cyc) : Sound q z (protLater x0 x1 x2).pending (protLater x0 x1 x2).sec.fuses (protLater x0 x1 x2).csr (protLater x0 x1 x2).mem (protLater x0 x1 x2).cyc := by
  unfold protLater
  simp (maxDischargeDepth := 40) +contextual [*]

theorem sound_execProtectClear {x0 : Nat} {x1 : State} (h1 : Sound q z x1.pending x1.sec.fuses x1.csr x1.mem x1.cyc) : SoundOut q z (execProtectClear x0 x1) := by
  unfold execProtectClear
  simp (maxDischargeDepth := 40) +contextual [*]

theorem sound_execProtectSet {x0 : Nat} {x1 : State} (h1 : Sound q z x1.pending x1.sec.fuses x1.csr x1.mem x1.cyc) : SoundOut q z (execProtectSet x0 x1) := by
  unfold execProtectSet
  simp (maxDischargeDepth := 40) +contextual [*]

theorem sound_execRangeChange {x0 : Nat} {x1 : State} (h1 : Sound q z x1.pending x1.sec.fuses x1.csr x1.mem x1.cyc) : SoundOut q z (execRangeChange x0 x1) := by
  unfold execRangeChange
  try dsimp only
  repeat' first
    | with_reducible assumption
    | with_reducible refine soundOut_next ?_
    | with_reducible refine soundOut_ite ?_ ?_
    | with_reducible refine sound_ite ?_ ?_
    | with_reducible refine sound_foldl ?_ (fun _ _ _ => ?_)
    | with_reducible refine sound_updTile ?_
    | with_reducible refine sound_setFld ?_
    | split

theorem sound_execRangeWindowClose {n : Nat} {s : State} (h : Sound q z s.pending s.sec.fuses s.csr s.mem s.cyc) : SoundOut q z (execRangeWindowClose n s) := by
  unfold execRangeWindowClose
  dsimp only
  split
  · exact h
  · repeat' first
      | with_reducible assumption
      | with_reducible refine soundOut_ite ?_ ?_
      | with_reducible refine soundOut_next ?_
      | with_reducible refine sound_updTile ?_
      | with_reducible refine sound_setFld ?_

theorem sound_execReadClear {x0 : Nat} {x1 : State} (h1 : Sound q z x1.pending x1.sec.fuses x1.csr x1.mem x1.cyc) : SoundOut q z (execReadClear x0 x1) := by
  unfold execReadClear
  simp (maxDischargeDepth := 40) +contextual [*]

@[simp] theorem sound_refStart {x0 : Nat} {x1 : List Byte} {x2 : Nat} {x3 : State} (h3 : Sound q z x3.pending x3.sec.fuses x3.csr x3.mem x3.cyc) : Sound q z (refStart x0 x1 x2 x3).pending (refStart x0 x1 x2 x3).sec.fuses (refStart x0 x1 x2 x3).csr (refStart x0 x1 x2 x3).mem (refStart x0 x1 x2 x3).cyc := by
  unfold refStart
  simp (maxDischargeDepth := 40) +contextual [*]

theorem sound_execRefRun {x0 : Nat} {x1 : State} (h1 : Sound q z x1.pending x1.sec.fuses x1.csr x1.mem x1.cyc) : SoundOut q z (execRefRun x0 x1) := by
  unfold execRefRun
  simp (maxDischargeDepth := 40) +contextual [*]

theorem sound_execRefreshOverdue {x0 : Nat} {x1 : State} (h1 : Sound q z x1.pending x1.sec.fuses x1.csr x1.mem x1.cyc) : SoundOut q z (execRefreshOverdue x0 x1) := by
  unfold execRefreshOverdue
  simp (maxDischargeDepth := 40) +contextual [*]

theorem sound_execRefreshPending {x0 : Nat} {x1 : State} (h1 : Sound q z x1.pending x1.sec.fuses x1.csr x1.mem x1.cyc) : SoundOut q z (execRefreshPending x0 x1) := by
  unfold execRefreshPending
  simp (maxDischargeDepth := 40) +contextual [*]

theorem sound_execRegisterWrite {x0 : Nat} {x1 : Word} {x2 : State} (h2 : Sound q z x2.pending x2.sec.fuses x2.csr x2.mem x2.cyc) : SoundOut q z (execRegisterWrite x0 x1 x2) := by
  unfold execRegisterWrite
  simp (maxDischargeDepth := 40) +contextual [*]

theorem sound_execRejoin {x0 : Nat} {x1 : State} (h1 : Sound q z x1.pending x1.sec.fuses x1.csr x1.mem x1.cyc) : SoundOut q z (execRejoin x0 x1) := by
  unfold execRejoin
  simp (maxDischargeDepth := 40) +contextual [*]

@[simp] theorem sound_remoteStart {x0 : Nat} {x1 : List Byte} {x2 : Nat} {x3 : State} (h3 : Sound q z x3.pending x3.sec.fuses x3.csr x3.mem x3.cyc) : Sound q z (remoteStart x0 x1 x2 x3).pending (remoteStart x0 x1 x2 x3).sec.fuses (remoteStart x0 x1 x2 x3).csr (remoteStart x0 x1 x2 x3).mem (remoteStart x0 x1 x2 x3).cyc := by
  unfold remoteStart
  simp (maxDischargeDepth := 40) +contextual [*]

theorem sound_execRemoteOp {x0 : Nat} {x1 : State} (h1 : Sound q z x1.pending x1.sec.fuses x1.csr x1.mem x1.cyc) : SoundOut q z (execRemoteOp x0 x1) := by
  unfold execRemoteOp
  simp (maxDischargeDepth := 40) +contextual [*]

@[simp] theorem sound_reqWord {x0 : State} {x1 : Nat} {x2 : Nat} {x3 : ReqHdr} {x4 : List Byte} (h0 : Sound q z x0.pending x0.sec.fuses x0.csr x0.mem x0.cyc) : Sound q z (reqWord x0 x1 x2 x3 x4).pending (reqWord x0 x1 x2 x3 x4).sec.fuses (reqWord x0 x1 x2 x3 x4).csr (reqWord x0 x1 x2 x3 x4).mem (reqWord x0 x1 x2 x3 x4).cyc := by
  unfold reqWord
  simp (maxDischargeDepth := 40) +contextual [*]

theorem sound_execReqCas64 {x0 : Nat} {x1 : ReqHdr} {x2 : State} (h2 : Sound q z x2.pending x2.sec.fuses x2.csr x2.mem x2.cyc) : SoundOut q z (execReqCas64 x0 x1 x2) := by
  unfold execReqCas64
  simp (maxDischargeDepth := 40) +contextual [*]

@[simp] theorem sound_reqCopyKvx {s : State} {l o : Nat} {r : ReqHdr} (h : Sound q z s.pending s.sec.fuses s.csr s.mem s.cyc) :
    Sound q z (reqCopyKvx s l o r).pending (reqCopyKvx s l o r).sec.fuses (reqCopyKvx s l o r).csr (reqCopyKvx s l o r).mem (reqCopyKvx s l o r).cyc := by
  unfold reqCopyKvx
  refine sound_reqFrame h (fun t ht => ?_)
  repeat' first
    | with_reducible assumption
    | with_reducible refine sound_ite ?_ ?_
    | with_reducible refine sound_badOp ?_
    | with_reducible refine sound_startCopy ?_
    | with_reducible refine sound_respond10 ?_
    | with_reducible refine sound_copyRefused ?_ ‹_›
    | split

theorem sound_execReqCopy {x0 : Nat} {x1 : ReqHdr} {x2 : State} (h2 : Sound q z x2.pending x2.sec.fuses x2.csr x2.mem x2.cyc) : SoundOut q z (execReqCopy x0 x1 x2) := by
  unfold execReqCopy
  simp (maxDischargeDepth := 40) +contextual [*]

theorem sound_execReqFaa64 {x0 : Nat} {x1 : ReqHdr} {x2 : State} (h2 : Sound q z x2.pending x2.sec.fuses x2.csr x2.mem x2.cyc) : SoundOut q z (execReqFaa64 x0 x1 x2) := by
  unfold execReqFaa64
  simp (maxDischargeDepth := 40) +contextual [*]

theorem sound_execReqKvx {x0 : Nat} {x1 : ReqHdr} {x2 : State} (h2 : Sound q z x2.pending x2.sec.fuses x2.csr x2.mem x2.cyc) : SoundOut q z (execReqKvx x0 x1 x2) := by
  unfold execReqKvx
  simp (maxDischargeDepth := 40) +contextual [*]

theorem sound_execReqLoad {x0 : Nat} {x1 : ReqHdr} {x2 : State} (h2 : Sound q z x2.pending x2.sec.fuses x2.csr x2.mem x2.cyc) : SoundOut q z (execReqLoad x0 x1 x2) := by
  unfold execReqLoad
  simp (maxDischargeDepth := 40) +contextual [*]

theorem sound_execReqStore {x0 : Nat} {x1 : ReqHdr} {x2 : List Byte} {x3 : State} (h3 : Sound q z x3.pending x3.sec.fuses x3.csr x3.mem x3.cyc) : SoundOut q z (execReqStore x0 x1 x2 x3) := by
  unfold execReqStore
  simp (maxDischargeDepth := 40) +contextual [*]

theorem sound_execReqTimeout {x0 : Nat} {x1 : State} (h1 : Sound q z x1.pending x1.sec.fuses x1.csr x1.mem x1.cyc) : SoundOut q z (execReqTimeout x0 x1) := by
  unfold execReqTimeout
  try dsimp only
  repeat' first
    | with_reducible assumption
    | with_reducible refine soundOut_next ?_
    | with_reducible refine soundOut_ite ?_ ?_
    | with_reducible refine sound_ite ?_ ?_
    | with_reducible refine sound_foldl ?_ (fun _ _ _ => ?_)
    | with_reducible refine sound_pumpAll ?_
    | with_reducible refine sound_answerTag ?_
    | with_reducible refine sound_count ?_
    | split

theorem sound_execRerunCommit {x0 : Nat} {x1 : Nat} {x2 : Bool} {x3 : State} (h3 : Sound q z x3.pending x3.sec.fuses x3.csr x3.mem x3.cyc) : SoundOut q z (execRerunCommit x0 x1 x2 x3) := by
  unfold execRerunCommit
  try dsimp only
  repeat' first
    | with_reducible assumption
    | with_reducible refine soundOut_next ?_
    | with_reducible refine soundOut_ite ?_ ?_
    | with_reducible refine sound_ite ?_ ?_
    | with_reducible refine sound_foldl ?_ (fun _ _ _ => ?_)
    | with_reducible refine sound_atSlot ?_
    | with_reducible refine sound_count ?_
    | with_reducible refine sound_addLanes ?_
    | split

theorem sound_execResetNAssert {x0 : State} (h0 : Sound q z x0.pending x0.sec.fuses x0.csr x0.mem x0.cyc) : SoundOut q z (execResetNAssert x0) := by
  unfold execResetNAssert
  simp (maxDischargeDepth := 40) +contextual [*]

theorem sound_execResetNRelease {x0 : Nat} {x1 : State} (h1 : Sound q z x1.pending x1.sec.fuses x1.csr x1.mem x1.cyc) : SoundOut q z (execResetNRelease x0 x1) := by
  unfold execResetNRelease
  simp (maxDischargeDepth := 40) +contextual [*]

theorem sound_execRespFrame {x0 : Nat} {x1 : RespHdr} {x2 : List Byte} {x3 : State} (h3 : Sound q z x3.pending x3.sec.fuses x3.csr x3.mem x3.cyc) : SoundOut q z (execRespFrame x0 x1 x2 x3) := by
  unfold execRespFrame
  try dsimp only
  repeat' first
    | with_reducible assumption
    | with_reducible refine soundOut_next ?_
    | with_reducible refine soundOut_ite ?_ ?_
    | with_reducible refine sound_ite ?_ ?_
    | with_reducible refine sound_foldl ?_ (fun _ _ _ => ?_)
    | with_reducible refine sound_getD (fun _ e => sound_rxDiscard ?_ e) ?_
    | with_reducible refine sound_rxDiscard ?_ ‹_›
    | with_reducible refine sound_count ?_
    | with_reducible refine sound_pumpAll ?_
    | with_reducible refine sound_answerTag ?_
    | split

theorem sound_execRoceAck {x0 : Nat} {x1 : Nat} {x2 : State} (h2 : Sound q z x2.pending x2.sec.fuses x2.csr x2.mem x2.cyc) : SoundOut q z (execRoceAck x0 x1 x2) := by
  unfold execRoceAck
  simp (maxDischargeDepth := 40) +contextual [*]

@[simp] theorem sound_goBack {x0 : State} {x1 : Nat} (h0 : Sound q z x0.pending x0.sec.fuses x0.csr x0.mem x0.cyc) : Sound q z (goBack x0 x1).pending (goBack x0 x1).sec.fuses (goBack x0 x1).csr (goBack x0 x1).mem (goBack x0 x1).cyc := by
  unfold goBack
  try dsimp only
  repeat' first
    | with_reducible assumption
    | with_reducible refine sound_ite ?_ ?_
    | with_reducible refine sound_foldl ?_ (fun _ _ _ => ?_)
    | with_reducible refine sound_sendReads ?_
    | with_reducible refine sound_count ?_
    | split

@[simp] theorem sound_retryOrDrop {x0 : State} {x1 : Nat} (h0 : Sound q z x0.pending x0.sec.fuses x0.csr x0.mem x0.cyc) : Sound q z (retryOrDrop x0 x1).pending (retryOrDrop x0 x1).sec.fuses (retryOrDrop x0 x1).csr (retryOrDrop x0 x1).mem (retryOrDrop x0 x1).cyc := by
  unfold retryOrDrop
  try dsimp only
  repeat' first
    | with_reducible assumption
    | with_reducible refine sound_ite ?_ ?_
    | with_reducible refine sound_foldl ?_ (fun _ _ _ => ?_)
    | with_reducible refine sound_goBack ?_
    | with_reducible refine sound_count ?_
    | with_reducible refine sound_endFetch ?_
    | with_reducible refine sound_sendReads ?_
    | split

theorem sound_execRoceNak {x0 : Nat} {x1 : Nat} {x2 : State} (h2 : Sound q z x2.pending x2.sec.fuses x2.csr x2.mem x2.cyc) : SoundOut q z (execRoceNak x0 x1 x2) := by
  unfold execRoceNak
  try dsimp only
  repeat' first
    | with_reducible assumption
    | with_reducible refine soundOut_next ?_
    | with_reducible refine soundOut_ite ?_ ?_
    | with_reducible refine sound_ite ?_ ?_
    | with_reducible refine sound_foldl ?_ (fun _ _ _ => ?_)
    | with_reducible refine sound_afterFetch ?_
    | with_reducible refine sound_retryOrDrop ?_
    | split

@[simp] theorem sound_updFetch {x0 : State} {x1 : Fetch → Fetch} (h0 : Sound q z x0.pending x0.sec.fuses x0.csr x0.mem x0.cyc) : Sound q z (updFetch x0 x1).pending (updFetch x0 x1).sec.fuses (updFetch x0 x1).csr (updFetch x0 x1).mem (updFetch x0 x1).cyc := by
  unfold updFetch
  simp (maxDischargeDepth := 40) +contextual [*]

@[simp] theorem sound_objFailed {x0 : State} {x1 : Fetch} {x2 : Nat} {x3 : Obj} (h0 : Sound q z x0.pending x0.sec.fuses x0.csr x0.mem x0.cyc) : Sound q z (objFailed x0 x1 x2 x3).pending (objFailed x0 x1 x2 x3).sec.fuses (objFailed x0 x1 x2 x3).csr (objFailed x0 x1 x2 x3).mem (objFailed x0 x1 x2 x3).cyc := by
  unfold objFailed
  simp (maxDischargeDepth := 40) +contextual [*]

@[simp] theorem sound_objPassed {x0 : State} {x1 : Fetch} {x2 : Nat} {x3 : Obj} (h0 : Sound q z x0.pending x0.sec.fuses x0.csr x0.mem x0.cyc) : Sound q z (objPassed x0 x1 x2 x3).pending (objPassed x0 x1 x2 x3).sec.fuses (objPassed x0 x1 x2 x3).csr (objPassed x0 x1 x2 x3).mem (objPassed x0 x1 x2 x3).cyc := by
  unfold objPassed
  simp (maxDischargeDepth := 40) +contextual [*]

@[simp] theorem sound_objLanded {x0 : State} {x1 : Fetch} {x2 : Nat} {x3 : Obj} (h0 : Sound q z x0.pending x0.sec.fuses x0.csr x0.mem x0.cyc) : Sound q z (objLanded x0 x1 x2 x3).pending (objLanded x0 x1 x2 x3).sec.fuses (objLanded x0 x1 x2 x3).csr (objLanded x0 x1 x2 x3).mem (objLanded x0 x1 x2 x3).cyc := by
  unfold objLanded
  try dsimp only
  repeat' first
    | with_reducible assumption
    | with_reducible refine sound_ite ?_ ?_
    | with_reducible refine sound_foldl ?_ (fun _ _ _ => ?_)
    | with_reducible refine sound_sendReads ?_
    | with_reducible refine sound_updFetch ?_
    | with_reducible refine sound_endFetch ?_
    | with_reducible refine sound_sigFail ?_
    | with_reducible refine sound_fetchCheckEnd ?_
    | with_reducible refine sound_objPassed ?_
    | with_reducible refine sound_objFailed ?_
    | split

@[simp] theorem sound_landData {x0 : State} {x1 : Nat} {x2 : Nat} {x3 : List Byte} (h0 : Sound q z x0.pending x0.sec.fuses x0.csr x0.mem x0.cyc) : Sound q z (landData x0 x1 x2 x3).pending (landData x0 x1 x2 x3).sec.fuses (landData x0 x1 x2 x3).csr (landData x0 x1 x2 x3).mem (landData x0 x1 x2 x3).cyc := by
  unfold landData
  try dsimp only
  repeat' first
    | with_reducible assumption
    | with_reducible refine sound_ite ?_ ?_
    | with_reducible refine sound_foldl ?_ (fun _ _ _ => ?_)
    | with_reducible refine sound_count ?_
    | with_reducible refine sound_write ?_
    | with_reducible refine sound_objLanded ?_
    | with_reducible refine sound_sendReads ?_
    | split

theorem sound_execRoceReadResponse {x0 : Nat} {x1 : Nat} {x2 : List Byte} {x3 : State} (h3 : Sound q z x3.pending x3.sec.fuses x3.csr x3.mem x3.cyc) : SoundOut q z (execRoceReadResponse x0 x1 x2 x3) := by
  unfold execRoceReadResponse
  simp (maxDischargeDepth := 40) +contextual [*]

theorem sound_execRoceTimeout {x0 : Nat} {x1 : State} (h1 : Sound q z x1.pending x1.sec.fuses x1.csr x1.mem x1.cyc) : SoundOut q z (execRoceTimeout x0 x1) := by
  unfold execRoceTimeout
  simp (maxDischargeDepth := 40) +contextual [*]

theorem sound_execRomBootDone {x0 : State} (h0 : Sound q z x0.pending x0.sec.fuses x0.csr x0.mem x0.cyc) : SoundOut q z (execRomBootDone x0) := by
  unfold execRomBootDone
  simp (maxDischargeDepth := 40) +contextual [*]

@[simp] theorem sound_lateRead {x0 : State} {x1 : Nat} {x2 : Nat} {x3 : Option Nat} (h0 : Sound q z x0.pending x0.sec.fuses x0.csr x0.mem x0.cyc) : Sound q z (lateRead x0 x1 x2 x3).pending (lateRead x0 x1 x2 x3).sec.fuses (lateRead x0 x1 x2 x3).csr (lateRead x0 x1 x2 x3).mem (lateRead x0 x1 x2 x3).cyc := by
  unfold lateRead
  try dsimp only
  repeat' first
    | with_reducible assumption
    | with_reducible refine sound_ite ?_ ?_
    | with_reducible refine sound_foldl ?_ (fun _ _ _ => ?_)
    | with_reducible refine sound_hbmLate ?_
    | split

@[simp] theorem sound_hbmInput {x0 : State} {x1 : Nat} {x2 : Nat} {x3 : Nat} (h0 : Sound q z x0.pending x0.sec.fuses x0.csr x0.mem x0.cyc) : Sound q z (hbmInput x0 x1 x2 x3).1.pending (hbmInput x0 x1 x2 x3).1.sec.fuses (hbmInput x0 x1 x2 x3).1.csr (hbmInput x0 x1 x2 x3).1.mem (hbmInput x0 x1 x2 x3).1.cyc := by
  unfold hbmInput
  try dsimp only
  repeat' first
    | with_reducible assumption
    | with_reducible refine sound_ite ?_ ?_
    | with_reducible refine sound_foldl ?_ (fun _ _ _ => ?_)
    | with_reducible refine sound_updSide ?_
    | split

@[simp] theorem sound_localInput {x0 : State} {x1 : Nat} {x2 : Nat} (h0 : Sound q z x0.pending x0.sec.fuses x0.csr x0.mem x0.cyc) : Sound q z (localInput x0 x1 x2).1.pending (localInput x0 x1 x2).1.sec.fuses (localInput x0 x1 x2).1.csr (localInput x0 x1 x2).1.mem (localInput x0 x1 x2).1.cyc := by
  unfold localInput
  try dsimp only
  repeat' first
    | with_reducible assumption
    | with_reducible refine sound_ite ?_ ?_
    | with_reducible refine sound_foldl ?_ (fun _ _ _ => ?_)
    | with_reducible refine sound_getD (fun _ e => sound_sramFault ?_ e) ?_
    | with_reducible refine sound_sramFault ?_ ‹_›
    | with_reducible refine sound_nettleOnly ?_
    | with_reducible refine sound_lateField ?_
    | with_reducible refine sound_formH ?_
    | split

@[simp] theorem sound_meshInput {x0 : State} {x1 : Nat} {x2 : Nat} {x3 : Nat} (h0 : Sound q z x0.pending x0.sec.fuses x0.csr x0.mem x0.cyc) : Sound q z (meshInput x0 x1 x2 x3).1.pending (meshInput x0 x1 x2 x3).1.sec.fuses (meshInput x0 x1 x2 x3).1.csr (meshInput x0 x1 x2 x3).1.mem (meshInput x0 x1 x2 x3).1.cyc := by
  unfold meshInput
  try dsimp only
  repeat' first
    | with_reducible assumption
    | with_reducible refine sound_ite ?_ ?_
    | with_reducible refine sound_foldl ?_ (fun _ _ _ => ?_)
    | with_reducible refine sound_pair ?_
    | with_reducible refine sound_fst_ite ?_ ?_
    | split

@[simp] theorem sound_nextFrame {x0 : State} (h0 : Sound q z x0.pending x0.sec.fuses x0.csr x0.mem x0.cyc) : Sound q z (nextFrame x0).pending (nextFrame x0).sec.fuses (nextFrame x0).csr (nextFrame x0).mem (nextFrame x0).cyc := by
  unfold nextFrame
  simp (maxDischargeDepth := 40) +contextual [*]

@[simp] theorem sound_markBuf {x0 : State} {x1 : Nat} {x2 : Nat} {x3 : Bool} (h0 : Sound q z x0.pending x0.sec.fuses x0.csr x0.mem x0.cyc) : Sound q z (markBuf x0 x1 x2 x3).pending (markBuf x0 x1 x2 x3).sec.fuses (markBuf x0 x1 x2 x3).csr (markBuf x0 x1 x2 x3).mem (markBuf x0 x1 x2 x3).cyc := by
  unfold markBuf
  simp (maxDischargeDepth := 40) +contextual [*]

@[simp] theorem sound_setBuf {x0 : State} {x1 : Nat} {x2 : Option Buf} (h0 : Sound q z x0.pending x0.sec.fuses x0.csr x0.mem x0.cyc) : Sound q z (setBuf x0 x1 x2).pending (setBuf x0 x1 x2).sec.fuses (setBuf x0 x1 x2).csr (setBuf x0 x1 x2).mem (setBuf x0 x1 x2).cyc := by
  unfold setBuf
  simp (maxDischargeDepth := 40) +contextual [*]

@[simp] theorem sound_stationInput {s : State} {f n e : Nat} (h : Sound q z s.pending s.sec.fuses s.csr s.mem s.cyc) : Sound q z (stationInput s f n e).1.pending (stationInput s f n e).1.sec.fuses (stationInput s f n e).1.csr (stationInput s f n e).1.mem (stationInput s f n e).1.cyc := by
  unfold stationInput
  extract_lets
  split
  · with_reducible exact sound_setBuf h
  · split
    · exact h
    · with_reducible exact sound_markBuf (sound_count h)

@[simp] theorem sound_routerInput {x0 : State} {x1 : Nat} {x2 : Nat} (h0 : Sound q z x0.pending x0.sec.fuses x0.csr x0.mem x0.cyc) : Sound q z (routerInput x0 x1 x2).1.pending (routerInput x0 x1 x2).1.sec.fuses (routerInput x0 x1 x2).1.csr (routerInput x0 x1 x2).1.mem (routerInput x0 x1 x2).1.cyc := by
  unfold routerInput
  try dsimp only
  repeat' first
    | with_reducible assumption
    | with_reducible refine sound_ite ?_ ?_
    | with_reducible refine sound_foldl ?_ (fun _ _ _ => ?_)
    | with_reducible refine sound_meshInput ?_
    | with_reducible refine sound_localInput ?_
    | with_reducible refine sound_hbmInput ?_
    | with_reducible refine sound_stationInput ?_
    | split

theorem sound_execRouterEntry {x0 : Nat} {x1 : EntryRun} {x2 : State} (h2 : Sound q z x2.pending x2.sec.fuses x2.csr x2.mem x2.cyc) : SoundOut q z (execRouterEntry x0 x1 x2) := by
  unfold execRouterEntry
  try dsimp only
  repeat' first
    | with_reducible assumption
    | with_reducible refine soundOut_next ?_
    | with_reducible refine soundOut_ite ?_ ?_
    | with_reducible refine sound_ite ?_ ?_
    | with_reducible refine sound_foldl ?_ (fun _ _ _ => ?_)
    | with_reducible refine sound_atCycle ?_
    | with_reducible refine sound_routerInput ?_
    | with_reducible refine sound_lateRead ?_
    | with_reducible refine sound_deliver ?_
    | split

theorem sound_execRouterLost {x0 : Nat} {x1 : Nat} {x2 : State} (h2 : Sound q z x2.pending x2.sec.fuses x2.csr x2.mem x2.cyc) : SoundOut q z (execRouterLost x0 x1 x2) := by
  unfold execRouterLost
  simp (maxDischargeDepth := 40) +contextual [*]

theorem sound_execSSlotDrive {x0 : Nat} {x1 : Nat} {x2 : List Int} {x3 : State} (h3 : Sound q z x3.pending x3.sec.fuses x3.csr x3.mem x3.cyc) : SoundOut q z (execSSlotDrive x0 x1 x2 x3) := by
  unfold execSSlotDrive
  try dsimp only
  repeat' first
    | with_reducible assumption
    | with_reducible refine soundOut_next ?_
    | with_reducible refine soundOut_ite ?_ ?_
    | with_reducible refine sound_ite ?_ ?_
    | with_reducible refine sound_foldl ?_ (fun _ _ _ => ?_)
    | with_reducible refine sound_atSlot ?_
    | with_reducible refine sound_fieldDown ?_
    | with_reducible refine sound_updTile ?_
    | with_reducible refine sound_failStep ?_
    | with_reducible refine sound_count ?_
    | with_reducible refine sound_drivePart ?_
    | split

theorem sound_execSampledCheckStart {x0 : State} (h0 : Sound q z x0.pending x0.sec.fuses x0.csr x0.mem x0.cyc) : SoundOut q z (execSampledCheckStart x0) := by
  unfold execSampledCheckStart
  simp (maxDischargeDepth := 40) +contextual [*]

theorem sound_execSchedFrame {x0 : Nat} {x1 : Nat} {x2 : SchedFrame} {x3 : State} (h3 : Sound q z x3.pending x3.sec.fuses x3.csr x3.mem x3.cyc) : SoundOut q z (execSchedFrame x0 x1 x2 x3) := by
  unfold execSchedFrame
  try dsimp only
  repeat' first
    | with_reducible assumption
    | with_reducible refine soundOut_next ?_
    | with_reducible refine soundOut_ite ?_ ?_
    | with_reducible refine sound_ite ?_ ?_
    | with_reducible refine sound_foldl ?_ (fun _ _ _ => ?_)
    | with_reducible refine sound_getD (fun _ e => sound_rxDiscard ?_ e) ?_
    | with_reducible refine sound_rxDiscard ?_ ‹_›
    | with_reducible refine sound_updLnk ?_
    | with_reducible refine sound_atSlot ?_
    | with_reducible refine sound_count ?_
    | with_reducible refine sound_dropCounted ?_
    | with_reducible refine sound_markBuf ?_
    | with_reducible refine sound_nextFrame ?_
    | with_reducible refine sound_setBuf ?_
    | split

theorem sound_execSchedInstall {x0 : Nat} {x1 : State} (h1 : Sound q z x1.pending x1.sec.fuses x1.csr x1.mem x1.cyc) : SoundOut q z (execSchedInstall x0 x1) := by
  unfold execSchedInstall
  simp (maxDischargeDepth := 40) +contextual [*]

theorem sound_execSensorFastRead {x0 : Nat} {x1 : Option Int} {x2 : State} (h2 : Sound q z x2.pending x2.sec.fuses x2.csr x2.mem x2.cyc) : SoundOut q z (execSensorFastRead x0 x1 x2) := by
  unfold execSensorFastRead
  simp (maxDischargeDepth := 40) +contextual [*]

theorem sound_execSeqCancel {x0 : Nat} {x1 : State} (h1 : Sound q z x1.pending x1.sec.fuses x1.csr x1.mem x1.cyc) : SoundOut q z (execSeqCancel x0 x1) := by
  unfold execSeqCancel
  simp (maxDischargeDepth := 40) +contextual [*]

theorem sound_execSeqCommit {x0 : State} (h0 : Sound q z x0.pending x0.sec.fuses x0.csr x0.mem x0.cyc) : SoundOut q z (execSeqCommit x0) := by
  unfold execSeqCommit
  try dsimp only
  repeat' first
    | with_reducible assumption
    | with_reducible refine soundOut_next ?_
    | with_reducible refine soundOut_ite ?_ ?_
    | with_reducible refine sound_ite ?_ ?_
    | with_reducible refine sound_foldl ?_ (fun _ _ _ => ?_)
    | with_reducible refine sound_commitStep ?_
    | split

theorem sound_execSeqNotify {x0 : Nat} {x1 : State} (h1 : Sound q z x1.pending x1.sec.fuses x1.csr x1.mem x1.cyc) : SoundOut q z (execSeqNotify x0 x1) := by
  unfold execSeqNotify
  simp (maxDischargeDepth := 40) +contextual [*]

theorem sound_execSeqPause {x0 : Nat} {x1 : State} (h1 : Sound q z x1.pending x1.sec.fuses x1.csr x1.mem x1.cyc) : SoundOut q z (execSeqPause x0 x1) := by
  unfold execSeqPause
  simp (maxDischargeDepth := 40) +contextual [*]

theorem sound_execSeqRead {x0 : Nat} {x1 : State} (h1 : Sound q z x1.pending x1.sec.fuses x1.csr x1.mem x1.cyc) : SoundOut q z (execSeqRead x0 x1) := by
  unfold execSeqRead
  simp (maxDischargeDepth := 40) +contextual [*]

theorem sound_execSeqResume {m : Nat} {s : State} (h : Sound q z s.pending s.sec.fuses s.csr s.mem s.cyc) : SoundOut q z (execSeqResume m s) := by
  unfold execSeqResume
  refine soundOut_next (sound_takeCommand (soundAct_now (fun a t ht => ?_)) h)
  extract_lets
  repeat' first
    | with_reducible assumption
    | with_reducible refine sound_fst_ite ?_ ?_
    | with_reducible refine sound_pair ?_
    | with_reducible refine sound_pumpAll ?_
    | with_reducible refine sound_resumeCheck ?_
    | with_reducible refine sound_unparkSeq ?_
    | with_reducible refine sound_updSeq ?_
    | with_reducible refine sound_ite ?_ ?_
    | extract_lets

@[simp] theorem sound_parkForCap {x0 : State} {x1 : Nat} (h0 : Sound q z x0.pending x0.sec.fuses x0.csr x0.mem x0.cyc) : Sound q z (parkForCap x0 x1).pending (parkForCap x0 x1).sec.fuses (parkForCap x0 x1).csr (parkForCap x0 x1).mem (parkForCap x0 x1).cyc := by
  unfold parkForCap
  simp (maxDischargeDepth := 40) +contextual [*]

@[simp] theorem sound_submit {x0 : Nat} {x1 : List Byte} {x2 : Nat} {x3 : State} (h3 : Sound q z x3.pending x3.sec.fuses x3.csr x3.mem x3.cyc) : Sound q z (submit x0 x1 x2 x3).pending (submit x0 x1 x2 x3).sec.fuses (submit x0 x1 x2 x3).csr (submit x0 x1 x2 x3).mem (submit x0 x1 x2 x3).cyc := by
  unfold submit
  simp (maxDischargeDepth := 40) +contextual [*]

theorem sound_execSeqSubmit {x0 : Nat} {x1 : State} (h1 : Sound q z x1.pending x1.sec.fuses x1.csr x1.mem x1.cyc) : SoundOut q z (execSeqSubmit x0 x1) := by
  unfold execSeqSubmit
  simp (maxDischargeDepth := 40) +contextual [*]

theorem sound_execServeBegin {x0 : State} (h0 : Sound q z x0.pending x0.sec.fuses x0.csr x0.mem x0.cyc) : SoundOut q z (execServeBegin x0) := by
  unfold execServeBegin
  try dsimp only
  repeat' first
    | with_reducible assumption
    | with_reducible refine soundOut_next ?_
    | with_reducible refine soundOut_ite ?_ ?_
    | with_reducible refine sound_ite ?_ ?_
    | with_reducible refine sound_foldl ?_ (fun _ _ _ => ?_)
    | with_reducible refine sound_enterState ?_
    | with_reducible refine sound_beginFiring ?_
    | split

theorem sound_execServeStart {x0 : Nat} {x1 : State} (h1 : Sound q z x1.pending x1.sec.fuses x1.csr x1.mem x1.cyc) : SoundOut q z (execServeStart x0 x1) := by
  unfold execServeStart
  simp (maxDischargeDepth := 40) +contextual [*]

theorem sound_execServiceClear {x0 : Nat} {x1 : State} (h1 : Sound q z x1.pending x1.sec.fuses x1.csr x1.mem x1.cyc) : SoundOut q z (execServiceClear x0 x1) := by
  unfold execServiceClear
  simp (maxDischargeDepth := 40) +contextual [*]

theorem sound_execSetDieId {x0 : Nat} {x1 : State} (h1 : Sound q z x1.pending x1.sec.fuses x1.csr x1.mem x1.cyc) : SoundOut q z (execSetDieId x0 x1) := by
  unfold execSetDieId
  simp (maxDischargeDepth := 40) +contextual [*]

theorem sound_execSetRole {x0 : Nat} {x1 : State} (h1 : Sound q z x1.pending x1.sec.fuses x1.csr x1.mem x1.cyc) : SoundOut q z (execSetRole x0 x1) := by
  unfold execSetRole
  simp (maxDischargeDepth := 40) +contextual [*]

theorem sound_execShardActivate {x0 : Nat} {x1 : State} (h1 : Sound q z x1.pending x1.sec.fuses x1.csr x1.mem x1.cyc) : SoundOut q z (execShardActivate x0 x1) := by
  unfold execShardActivate
  simp (maxDischargeDepth := 40) +contextual [*]

@[simp] theorem sound_startFetch {x0 : State} {x1 : Nat × Nat} {x2 : List Src} (h0 : Sound q z x0.pending x0.sec.fuses x0.csr x0.mem x0.cyc) : Sound q z (startFetch x0 x1 x2).pending (startFetch x0 x1 x2).sec.fuses (startFetch x0 x1 x2).csr (startFetch x0 x1 x2).mem (startFetch x0 x1 x2).cyc := by
  unfold startFetch
  simp (maxDischargeDepth := 40) +contextual [*]

@[simp] theorem sound_withSources {m k : Nat} {a : List Byte} {s : State} {g : State → List Src → State} (h : Sound q z s.pending s.sec.fuses s.csr s.mem s.cyc)
    (hg : ∀ t l, Sound q z t.pending t.sec.fuses t.csr t.mem t.cyc → Sound q z (g t l).pending (g t l).sec.fuses (g t l).csr (g t l).mem (g t l).cyc) : Sound q z (withSources m a k s g).pending (withSources m a k s g).sec.fuses (withSources m a k s g).csr (withSources m a k s g).mem (withSources m a k s g).cyc := by
  unfold withSources
  exact sound_ite (sound_jobDone (sound_readUe h)) (hg _ _ h)

theorem sound_execShardFetch {x0 : Nat} {x1 : State} (h1 : Sound q z x1.pending x1.sec.fuses x1.csr x1.mem x1.cyc) : SoundOut q z (execShardFetch x0 x1) := by
  unfold execShardFetch
  simp (maxDischargeDepth := 40) +contextual [*]

theorem sound_execShardProgram {x0 : Nat} {x1 : State} (h1 : Sound q z x1.pending x1.sec.fuses x1.csr x1.mem x1.cyc) : SoundOut q z (execShardProgram x0 x1) := by
  unfold execShardProgram
  simp (maxDischargeDepth := 40) +contextual [*]

theorem sound_execShardRedigest {x0 : State} (h0 : Sound q z x0.pending x0.sec.fuses x0.csr x0.mem x0.cyc) : SoundOut q z (execShardRedigest x0) := by
  unfold execShardRedigest
  simp (maxDischargeDepth := 40) +contextual [*]

theorem sound_execShardRepair {x0 : Nat} {x1 : State} (h1 : Sound q z x1.pending x1.sec.fuses x1.csr x1.mem x1.cyc) : SoundOut q z (execShardRepair x0 x1) := by
  unfold execShardRepair
  simp (maxDischargeDepth := 40) +contextual [*]

theorem sound_execShedReport {x0 : Nat} {x1 : Nat} {x2 : Nat} {x3 : Nat} {x4 : State} (h4 : Sound q z x4.pending x4.sec.fuses x4.csr x4.mem x4.cyc) : SoundOut q z (execShedReport x0 x1 x2 x3 x4) := by
  unfold execShedReport
  simp (maxDischargeDepth := 40) +contextual [*]

@[simp] theorem sound_nextPass {x0 : State} (h0 : Sound q z x0.pending x0.sec.fuses x0.csr x0.mem x0.cyc) : Sound q z (nextPass x0).pending (nextPass x0).sec.fuses (nextPass x0).csr (nextPass x0).mem (nextPass x0).cyc := by
  unfold nextPass
  simp (maxDischargeDepth := 40) +contextual [*]

@[simp] theorem sound_passRegs {x0 : State} (h0 : Sound q z x0.pending x0.sec.fuses x0.csr x0.mem x0.cyc) : Sound q z (passRegs x0).pending (passRegs x0).sec.fuses (passRegs x0).csr (passRegs x0).mem (passRegs x0).cyc := by
  unfold passRegs
  simp (maxDischargeDepth := 40) +contextual [*]

@[simp] theorem sound_waitsMove {x0 : State} (h0 : Sound q z x0.pending x0.sec.fuses x0.csr x0.mem x0.cyc) : Sound q z (waitsMove x0).pending (waitsMove x0).sec.fuses (waitsMove x0).csr (waitsMove x0).mem (waitsMove x0).cyc := by
  unfold waitsMove
  simp (maxDischargeDepth := 40) +contextual [*]

theorem sound_execSpeedwellPassEnd {x0 : State} (h0 : Sound q z x0.pending x0.sec.fuses x0.csr x0.mem x0.cyc) : SoundOut q z (execSpeedwellPassEnd x0) := by
  unfold execSpeedwellPassEnd
  simp (maxDischargeDepth := 40) +contextual [*]

theorem sound_execStandbyTakeover {x0 : State} (h0 : Sound q z x0.pending x0.sec.fuses x0.csr x0.mem x0.cyc) : SoundOut q z (execStandbyTakeover x0) := by
  unfold execStandbyTakeover
  try dsimp only
  repeat' first
    | with_reducible assumption
    | with_reducible refine soundOut_next ?_
    | with_reducible refine soundOut_ite ?_ ?_
    | with_reducible refine sound_ite ?_ ?_
    | with_reducible refine sound_foldl ?_ (fun _ _ _ => ?_)
    | with_reducible refine sound_awaitMap ?_
    | with_reducible refine sound_sendNotices ?_
    | split

theorem sound_execSupplyLoss {x0 : State} (h0 : Sound q z x0.pending x0.sec.fuses x0.csr x0.mem x0.cyc) : SoundOut q z (execSupplyLoss x0) := by
  unfold execSupplyLoss
  simp (maxDischargeDepth := 40) +contextual [*]

theorem sound_execSwapAbort {x0 : Nat} {x1 : State} (h1 : Sound q z x1.pending x1.sec.fuses x1.csr x1.mem x1.cyc) : SoundOut q z (execSwapAbort x0 x1) := by
  unfold execSwapAbort
  simp (maxDischargeDepth := 40) +contextual [*]

theorem sound_execSwapCommit {x0 : State} (h0 : Sound q z x0.pending x0.sec.fuses x0.csr x0.mem x0.cyc) : SoundOut q z (execSwapCommit x0) := by
  unfold execSwapCommit
  try dsimp only
  repeat' first
    | with_reducible assumption
    | with_reducible refine soundOut_next ?_
    | with_reducible refine soundOut_ite ?_ ?_
    | with_reducible refine sound_ite ?_ ?_
    | with_reducible refine sound_foldl ?_ (fun _ _ _ => ?_)
    | with_reducible refine sound_commitSwap ?_
    | split

theorem sound_execSwapStage {x0 : Nat} {x1 : State} (h1 : Sound q z x1.pending x1.sec.fuses x1.csr x1.mem x1.cyc) : SoundOut q z (execSwapStage x0 x1) := by
  unfold execSwapStage
  simp (maxDischargeDepth := 40) +contextual [*]

theorem sound_execSyncReceived {x0 : Nat} {x1 : PtpMsg} {x2 : State} (h2 : Sound q z x2.pending x2.sec.fuses x2.csr x2.mem x2.cyc) : SoundOut q z (execSyncReceived x0 x1 x2) := by
  unfold execSyncReceived
  simp (maxDischargeDepth := 40) +contextual [*]

theorem sound_execSyncSend {x0 : State} (h0 : Sound q z x0.pending x0.sec.fuses x0.csr x0.mem x0.cyc) : SoundOut q z (execSyncSend x0) := by
  unfold execSyncSend
  simp (maxDischargeDepth := 40) +contextual [*]

theorem sound_execSyncSourceTimeout {x0 : Nat} {x1 : State} (h1 : Sound q z x1.pending x1.sec.fuses x1.csr x1.mem x1.cyc) : SoundOut q z (execSyncSourceTimeout x0 x1) := by
  unfold execSyncSourceTimeout
  simp (maxDischargeDepth := 40) +contextual [*]

theorem sound_execTakeoverMapReady {s : State} (h : Sound q z s.pending s.sec.fuses s.csr s.mem s.cyc) : SoundOut q z (execTakeoverMapReady s) := by
  unfold execTakeoverMapReady
  split
  · split
    · with_reducible exact soundOut_next (sound_setFld (sound_writeSignedMap h))
    · exact h
  · exact h

theorem sound_execThermalClear {x0 : Nat} {x1 : State} (h1 : Sound q z x1.pending x1.sec.fuses x1.csr x1.mem x1.cyc) : SoundOut q z (execThermalClear x0 x1) := by
  unfold execThermalClear
  simp (maxDischargeDepth := 40) +contextual [*]

theorem sound_execTileDrive {x0 : Nat} {x1 : Nat} {x2 : List Int} {x3 : State} (h3 : Sound q z x3.pending x3.sec.fuses x3.csr x3.mem x3.cyc) : SoundOut q z (execTileDrive x0 x1 x2 x3) := by
  unfold execTileDrive
  try extract_lets
  repeat' first
    | with_reducible assumption
    | with_reducible refine soundOut_next ?_
    | with_reducible refine soundOut_ite ?_ ?_
    | with_reducible refine sound_ite ?_ ?_
    | with_reducible refine sound_foldl ?_ (fun _ _ _ => ?_)
    | with_reducible refine sound_atSlot ?_
    | with_reducible refine sound_fieldDown ?_
    | with_reducible refine sound_genCheck ?_
    | with_reducible refine sound_getD (fun _ e => sound_entryFault ?_ e) ?_
    | with_reducible refine sound_entryFault ?_ ‹_›
    | with_reducible refine sound_failStep ?_
    | with_reducible refine sound_lateField ?_
    | with_reducible refine sound_drivePlane ?_
    | extract_lets
    | split

theorem sound_execTileRecordCheckpoint {x0 : Nat} {x1 : State} (h1 : Sound q z x1.pending x1.sec.fuses x1.csr x1.mem x1.cyc) : SoundOut q z (execTileRecordCheckpoint x0 x1) := by
  unfold execTileRecordCheckpoint
  simp (maxDischargeDepth := 40) +contextual [*]

theorem sound_execTileRetirement {x0 : Nat} {x1 : State} (h1 : Sound q z x1.pending x1.sec.fuses x1.csr x1.mem x1.cyc) : SoundOut q z (execTileRetirement x0 x1) := by
  unfold execTileRetirement
  try dsimp only
  repeat' first
    | with_reducible assumption
    | with_reducible refine soundOut_next ?_
    | with_reducible refine soundOut_ite ?_ ?_
    | with_reducible refine sound_ite ?_ ?_
    | with_reducible refine sound_foldl ?_ (fun _ _ _ => ?_)
    | with_reducible refine sound_updTile ?_
    | with_reducible refine sound_writeRecord ?_
    | with_reducible refine sound_recordFault ?_
    | split

theorem sound_execTimeRoot {x0 : Nat} {x1 : State} (h1 : Sound q z x1.pending x1.sec.fuses x1.csr x1.mem x1.cyc) : SoundOut q z (execTimeRoot x0 x1) := by
  unfold execTimeRoot
  simp (maxDischargeDepth := 40) +contextual [*]

theorem sound_execTimingMonitorLow {x0 : Nat} {x1 : Int} {x2 : State} (h2 : Sound q z x2.pending x2.sec.fuses x2.csr x2.mem x2.cyc) : SoundOut q z (execTimingMonitorLow x0 x1 x2) := by
  unfold execTimingMonitorLow
  simp (maxDischargeDepth := 40) +contextual [*]

theorem sound_execTqChange {x0 : Nat} {x1 : Nat} {x2 : State} (h2 : Sound q z x2.pending x2.sec.fuses x2.csr x2.mem x2.cyc) : SoundOut q z (execTqChange x0 x1 x2) := by
  unfold execTqChange
  try dsimp only
  repeat' first
    | with_reducible assumption
    | with_reducible refine soundOut_next ?_
    | with_reducible refine soundOut_ite ?_ ?_
    | with_reducible refine sound_ite ?_ ?_
    | with_reducible refine sound_foldl ?_ (fun _ _ _ => ?_)
    | with_reducible refine sound_updTq ?_
    | with_reducible refine sound_setFld ?_
    | split

theorem sound_execTqWindowClose {f n : Nat} {s : State} (h : Sound q z s.pending s.sec.fuses s.csr s.mem s.cyc) : SoundOut q z (execTqWindowClose f n s) := by
  unfold execTqWindowClose
  dsimp only
  split
  · exact h
  · repeat' first
      | with_reducible assumption
      | with_reducible refine soundOut_ite ?_ ?_
      | with_reducible refine soundOut_next ?_
      | with_reducible refine sound_updTq ?_
      | with_reducible refine sound_setFld ?_

theorem sound_execTransitFrame {l : Nat} {f : TransitHdr} {s : State} (h : Sound q z s.pending s.sec.fuses s.csr s.mem s.cyc) : SoundOut q z (execTransitFrame l f s) := by
  unfold execTransitFrame
  refine soundOut_ite h ?_
  split
  · with_reducible exact soundOut_next (sound_rxDiscard h ‹_›)
  · repeat' first
      | with_reducible assumption
      | with_reducible refine soundOut_ite ?_ ?_
      | with_reducible refine soundOut_next ?_
      | with_reducible refine sound_count ?_
      | with_reducible refine sound_transit ?_

theorem sound_execTrimAttempt {x0 : Nat} {x1 : Nat} {x2 : Int} {x3 : Int} {x4 : List Int} {x5 : State} (h5 : Sound q z x5.pending x5.sec.fuses x5.csr x5.mem x5.cyc) : SoundOut q z (execTrimAttempt x0 x1 x2 x3 x4 x5) := by
  unfold execTrimAttempt
  simp (maxDischargeDepth := 40) +contextual [*]

theorem sound_execTrimPeriodExpire {x0 : Nat} {x1 : Nat} {x2 : State} (h2 : Sound q z x2.pending x2.sec.fuses x2.csr x2.mem x2.cyc) : SoundOut q z (execTrimPeriodExpire x0 x1 x2) := by
  unfold execTrimPeriodExpire
  simp (maxDischargeDepth := 40) +contextual [*]

theorem sound_execTrimTakeoverStart {a b : Nat} {s : State} (h : Sound q z s.pending s.sec.fuses s.csr s.mem s.cyc) : SoundOut q z (execTrimTakeoverStart a b s) := by
  unfold execTrimTakeoverStart
  dsimp only
  repeat' first
      | with_reducible assumption
      | with_reducible refine soundOut_ite ?_ ?_
      | with_reducible refine soundOut_next ?_
      | with_reducible refine sound_updConv ?_
      | with_reducible refine sound_updTile ?_
      | with_reducible refine sound_writeRecord ?_
      | split

@[simp] theorem sound_rdResp {x0 : State} {x1 : Nat} {x2 : Nat} {x3 : Nat} {x4 : List Byte} (h0 : Sound q z x0.pending x0.sec.fuses x0.csr x0.mem x0.cyc) : Sound q z (rdResp x0 x1 x2 x3 x4).pending (rdResp x0 x1 x2 x3 x4).sec.fuses (rdResp x0 x1 x2 x3 x4).csr (rdResp x0 x1 x2 x3 x4).mem (rdResp x0 x1 x2 x3 x4).cyc := by
  unfold rdResp
  simp (maxDischargeDepth := 40) +contextual [*]

theorem sound_execU4Rd {x0 : Nat} {x1 : Nat} {x2 : Nat} {x3 : State} (h3 : Sound q z x3.pending x3.sec.fuses x3.csr x3.mem x3.cyc) : SoundOut q z (execU4Rd x0 x1 x2 x3) := by
  unfold execU4Rd
  try dsimp only
  repeat' first
    | with_reducible assumption
    | with_reducible refine soundOut_next ?_
    | with_reducible refine soundOut_ite ?_ ?_
    | with_reducible refine sound_ite ?_ ?_
    | with_reducible refine sound_foldl ?_ (fun _ _ _ => ?_)
    | with_reducible refine sound_rdResp ?_
    | with_reducible refine sound_busError ?_
    | with_reducible refine sound_getD (fun _ e => sound_crossMesh ?_ e) ?_
    | with_reducible refine sound_crossMesh ?_ ‹_›
    | with_reducible refine sound_csrRead ?_
    | with_reducible refine sound_getD (fun _ e => sound_meshTo ?_ e) ?_
    | with_reducible refine sound_meshTo ?_ ‹_›
    | with_reducible refine sound_readUe ?_
    | split

@[simp] theorem sound_wrResp {x0 : State} {x1 : Nat} {x2 : Nat} {x3 : Nat} (h0 : Sound q z x0.pending x0.sec.fuses x0.csr x0.mem x0.cyc) : Sound q z (wrResp x0 x1 x2 x3).pending (wrResp x0 x1 x2 x3).sec.fuses (wrResp x0 x1 x2 x3).csr (wrResp x0 x1 x2 x3).mem (wrResp x0 x1 x2 x3).cyc := by
  unfold wrResp
  simp (maxDischargeDepth := 40) +contextual [*]

theorem sound_execU4Wr {x0 : Nat} {x1 : Nat} {x2 : List Byte} {x3 : State} (h3 : Sound q z x3.pending x3.sec.fuses x3.csr x3.mem x3.cyc) : SoundOut q z (execU4Wr x0 x1 x2 x3) := by
  unfold execU4Wr
  try dsimp only
  repeat' first
    | with_reducible assumption
    | with_reducible refine soundOut_next ?_
    | with_reducible refine soundOut_ite ?_ ?_
    | with_reducible refine sound_ite ?_ ?_
    | with_reducible refine sound_foldl ?_ (fun _ _ _ => ?_)
    | with_reducible refine sound_wrResp ?_
    | with_reducible refine sound_busError ?_
    | with_reducible refine sound_hostDenied ?_
    | with_reducible refine sound_getD (fun _ e => sound_crossMesh ?_ e) ?_
    | with_reducible refine sound_crossMesh ?_ ‹_›
    | with_reducible refine sound_csrWriteAll ?_
    | with_reducible refine sound_getD (fun _ e => sound_meshTo ?_ e) ?_
    | with_reducible refine sound_meshTo ?_ ‹_›
    | with_reducible refine sound_readUe ?_
    | with_reducible refine sound_write ?_
    | split

theorem sound_execUcieRepairFail {x0 : Nat} {x1 : State} (h1 : Sound q z x1.pending x1.sec.fuses x1.csr x1.mem x1.cyc) : SoundOut q z (execUcieRepairFail x0 x1) := by
  unfold execUcieRepairFail
  simp (maxDischargeDepth := 40) +contextual [*]

theorem sound_execUnitRewrite {x0 : Nat} {x1 : State} (h1 : Sound q z x1.pending x1.sec.fuses x1.csr x1.mem x1.cyc) : SoundOut q z (execUnitRewrite x0 x1) := by
  unfold execUnitRewrite
  simp (maxDischargeDepth := 40) +contextual [*]

@[simp] theorem sound_failPrompts {x0 : State} {x1 : Nat} (h0 : Sound q z x0.pending x0.sec.fuses x0.csr x0.mem x0.cyc) : Sound q z (failPrompts x0 x1).pending (failPrompts x0 x1).sec.fuses (failPrompts x0 x1).csr (failPrompts x0 x1).mem (failPrompts x0 x1).cyc := by
  unfold failPrompts
  simp (maxDischargeDepth := 40) +contextual [*]

@[simp] theorem sound_goalClear {x0 : State} {x1 : Bool} (h0 : Sound q z x0.pending x0.sec.fuses x0.csr x0.mem x0.cyc) : Sound q z (goalClear x0 x1).pending (goalClear x0 x1).sec.fuses (goalClear x0 x1).csr (goalClear x0 x1).mem (goalClear x0 x1).cyc := by
  unfold goalClear
  try dsimp only
  repeat' first
    | with_reducible assumption
    | with_reducible refine sound_ite ?_ ?_
    | with_reducible refine sound_foldl ?_ (fun _ _ _ => ?_)
    | with_reducible refine sound_resumeCheck ?_
    | with_reducible refine sound_updSeq ?_
    | split

@[simp] theorem sound_goalPause {x0 : State} {x1 : List Nat} (h0 : Sound q z x0.pending x0.sec.fuses x0.csr x0.mem x0.cyc) : Sound q z (goalPause x0 x1).pending (goalPause x0 x1).sec.fuses (goalPause x0 x1).csr (goalPause x0 x1).mem (goalPause x0 x1).cyc := by
  unfold goalPause
  try dsimp only
  repeat' first
    | with_reducible assumption
    | with_reducible refine sound_ite ?_ ?_
    | with_reducible refine sound_foldl ?_ (fun _ _ _ => ?_)
    | with_reducible refine sound_pauseCheck ?_
    | with_reducible refine sound_updSeq ?_
    | split

@[simp] theorem sound_writeMapEntry {x0 : State} {x1 : Nat} {x2 : Nat} {x3 : List Byte} (h0 : Sound q z x0.pending x0.sec.fuses x0.csr x0.mem x0.cyc) : Sound q z (writeMapEntry x0 x1 x2 x3).pending (writeMapEntry x0 x1 x2 x3).sec.fuses (writeMapEntry x0 x1 x2 x3).csr (writeMapEntry x0 x1 x2 x3).mem (writeMapEntry x0 x1 x2 x3).cyc := by
  unfold writeMapEntry
  simp (maxDischargeDepth := 40) +contextual [*]

@[simp] theorem sound_writeMap {x0 : State} {x1 : Nat} {x2 : Nat} {x3 : Nat} (h0 : Sound q z x0.pending x0.sec.fuses x0.csr x0.mem x0.cyc) : Sound q z (writeMap x0 x1 x2 x3).pending (writeMap x0 x1 x2 x3).sec.fuses (writeMap x0 x1 x2 x3).csr (writeMap x0 x1 x2 x3).mem (writeMap x0 x1 x2 x3).cyc := by
  unfold writeMap
  try dsimp only
  repeat' first
    | with_reducible assumption
    | with_reducible refine sound_ite ?_ ?_
    | with_reducible refine sound_foldl ?_ (fun _ _ _ => ?_)
    | with_reducible refine sound_writeMapEntry ?_
    | with_reducible refine sound_count ?_
    | with_reducible refine sound_countBehind ?_
    | with_reducible refine sound_failPrompts ?_
    | with_reducible refine sound_goalClear ?_
    | with_reducible refine sound_goalPause ?_
    | split

theorem sound_execVectorMapWrite {x0 : Nat} {x1 : Nat} {x2 : State} (h2 : Sound q z x2.pending x2.sec.fuses x2.csr x2.mem x2.cyc) : SoundOut q z (execVectorMapWrite x0 x1 x2) := by
  unfold execVectorMapWrite
  try dsimp only
  repeat' first
    | with_reducible assumption
    | with_reducible refine soundOut_next ?_
    | with_reducible refine soundOut_ite ?_ ?_
    | with_reducible refine sound_ite ?_ ?_
    | with_reducible refine sound_foldl ?_ (fun _ _ _ => ?_)
    | with_reducible refine sound_pumpAll ?_
    | with_reducible refine sound_writeMap ?_
    | split

theorem sound_execWholeDieReset {x0 : State} (h0 : Sound q z x0.pending x0.sec.fuses x0.csr x0.mem x0.cyc) : SoundOut q z (execWholeDieReset x0) := by
  unfold execWholeDieReset
  try dsimp only
  repeat' first
    | with_reducible assumption
    | with_reducible refine soundOut_next ?_
    | with_reducible refine soundOut_ite ?_ ?_
    | with_reducible refine sound_ite ?_ ?_
    | with_reducible refine sound_foldl ?_ (fun _ _ _ => ?_)
    | with_reducible refine sound_enterBoot ?_
    | split

@[simp] theorem sound_loadSections {x0 : State} {x1 : Nat} {x2 : Nat → Bool} (h0 : Sound q z x0.pending x0.sec.fuses x0.csr x0.mem x0.cyc) : Sound q z (loadSections x0 x1 x2).pending (loadSections x0 x1 x2).sec.fuses (loadSections x0 x1 x2).csr (loadSections x0 x1 x2).mem (loadSections x0 x1 x2).cyc := by
  unfold loadSections
  simp (maxDischargeDepth := 40) +contextual [*]

@[simp] theorem sound_tick {s : State} (h : Sound q z s.pending s.sec.fuses s.csr s.mem s.cyc) : Sound q z (tick s).pending (tick s).sec.fuses (tick s).csr (tick s).mem (tick s).cyc := by
  unfold tick
  extract_lets t
  have k : Sound q z t.pending t.sec.fuses t.csr t.mem t.cyc := sound_toCycle (Nat.lt_of_le_of_lt (Nat.min_le_left _ _) (by decide)) h
  exact sound_flushLinks k

theorem sound_blowFuse {s : State} {b : Nat} (h : Sound q z s.pending s.sec.fuses s.csr s.mem s.cyc) :
    Sound q (blowFuse s b).sec.fuses (blowFuse s b).pending (blowFuse s b).sec.fuses (blowFuse s b).csr (blowFuse s b).mem (blowFuse s b).cyc := by
  unfold blowFuse
  dsimp only
  split
  · exact ⟨h.1, h.2.1, h.2.2.1, h.2.2.2.1, rfl⟩
  · exact ⟨h.1, h.2.1, h.2.2.1, h.2.2.2.1, rfl⟩

/-- A test-port access keeps everything but the fuses. -/
theorem sound_execTestPortAccess {op : TestOp} {s t : State} (h : Sound q z s.pending s.sec.fuses s.csr s.mem s.cyc)
    (e : execTestPortAccess op s = .next t) : Sound q t.sec.fuses t.pending t.sec.fuses t.csr t.mem t.cyc := by
  unfold execTestPortAccess at e
  split at e
  · cases e; exact ⟨h.1, h.2.1, h.2.2.1, h.2.2.2.1, rfl⟩
  · cases op <;> cases e
    · exact ⟨h.1, h.2.1, h.2.2.1, h.2.2.2.1, rfl⟩
    · exact sound_blowFuse h
    · exact ⟨h.1, h.2.1, h.2.2.1, h.2.2.2.1, rfl⟩
    · exact ⟨h.1, h.2.1, h.2.2.1, h.2.2.2.1, rfl⟩

end Sys2Proof.Machine
end

