-- ==== Sys2Proof/Laws/MemoryFrame.lean ====
section
/-! SUPPORT. The operations and commands that write no memory, one lemma each. -/
namespace Sys2Proof.Machine

variable {mm : Sparse Byte}

/-- An outcome whose next state, if it is one, has the memory `mm`. -/
def MemOut (mm : Sparse Byte) : Host.Outcome State Fault Refusal → Prop
  | .next t => t.mem = mm
  | _ => True

/-- A command's action that leaves the memory as it is. -/
def MemAct (mm : Sparse Byte) : CmdAct → Prop
  | .now f => ∀ a t, t.mem = mm → (f a t).1.mem = mm
  | .job f => ∀ a k t, t.mem = mm → (f a k t).mem = mm
  | .jobData _ f => ∀ a k t, t.mem = mm → (f a k t).mem = mm

@[simp] theorem mem_ite {c : Prop} [Decidable c] {a b : State} (ha : a.mem = mm) (hb : b.mem = mm) :
    (if c then a else b).mem = mm := by split <;> assumption

@[simp] theorem mem_foldl {β : Type} {g : State → β → State} {l : List β} {s : State}
    (hs : s.mem = mm) (hg : ∀ t x, t.mem = mm → (g t x).mem = mm) :
    (l.foldl g s).mem = mm := by
  induction l generalizing s with
  | nil => exact hs
  | cons x l ih => exact ih (hg s x hs)

@[simp] theorem mem_setFld {s : State} {x : Fld} {v : Nat} (h : s.mem = mm) :
    (s.setFld x v).mem = mm := h

@[simp] theorem mem_setWord {s : State} {x : Nat} {v : Word} (h : s.mem = mm) :
    (s.setWord x v).mem = mm := h

@[simp] theorem mem_resetRegs {s : State} {x y : Nat} (h : s.mem = mm) :
    (resetRegs s x y).mem = mm := h

@[simp] theorem memOut_next {t : State} (h : t.mem = mm) : MemOut mm (.next t) := h

@[simp] theorem memOut_ite {c : Prop} [Decidable c] {a b : Host.Outcome State Fault Refusal} (ha : MemOut mm a) (hb : MemOut mm b) :
    MemOut mm (if c then a else b) := by split <;> assumption

@[simp] theorem memAct_now {f : List Byte → State → State × List Byte}
    (h : ∀ a t, t.mem = mm → (f a t).1.mem = mm) : MemAct mm (.now f) := h

@[simp] theorem memAct_job {f : List Byte → Nat → State → State}
    (h : ∀ a k t, t.mem = mm → (f a k t).mem = mm) : MemAct mm (.job f) := h

@[simp] theorem memAct_jobData {d : List Byte → State → List Byte} {f : List Byte → Nat → State → State}
    (h : ∀ a k t, t.mem = mm → (f a k t).mem = mm) : MemAct mm (.jobData d f) := h

theorem mem_pair {β : Type} {s : State} {b : β} (h : s.mem = mm) : (s, b).1.mem = mm := h

theorem mem_fst_ite {β : Type} {c : Prop} [Decidable c] {a b : State × β} (ha : a.1.mem = mm) (hb : b.1.mem = mm) :
    (if c then a else b).1.mem = mm := by split <;> assumption

theorem mem_mark {t : State} {l : List BufMark} {b : Batch} (h : t.mem = mm) :
    (({ t with sched := { t.sched with bufMark := l } }, b) : State × Batch).1.mem = mm := h

theorem mem_sec {t : State} {x : Sec} (h : t.mem = mm) : ({ t with sec := x } : State).mem = mm := h

theorem mem_getD {o : Option State} {b : State} (ho : ∀ t, o = some t → t.mem = mm) (hb : b.mem = mm) : (o.getD b).mem = mm := by
  cases o with
  | none => exact hb
  | some t => exact ho t rfl

theorem mem_orElse {o : Option State} {g : Unit → Option State} (ho : ∀ t, o = some t → t.mem = mm) (hg : ∀ t, g () = some t → t.mem = mm)
    (t : State) (e : o.orElse g = some t) : t.mem = mm := by
  cases o with
  | none => exact hg t e
  | some u => exact ho t e

theorem mem_toCycle {s : State} {n : Nat} (hn : n < 5120) (h : s.mem = mm) :
    (s.toCycle n).mem = mm := h

@[simp] theorem mem_atCycle {s : State} {k c : Nat} (h : s.mem = mm) :
    (s.atCycle k c).mem = mm := mem_toCycle (by omega) h

@[simp] theorem mem_atSlot {s : State} {k : Nat} (h : s.mem = mm) :
    (s.atSlot k).mem = mm := mem_toCycle (by omega) h

@[simp] theorem mem_updMb {x0 : State} {x1 : Nat} {x2 : Mailbox → Mailbox} (h0 : x0.mem = mm) : (State.updMb x0 x1 x2).mem = mm := by
  unfold State.updMb
  simp (maxDischargeDepth := 40) +contextual [*]

@[simp] theorem mem_cmdCounted {x0 : State} {x1 : Nat} (h0 : x0.mem = mm) : (State.cmdCounted x0 x1).mem = mm := by
  unfold State.cmdCounted
  simp (maxDischargeDepth := 40) +contextual [*]

@[simp] theorem mem_count {x0 : State} {x1 : Fld} {x2 : Nat} (h0 : x0.mem = mm) : (State.count x0 x1 x2).mem = mm := by
  unfold State.count
  simp (maxDischargeDepth := 40) +contextual [*]

@[simp] theorem mem_draw {x0 : State} (h0 : x0.mem = mm) : (State.draw x0).mem = mm := by
  unfold State.draw
  simp (maxDischargeDepth := 40) +contextual [*]

@[simp] theorem mem_emit {x0 : State} {x1 : Msg} (h0 : x0.mem = mm) : (State.emit x0 x1).mem = mm := by
  unfold State.emit
  simp (maxDischargeDepth := 40) +contextual [*]

@[simp] theorem mem_sendCtrl {x0 : State} {x1 : Nat} {x2 : List Byte} (h0 : x0.mem = mm) : (State.sendCtrl x0 x1 x2).mem = mm := by
  unfold State.sendCtrl
  simp (maxDischargeDepth := 40) +contextual [*]

@[simp] theorem mem_setPos {x0 : State} {x1 : Nat} {x2 : Nat} {x3 : Option Pos} (h0 : x0.mem = mm) : (State.setPos x0 x1 x2 x3).mem = mm := by
  unfold State.setPos
  simp (maxDischargeDepth := 40) +contextual [*]

@[simp] theorem mem_updJob {x0 : State} {x1 : Nat} {x2 : Nat} {x3 : Job → Job} (h0 : x0.mem = mm) : (State.updJob x0 x1 x2 x3).mem = mm := by
  unfold State.updJob
  simp (maxDischargeDepth := 40) +contextual [*]

@[simp] theorem mem_updLnk {x0 : State} {x1 : Nat} {x2 : Link → Link} (h0 : x0.mem = mm) : (State.updLnk x0 x1 x2).mem = mm := by
  unfold State.updLnk
  simp (maxDischargeDepth := 40) +contextual [*]

@[simp] theorem mem_updSeq {x0 : State} {x1 : Nat} {x2 : SeqE → SeqE} (h0 : x0.mem = mm) : (State.updSeq x0 x1 x2).mem = mm := by
  unfold State.updSeq
  simp (maxDischargeDepth := 40) +contextual [*]

@[simp] theorem mem_updSide {x0 : State} {x1 : Nat} {x2 : Side → Side} (h0 : x0.mem = mm) : (State.updSide x0 x1 x2).mem = mm := by
  unfold State.updSide
  simp (maxDischargeDepth := 40) +contextual [*]

@[simp] theorem mem_updTile {x0 : State} {x1 : Nat} {x2 : Tile → Tile} (h0 : x0.mem = mm) : (State.updTile x0 x1 x2).mem = mm := by
  unfold State.updTile
  simp (maxDischargeDepth := 40) +contextual [*]

@[simp] theorem mem_intCause {x0 : State} {x1 : Nat} (h0 : x0.mem = mm) : (intCause x0 x1).mem = mm := by
  unfold intCause
  simp (maxDischargeDepth := 40) +contextual [*]

@[simp] theorem mem_raiseInt {x0 : State} {x1 : Nat} (h0 : x0.mem = mm) : (raiseInt x0 x1).mem = mm := by
  unfold raiseInt
  simp (maxDischargeDepth := 40) +contextual [*]

@[simp] theorem mem_jobDone {x0 : State} {x1 : Nat} {x2 : Nat} {x3 : Nat} {x4 : List Byte} (h0 : x0.mem = mm) : (jobDone x0 x1 x2 x3 x4).mem = mm := by
  unfold jobDone
  try dsimp only
  repeat' first
    | with_reducible assumption
    | with_reducible refine mem_ite ?_ ?_
    | with_reducible refine mem_foldl ?_ (fun _ _ _ => ?_)
    | with_reducible refine mem_updJob ?_
    | with_reducible refine mem_sendCtrl ?_
    | with_reducible refine mem_raiseInt ?_
    | split

@[simp] theorem mem_abandonJobs {x0 : State} (h0 : x0.mem = mm) : (abandonJobs x0).mem = mm := by
  unfold abandonJobs
  simp (maxDischargeDepth := 40) +contextual [*]

@[simp] theorem mem_forgetJobs {x0 : State} (h0 : x0.mem = mm) : (forgetJobs x0).mem = mm := by
  unfold forgetJobs
  simp (maxDischargeDepth := 40) +contextual [*]

@[simp] theorem mem_abandonAll {x0 : State} (h0 : x0.mem = mm) : (abandonAll x0).mem = mm := by
  unfold abandonAll
  simp (maxDischargeDepth := 40) +contextual [*]

@[simp] theorem mem_finish {x0 : State} {x1 : Option (Nat × Nat)} {x2 : Nat} {x3 : List Byte} (h0 : x0.mem = mm) : (finish x0 x1 x2 x3).mem = mm := by
  unfold finish
  try dsimp only
  repeat' first
    | with_reducible assumption
    | with_reducible refine mem_ite ?_ ?_
    | with_reducible refine mem_foldl ?_ (fun _ _ _ => ?_)
    | with_reducible refine mem_jobDone ?_
    | split

@[simp] theorem mem_endFetch {x0 : State} {x1 : Fetch} {x2 : Nat} {x3 : Nat} (h0 : x0.mem = mm) : (endFetch x0 x1 x2 x3).mem = mm := by
  unfold endFetch
  simp (maxDischargeDepth := 40) +contextual [*]

@[simp] theorem mem_enterState {x0 : State} {x1 : DieState} (h0 : x0.mem = mm) : (enterState x0 x1).mem = mm := by
  unfold enterState
  simp (maxDischargeDepth := 40) +contextual [*]

@[simp] theorem mem_takeShard {x0 : State} {x1 : Nat} (h0 : x0.mem = mm) : (takeShard x0 x1).mem = mm := by
  unfold takeShard
  simp (maxDischargeDepth := 40) +contextual [*]

@[simp] theorem mem_setProt {x0 : State} {x1 : Nat} {x2 : Option (Nat × Nat)} (h0 : x0.mem = mm) : (setProt x0 x1 x2).mem = mm := by
  unfold setProt
  try dsimp only
  repeat' first
    | with_reducible assumption
    | with_reducible refine mem_ite ?_ ?_
    | with_reducible refine mem_foldl ?_ (fun _ _ _ => ?_)
    | with_reducible refine mem_setFld ?_
    | with_reducible refine mem_setWord ?_
    | split

@[simp] theorem mem_uninstall {s : State} (h : s.mem = mm) :
    (uninstall s).mem = mm := by
  unfold uninstall
  dsimp only
  with_reducible exact mem_setProt (mem_setFld h)

@[simp] theorem mem_activate {s : State} (h : s.mem = mm) :
    (activate s).mem = mm := by
  unfold activate
  dsimp only
  repeat' first
    | with_reducible assumption
    | with_reducible refine mem_ite ?_ ?_
    | with_reducible refine mem_enterState ?_
    | with_reducible refine mem_uninstall ?_
    | with_reducible refine mem_takeShard ?_
    | with_reducible refine mem_endFetch ?_
    | split

@[simp] theorem mem_setLane {x0 : State} {x1 : Nat} {x2 : Nat} {x3 : Int} (h0 : x0.mem = mm) : (setLane x0 x1 x2 x3).mem = mm := by
  unfold setLane
  simp (maxDischargeDepth := 40) +contextual [*]

@[simp] theorem mem_addLanes {x0 : State} {x1 : Nat} {x2 : Nat} {x3 : Nat} {x4 : List (Nat × Int)} (h0 : x0.mem = mm) : (addLanes x0 x1 x2 x3 x4).mem = mm := by
  unfold addLanes
  simp (maxDischargeDepth := 40) +contextual [*]

@[simp] theorem mem_drainLink {n lim k : Nat} : ∀ {s : State}, s.mem = mm → (drainLink n lim k s).mem = mm := by
  induction k with
  | zero => intro s h; exact h
  | succ k ih =>
    intro s h
    unfold drainLink
    repeat' first
      | with_reducible assumption
      | with_reducible refine mem_ite ?_ ?_
      | with_reducible refine ih ?_
      | with_reducible refine mem_emit ?_
      | with_reducible refine mem_updLnk ?_
      | split

@[simp] theorem mem_drain {x0 : State} {x1 : Nat} {x2 : Nat} (h0 : x0.mem = mm) : (drain x0 x1 x2).mem = mm := by
  unfold drain
  simp (maxDischargeDepth := 40) +contextual [*]

@[simp] theorem mem_sendUns {x0 : State} {x1 : Nat} {x2 : Msg} (h0 : x0.mem = mm) : (sendUns x0 x1 x2).mem = mm := by
  unfold sendUns
  simp (maxDischargeDepth := 40) +contextual [*]

@[simp] theorem mem_sendRead {x0 : State} {x1 : Nat} (h0 : x0.mem = mm) : (sendRead x0 x1).mem = mm := by
  unfold sendRead
  try dsimp only
  repeat' first
    | with_reducible assumption
    | with_reducible refine mem_ite ?_ ?_
    | with_reducible refine mem_foldl ?_ (fun _ _ _ => ?_)
    | with_reducible refine mem_sendUns ?_
    | split

@[simp] theorem mem_sendReads {x0 : State} (h0 : x0.mem = mm) : (sendReads x0).mem = mm := by
  unfold sendReads
  try dsimp only
  repeat' first
    | with_reducible assumption
    | with_reducible refine mem_ite ?_ ?_
    | with_reducible refine mem_foldl ?_ (fun _ _ _ => ?_)
    | with_reducible refine mem_sendRead ?_
    | split

@[simp] theorem mem_fetchCheckEnd {x0 : State} (h0 : x0.mem = mm) : (fetchCheckEnd x0).mem = mm := by
  unfold fetchCheckEnd
  try dsimp only
  repeat' first
    | with_reducible assumption
    | with_reducible refine mem_ite ?_ ?_
    | with_reducible refine mem_foldl ?_ (fun _ _ _ => ?_)
    | with_reducible refine mem_endFetch ?_
    | with_reducible refine mem_setFld ?_
    | with_reducible refine mem_sendReads ?_
    | split

@[simp] theorem mem_startRepair {x0 : State} {x1 : Option (Nat × Nat)} {x2 : List Src} (h0 : x0.mem = mm) : (startRepair x0 x1 x2).mem = mm := by
  unfold startRepair
  simp (maxDischargeDepth := 40) +contextual [*]

@[simp] theorem mem_reread {x0 : State} (h0 : x0.mem = mm) : (reread x0).mem = mm := by
  unfold reread
  simp (maxDischargeDepth := 40) +contextual [*]

@[simp] theorem mem_afterFetch {x0 : State} (h0 : x0.mem = mm) : (afterFetch x0).mem = mm := by
  unfold afterFetch
  simp (maxDischargeDepth := 40) +contextual [*]

@[simp] theorem mem_pendByAge {x0 : State} {x1 : Nat} (h0 : x0.mem = mm) : (pendByAge x0 x1).mem = mm := by
  unfold pendByAge
  simp (maxDischargeDepth := 40) +contextual [*]

@[simp] theorem mem_ageTiles {x0 : State} (h0 : x0.mem = mm) : (ageTiles x0).mem = mm := by
  unfold ageTiles
  simp (maxDischargeDepth := 40) +contextual [*]

@[simp] theorem mem_rowTook {x0 : State} {x1 : Nat} {x2 : Nat} {x3 : State} (h0 : x0.mem = mm) (h3 : x3.mem = mm) : (rowTook x0 x1 x2 x3).mem = mm := by
  unfold rowTook
  simp (maxDischargeDepth := 40) +contextual [*]

@[simp] theorem mem_dropLanes {x0 : State} {x1 : Nat} (h0 : x0.mem = mm) : (dropLanes x0 x1).mem = mm := by
  unfold dropLanes
  simp (maxDischargeDepth := 40) +contextual [*]

@[simp] theorem mem_setLink {x0 : State} {x1 : Nat} {x2 : LinkState} (h0 : x0.mem = mm) : (setLink x0 x1 x2).mem = mm := by
  unfold setLink
  simp (maxDischargeDepth := 40) +contextual [*]

@[simp] theorem mem_takeLanes {s : State} {n g d : Nat} (h : s.mem = mm) :
    (takeLanes s n g d).1.mem = mm := by
  unfold takeLanes
  dsimp only
  repeat' first
    | with_reducible assumption
    | with_reducible refine mem_setFld ?_
    | with_reducible refine mem_updLnk ?_
    | with_reducible refine mem_foldl ?_ (fun _ _ _ => ?_)
    | split

@[simp] theorem mem_aligned {x0 : State} {x1 : Nat} {x2 : Nat} {x3 : Nat} (h0 : x0.mem = mm) : (aligned x0 x1 x2 x3).mem = mm := by
  unfold aligned
  simp (maxDischargeDepth := 40) +contextual [*]

@[simp] theorem mem_answerBudget {s : State} {a b c d : Nat} (h : s.mem = mm) : (answerBudget s a b c d).1.mem = mm := by
  unfold answerBudget
  split <;> exact h

@[simp] theorem mem_askReset {x0 : State} {x1 : Nat} (h0 : x0.mem = mm) : (askReset x0 x1).mem = mm := by
  unfold askReset
  simp (maxDischargeDepth := 40) +contextual [*]

@[simp] theorem mem_awaitMap {x0 : State} {x1 : TopoMap} {x2 : Option (Nat × Nat)} (h0 : x0.mem = mm) : (awaitMap x0 x1 x2).mem = mm := by
  unfold awaitMap
  try dsimp only
  repeat' first
    | with_reducible assumption
    | with_reducible refine mem_ite ?_ ?_
    | with_reducible refine mem_foldl ?_ (fun _ _ _ => ?_)
    | with_reducible refine mem_finish ?_
    | split

@[simp] theorem mem_beatEvent {x0 : State} {x1 : Nat} {x2 : Nat} (h0 : x0.mem = mm) : (beatEvent x0 x1 x2).mem = mm := by
  unfold beatEvent
  simp (maxDischargeDepth := 40) +contextual [*]

@[simp] theorem mem_clearLanded {x0 : State} {x1 : Nat} (h0 : x0.mem = mm) : (clearLanded x0 x1).mem = mm := by
  unfold clearLanded
  simp (maxDischargeDepth := 40) +contextual [*]

@[simp] theorem mem_updTq {x0 : State} {x1 : Nat} {x2 : Nat} {x3 : TqWin → TqWin} (h0 : x0.mem = mm) : (updTq x0 x1 x2 x3).mem = mm := by
  unfold updTq
  simp (maxDischargeDepth := 40) +contextual [*]

@[simp] theorem mem_countBlock {x0 : Nat} {x1 : Nat} {x2 : Bool} {x3 : State} {x4 : Nat × Nat × Nat} (h3 : x3.mem = mm) : (countBlock x0 x1 x2 x3 x4).mem = mm := by
  unfold countBlock
  simp (maxDischargeDepth := 40) +contextual [*]

@[simp] theorem mem_flushCounts {x0 : State} {x1 : Nat} {x2 : Scan} (h0 : x0.mem = mm) : (flushCounts x0 x1 x2).mem = mm := by
  unfold flushCounts
  simp (maxDischargeDepth := 40) +contextual [*]

@[simp] theorem mem_flushStep {x0 : State} {x1 : Nat} (h0 : x0.mem = mm) : (flushStep x0 x1).mem = mm := by
  unfold flushStep
  try dsimp only
  repeat' first
    | with_reducible assumption
    | with_reducible refine mem_ite ?_ ?_
    | with_reducible refine mem_foldl ?_ (fun _ _ _ => ?_)
    | with_reducible refine mem_flushCounts ?_
    | split

@[simp] theorem mem_clearStep {x0 : State} {x1 : Nat} (h0 : x0.mem = mm) : (clearStep x0 x1).mem = mm := by
  unfold clearStep
  simp (maxDischargeDepth := 40) +contextual [*]

@[simp] theorem mem_loadMap {x0 : State} {x1 : Nat} (h0 : x0.mem = mm) : (loadMap x0 x1).mem = mm := by
  unfold loadMap
  simp (maxDischargeDepth := 40) +contextual [*]

@[simp] theorem mem_startStep {x0 : State} {x1 : Nat} (h0 : x0.mem = mm) : (startStep x0 x1).mem = mm := by
  unfold startStep
  simp (maxDischargeDepth := 40) +contextual [*]

@[simp] theorem mem_startSteps {x0 : State} (h0 : x0.mem = mm) : (startSteps x0).mem = mm := by
  unfold startSteps
  simp (maxDischargeDepth := 40) +contextual [*]

@[simp] theorem mem_beginFiring {x0 : State} {x1 : Nat} (h0 : x0.mem = mm) : (beginFiring x0 x1).mem = mm := by
  unfold beginFiring
  simp (maxDischargeDepth := 40) +contextual [*]

@[simp] theorem mem_blowFuse {s : State} {b : Nat} (h : s.mem = mm) : (blowFuse s b).mem = mm := by
  unfold blowFuse
  dsimp only
  split <;> exact h

@[simp] theorem mem_writeEvent {x0 : State} {x1 : Nat} {x2 : List Byte} (h0 : x0.mem = mm) : (writeEvent x0 x1 x2).mem = mm := by
  unfold writeEvent
  simp (maxDischargeDepth := 40) +contextual [*]

@[simp] theorem mem_writeHeader {x0 : State} {x1 : EvHdr → EvHdr} (h0 : x0.mem = mm) : (writeHeader x0 x1).mem = mm := by
  unfold writeHeader
  simp (maxDischargeDepth := 40) +contextual [*]

@[simp] theorem mem_bootLog {x0 : State} (h0 : x0.mem = mm) : (bootLog x0).mem = mm := by
  unfold bootLog
  simp (maxDischargeDepth := 40) +contextual [*]

@[simp] theorem mem_sigFail {x0 : State} (h0 : x0.mem = mm) : (sigFail x0).mem = mm := by
  unfold sigFail
  simp (maxDischargeDepth := 40) +contextual [*]

@[simp] theorem mem_bootPatch {s : State} (h : s.mem = mm) : (bootPatch s).mem = mm := by
  unfold bootPatch
  extract_lets
  split
  · exact h
  · split
    · with_reducible exact mem_sec (mem_setFld h)
    · with_reducible exact mem_sigFail (mem_setFld h)
    · with_reducible exact mem_setFld h

@[simp] theorem mem_retireTile {x0 : State} {x1 : Nat} {x2 : Nat} (h0 : x0.mem = mm) : (retireTile x0 x1 x2).mem = mm := by
  unfold retireTile
  simp (maxDischargeDepth := 40) +contextual [*]

@[simp] theorem mem_loadTile {x0 : Bool} {x1 : State} {x2 : Nat} (h1 : x1.mem = mm) : (loadTile x0 x1 x2).mem = mm := by
  unfold loadTile
  try dsimp only
  repeat' first
    | with_reducible assumption
    | with_reducible refine mem_ite ?_ ?_
    | with_reducible refine mem_foldl ?_ (fun _ _ _ => ?_)
    | with_reducible refine mem_updTile ?_
    | with_reducible refine mem_pendByAge ?_
    | with_reducible refine mem_retireTile ?_
    | split

@[simp] theorem mem_loadRecords {x0 : State} {x1 : Nat} {x2 : Bool} (h0 : x0.mem = mm) : (loadRecords x0 x1 x2).mem = mm := by
  unfold loadRecords
  simp (maxDischargeDepth := 40) +contextual [*]

@[simp] theorem mem_bootPower {x0 : State} (h0 : x0.mem = mm) : (bootPower x0).mem = mm := by
  unfold bootPower
  simp (maxDischargeDepth := 40) +contextual [*]

@[simp] theorem mem_bootTrip {x0 : State} (h0 : x0.mem = mm) : (bootTrip x0).mem = mm := by
  unfold bootTrip
  simp (maxDischargeDepth := 40) +contextual [*]

@[simp] theorem mem_busConvert {x0 : State} {x1 : Nat} (h0 : x0.mem = mm) : (busConvert x0 x1).mem = mm := by
  unfold busConvert
  simp (maxDischargeDepth := 40) +contextual [*]

@[simp] theorem mem_recordFault_new {x0 : State} {x1 : Nat} {x2 : Nat} {x3 : Nat} {x4 : Nat} {x5 : Nat} {x6 : FaultCtx} {x7 : List Byte} (h0 : x0.mem = mm) : (recordFault.new x0 x1 x2 x3 x4 x5 x6 x7).mem = mm := by
  unfold recordFault.new
  simp (maxDischargeDepth := 40) +contextual [*]

@[simp] theorem mem_recordFault {x0 : State} {x1 : Nat} {x2 : Nat} {x3 : Nat} {x4 : Nat} {x5 : Nat} {x6 : FaultCtx} {x7 : List Byte} (h0 : x0.mem = mm) : (recordFault x0 x1 x2 x3 x4 x5 x6 x7).mem = mm := by
  unfold recordFault
  try dsimp only
  repeat' first
    | with_reducible assumption
    | with_reducible refine mem_ite ?_ ?_
    | with_reducible refine mem_foldl ?_ (fun _ _ _ => ?_)
    | with_reducible refine mem_recordFault_new ?_
    | split

@[simp] theorem mem_busError {x0 : State} {x1 : Nat} {x2 : Bool} {x3 : Nat} (h0 : x0.mem = mm) : (busError x0 x1 x2 x3).mem = mm := by
  unfold busError
  simp (maxDischargeDepth := 40) +contextual [*]

@[simp] theorem mem_disableLink {x0 : State} {x1 : Nat} (h0 : x0.mem = mm) : (disableLink x0 x1).mem = mm := by
  unfold disableLink
  simp (maxDischargeDepth := 40) +contextual [*]

@[simp] theorem mem_onDisable {x0 : State} {x1 : Nat} (h0 : x0.mem = mm) : (onDisable x0 x1).mem = mm := by
  unfold onDisable
  simp (maxDischargeDepth := 40) +contextual [*]

@[simp] theorem mem_clearEnable {x0 : State} {x1 : Nat} (h0 : x0.mem = mm) : (clearEnable x0 x1).mem = mm := by
  unfold clearEnable
  try dsimp only
  repeat' first
    | with_reducible assumption
    | with_reducible refine mem_ite ?_ ?_
    | with_reducible refine mem_foldl ?_ (fun _ _ _ => ?_)
    | with_reducible refine mem_onDisable ?_
    | with_reducible refine mem_setFld ?_
    | split

@[simp] theorem mem_mbxCmd {x0 : State} {x1 : Nat} {x2 : Nat} {x3 : List Byte} (h0 : x0.mem = mm) : (mbxCmd x0 x1 x2 x3).mem = mm := by
  unfold mbxCmd
  simp (maxDischargeDepth := 40) +contextual [*]

@[simp] theorem mem_cmdWords {n : Nat} : ∀ {s : State} {m o : Nat} {bs : List Byte}, s.mem = mm →
    (cmdWords s m o bs n).mem = mm := by
  induction n with
  | zero => intro s m o bs h; exact h
  | succ n ih => intro s m o bs h; exact ih (mem_mbxCmd h)

@[simp] theorem mem_windowCount {x0 : State} {x1 : Nat} {x2 : Nat} {x3 : Nat} {x4 : Nat} (h0 : x0.mem = mm) : (windowCount x0 x1 x2 x3 x4).mem = mm := by
  unfold windowCount
  simp (maxDischargeDepth := 40) +contextual [*]

@[simp] theorem mem_countDrive {x0 : State} {x1 : Nat} {x2 : List (Int × Bool)} {x3 : Nat} (h0 : x0.mem = mm) : (countDrive x0 x1 x2 x3).mem = mm := by
  unfold countDrive
  simp (maxDischargeDepth := 40) +contextual [*]

@[simp] theorem mem_countInvalid {x0 : Nat} {x1 : State} {x2 : State} (h1 : x1.mem = mm) (h2 : x2.mem = mm) : (countInvalid x0 x1 x2).mem = mm := by
  unfold countInvalid
  simp (maxDischargeDepth := 40) +contextual [*]

@[simp] theorem mem_countReset {x0 : State} {x1 : Nat} (h0 : x0.mem = mm) : (countReset x0 x1).mem = mm := by
  unfold countReset
  simp (maxDischargeDepth := 40) +contextual [*]

@[simp] theorem mem_noteRoute {x0 : State} {x1 : Nat} {x2 : Bool} (h0 : x0.mem = mm) : (noteRoute x0 x1 x2).mem = mm := by
  unfold noteRoute
  simp (maxDischargeDepth := 40) +contextual [*]

theorem mem_crossMesh {x0 : State} {x1 x2 : Nat} {y : State} (h0 : x0.mem = mm) (e : crossMesh x0 x1 x2 = some y) : y.mem = mm := by
  obtain ⟨b, _, rfl⟩ := Option.map_eq_some_iff.mp e
  exact mem_noteRoute h0

@[simp] theorem mem_mbxReadEffects {x0 : State} {x1 : Nat} {x2 : Nat} (h0 : x0.mem = mm) : (mbxReadEffects x0 x1 x2).mem = mm := by
  unfold mbxReadEffects
  simp (maxDischargeDepth := 40) +contextual [*]

@[simp] theorem mem_readEffects {x0 : State} {x1 : Nat} (h0 : x0.mem = mm) : (readEffects x0 x1).mem = mm := by
  unfold readEffects
  try dsimp only
  repeat' first
    | with_reducible assumption
    | with_reducible refine mem_ite ?_ ?_
    | with_reducible refine mem_foldl ?_ (fun _ _ _ => ?_)
    | with_reducible refine mem_setWord ?_
    | split

@[simp] theorem mem_csrReadEffects {x0 : State} {x1 : Nat} (h0 : x0.mem = mm) : (csrReadEffects x0 x1).mem = mm := by
  unfold csrReadEffects
  simp (maxDischargeDepth := 40) +contextual [*]

@[simp] theorem mem_csrRead {n : Nat} : ∀ {s : State} {o : Nat}, s.mem = mm →
    (csrRead s o n).1.mem = mm := by
  induction n with
  | zero => intro s o h; exact h
  | succ n ih => intro s o h; exact ih (mem_csrReadEffects h)

@[simp] theorem mem_mbxAck {x0 : State} {x1 : Nat} {x2 : Nat} (h0 : x0.mem = mm) : (mbxAck x0 x1 x2).mem = mm := by
  unfold mbxAck
  simp (maxDischargeDepth := 40) +contextual [*]

@[simp] theorem mem_mbxGo {x0 : State} {x1 : Nat} {x2 : Option Nat} (h0 : x0.mem = mm) : (mbxGo x0 x1 x2).mem = mm := by
  unfold mbxGo
  try dsimp only
  repeat' first
    | with_reducible assumption
    | with_reducible refine mem_ite ?_ ?_
    | with_reducible refine mem_foldl ?_ (fun _ _ _ => ?_)
    | with_reducible refine mem_updMb ?_
    | split

@[simp] theorem mem_mbxWrite {x0 : State} {x1 : Nat} {x2 : Nat} {x3 : Word} {x4 : Option Nat} (h0 : x0.mem = mm) : (mbxWrite x0 x1 x2 x3 x4).mem = mm := by
  unfold mbxWrite
  simp (maxDischargeDepth := 40) +contextual [*]

@[simp] theorem mem_maskWritten {x0 : State} {x1 : Word} (h0 : x0.mem = mm) : (maskWritten x0 x1).mem = mm := by
  unfold maskWritten
  simp (maxDischargeDepth := 40) +contextual [*]

@[simp] theorem mem_storeCfg {x0 : State} {x1 : Nat} {x2 : Word} (h0 : x0.mem = mm) : (storeCfg x0 x1 x2).mem = mm := by
  unfold storeCfg
  simp (maxDischargeDepth := 40) +contextual [*]

@[simp] theorem mem_writeCfg {x0 : State} {x1 : Nat} {x2 : Nat} {x3 : Word} (h0 : x0.mem = mm) : (writeCfg x0 x1 x2 x3).mem = mm := by
  unfold writeCfg
  simp (maxDischargeDepth := 40) +contextual [*]

@[simp] theorem mem_refuseEnable {x0 : State} {x1 : Nat} (h0 : x0.mem = mm) : (refuseEnable x0 x1).mem = mm := by
  unfold refuseEnable
  simp (maxDischargeDepth := 40) +contextual [*]

@[simp] theorem mem_initRanges {x0 : State} {x1 : Nat} (h0 : x0.mem = mm) : (initRanges x0 x1).mem = mm := by
  unfold initRanges
  simp (maxDischargeDepth := 40) +contextual [*]

@[simp] theorem mem_initTq {x0 : State} {x1 : Nat} (h0 : x0.mem = mm) : (initTq x0 x1).mem = mm := by
  unfold initTq
  simp (maxDischargeDepth := 40) +contextual [*]

@[simp] theorem mem_requestPower {x0 : State} {x1 : List Nat} (h0 : x0.mem = mm) : (requestPower x0 x1).mem = mm := by
  unfold requestPower
  simp (maxDischargeDepth := 40) +contextual [*]

@[simp] theorem mem_startTraining {x0 : State} {x1 : Nat} (h0 : x0.mem = mm) : (startTraining x0 x1).mem = mm := by
  unfold startTraining
  simp (maxDischargeDepth := 40) +contextual [*]

@[simp] theorem mem_takePort {x0 : State} {x1 : Nat} (h0 : x0.mem = mm) : (takePort x0 x1).mem = mm := by
  unfold takePort
  simp (maxDischargeDepth := 40) +contextual [*]

@[simp] theorem mem_enterAcquiring {x0 : State} (h0 : x0.mem = mm) : (enterAcquiring x0).mem = mm := by
  unfold enterAcquiring
  try dsimp only
  repeat' first
    | with_reducible assumption
    | with_reducible refine mem_ite ?_ ?_
    | with_reducible refine mem_foldl ?_ (fun _ _ _ => ?_)
    | with_reducible refine mem_takePort ?_
    | split

@[simp] theorem mem_enterRoot {s : State} (h : s.mem = mm) : (enterRoot s).mem = mm := by
  unfold enterRoot
  extract_lets _ s1 _ s2 s3 s4
  have k1 : s1.mem = mm := by
    show (if _ then _ else _ : State).mem = mm
    split <;> exact h
  have k3 : s3.mem = mm := mem_setFld (mem_setFld (s := s2) k1)
  have k4 : s4.mem = mm := mem_ite (mem_takePort k3) k3
  exact mem_ite (mem_enterState k4) k4

@[simp] theorem mem_timeStart {x0 : State} (h0 : x0.mem = mm) : (timeStart x0).mem = mm := by
  unfold timeStart
  simp (maxDischargeDepth := 40) +contextual [*]

@[simp] theorem mem_onEnable {x0 : State} {x1 : Nat} (h0 : x0.mem = mm) : (onEnable x0 x1).mem = mm := by
  unfold onEnable
  simp (maxDischargeDepth := 40) +contextual [*]

@[simp] theorem mem_setEnable {x0 : State} {x1 : Nat} (h0 : x0.mem = mm) : (setEnable x0 x1).mem = mm := by
  unfold setEnable
  try dsimp only
  repeat' first
    | with_reducible assumption
    | with_reducible refine mem_ite ?_ ?_
    | with_reducible refine mem_foldl ?_ (fun _ _ _ => ?_)
    | with_reducible refine mem_onEnable ?_
    | with_reducible refine mem_setFld ?_
    | split

@[simp] theorem mem_writeEnable {x0 : State} {x1 : Nat} {x2 : Nat} {x3 : Nat} (h0 : x0.mem = mm) : (writeEnable x0 x1 x2 x3).mem = mm := by
  unfold writeEnable
  simp (maxDischargeDepth := 40) +contextual [*]

@[simp] theorem mem_writeEnables {x0 : State} {x1 : Nat} {x2 : Nat} {x3 : Word} (h0 : x0.mem = mm) : (writeEnables x0 x1 x2 x3).mem = mm := by
  unfold writeEnables
  try dsimp only
  repeat' first
    | with_reducible assumption
    | with_reducible refine mem_ite ?_ ?_
    | with_reducible refine mem_foldl ?_ (fun _ _ _ => ?_)
    | with_reducible refine mem_writeEnable ?_
    | split

@[simp] theorem mem_writeReg {x0 : State} {x1 : Nat} {x2 : Word} (h0 : x0.mem = mm) : (writeReg x0 x1 x2).mem = mm := by
  unfold writeReg
  try dsimp only
  repeat' first
    | with_reducible assumption
    | with_reducible refine mem_ite ?_ ?_
    | with_reducible refine mem_foldl ?_ (fun _ _ _ => ?_)
    | with_reducible refine mem_writeCfg ?_
    | with_reducible refine mem_setWord ?_
    | with_reducible refine mem_writeEnables ?_
    | with_reducible refine mem_maskWritten ?_
    | split

@[simp] theorem mem_csrWrite1 {x0 : State} {x1 : Nat} {x2 : Word} {x3 : Option Nat} (h0 : x0.mem = mm) : (csrWrite1 x0 x1 x2 x3).mem = mm := by
  unfold csrWrite1
  simp (maxDischargeDepth := 40) +contextual [*]

@[simp] theorem mem_domainResetStart {x0 : Nat} {x1 : List Byte} {x2 : Nat} {x3 : State} (h3 : x3.mem = mm) : (domainResetStart x0 x1 x2 x3).mem = mm := by
  unfold domainResetStart
  simp (maxDischargeDepth := 40) +contextual [*]

@[simp] theorem mem_drainAll {x0 : State} {x1 : Nat} (h0 : x0.mem = mm) : (drainAll x0 x1).mem = mm := by
  unfold drainAll
  simp (maxDischargeDepth := 40) +contextual [*]

@[simp] theorem mem_drainEnds {x0 : State} (h0 : x0.mem = mm) : (drainEnds x0).mem = mm := by
  unfold drainEnds
  simp (maxDischargeDepth := 40) +contextual [*]

@[simp] theorem mem_drawKeys {x0 : State} (h0 : x0.mem = mm) : (drawKeys x0).mem = mm := by
  unfold drawKeys
  simp (maxDischargeDepth := 40) +contextual [*]

@[simp] theorem mem_noteDrive {x0 : State} {x1 : Nat} (h0 : x0.mem = mm) : (noteDrive x0 x1).mem = mm := by
  unfold noteDrive
  simp (maxDischargeDepth := 40) +contextual [*]

@[simp] theorem mem_drivePart {x0 : State} {x1 : Nat} {x2 : Nat} {x3 : Nat} {x4 : SRes} {x5 : List Int} (h0 : x0.mem = mm) : (drivePart x0 x1 x2 x3 x4 x5).mem = mm := by
  unfold drivePart
  simp (maxDischargeDepth := 40) +contextual [*]

@[simp] theorem mem_markFailed {x0 : State} {x1 : Nat} {x2 : Nat} (h0 : x0.mem = mm) : (markFailed x0 x1 x2).mem = mm := by
  unfold markFailed
  try dsimp only
  repeat' first
    | with_reducible assumption
    | with_reducible refine mem_ite ?_ ?_
    | with_reducible refine mem_foldl ?_ (fun _ _ _ => ?_)
    | with_reducible refine mem_setPos ?_
    | split

@[simp] theorem mem_failMb {x0 : State} {x1 : Nat} {x2 : Nat} (h0 : x0.mem = mm) : (failMb x0 x1 x2).mem = mm := by
  unfold failMb
  try dsimp only
  repeat' first
    | with_reducible assumption
    | with_reducible refine mem_ite ?_ ?_
    | with_reducible refine mem_foldl ?_ (fun _ _ _ => ?_)
    | with_reducible refine mem_markFailed ?_
    | with_reducible refine mem_setPos ?_
    | with_reducible refine mem_count ?_
    | split

@[simp] theorem mem_failStepIn {x0 : State} {x1 : Nat} {x2 : Nat} {x3 : Nat} {x4 : Nat} {x5 : Nat} {x6 : Nat} {x7 : List Byte} (h0 : x0.mem = mm) : (failStepIn x0 x1 x2 x3 x4 x5 x6 x7).mem = mm := by
  unfold failStepIn
  simp (maxDischargeDepth := 40) +contextual [*]

@[simp] theorem mem_failStep {x0 : State} {x1 : Nat} {x2 : Nat} {x3 : Nat} {x4 : Nat} {x5 : Nat} {x6 : List Byte} (h0 : x0.mem = mm) : (failStep x0 x1 x2 x3 x4 x5 x6).mem = mm := by
  unfold failStep
  simp (maxDischargeDepth := 40) +contextual [*]

@[simp] theorem mem_rerunClaim {x0 : State} {x1 : Nat} {x2 : Nat} {x3 : Nat} {x4 : Scan} {x5 : Nat} (h0 : x0.mem = mm) : (rerunClaim x0 x1 x2 x3 x4 x5).mem = mm := by
  unfold rerunClaim
  simp (maxDischargeDepth := 40) +contextual [*]

@[simp] theorem mem_setScan {x0 : State} {x1 : Nat} {x2 : Nat} {x3 : Option Scan} (h0 : x0.mem = mm) : (setScan x0 x1 x2 x3).mem = mm := by
  unfold setScan
  simp (maxDischargeDepth := 40) +contextual [*]

@[simp] theorem mem_judgeClaim {x0 : Nat} {x1 : Nat} {x2 : State} {x3 : Nat} (h2 : x2.mem = mm) : (judgeClaim x0 x1 x2 x3).mem = mm := by
  unfold judgeClaim
  try dsimp only
  repeat' first
    | with_reducible assumption
    | with_reducible refine mem_ite ?_ ?_
    | with_reducible refine mem_foldl ?_ (fun _ _ _ => ?_)
    | with_reducible refine mem_setScan ?_
    | with_reducible refine mem_rerunClaim ?_
    | split

@[simp] theorem mem_judgeClaims {x0 : State} {x1 : Nat} {x2 : Nat} (h0 : x0.mem = mm) : (judgeClaims x0 x1 x2).mem = mm := by
  unfold judgeClaims
  simp (maxDischargeDepth := 40) +contextual [*]

@[simp] theorem mem_memFail {x0 : State} {x1 : Nat} {x2 : Nat} {x3 : Nat} {x4 : Nat} (h0 : x0.mem = mm) : (memFail x0 x1 x2 x3 x4).mem = mm := by
  unfold memFail
  simp (maxDischargeDepth := 40) +contextual [*]

theorem mem_sramFault {x0 : State} {x1 x2 x3 x4 : Nat} {y : State} (h0 : x0.mem = mm) (e : sramFault x0 x1 x2 x3 x4 = some y) : y.mem = mm := by
  obtain ⟨g, _, rfl⟩ := Option.map_eq_some_iff.mp e
  with_reducible exact mem_memFail h0

@[simp] theorem mem_drivePlane {s : State} {f t c e : Nat} {x : Scan} {err : List Int} (h : s.mem = mm) : (drivePlane s f t c e x err).mem = mm := by
  unfold drivePlane
  extract_lets
  repeat' first
    | with_reducible assumption
    | with_reducible refine mem_ite ?_ ?_
    | with_reducible refine mem_judgeClaims ?_
    | with_reducible refine mem_addLanes ?_
    | with_reducible refine mem_drivePart ?_
    | with_reducible refine mem_updTile ?_
    | with_reducible refine mem_count ?_
    | with_reducible refine mem_sramFault ?_ ‹_›
    | extract_lets
    | split

@[simp] theorem mem_dropCounted {x0 : State} {x1 : BufMark} (h0 : x0.mem = mm) : (dropCounted x0 x1).mem = mm := by
  unfold dropCounted
  simp (maxDischargeDepth := 40) +contextual [*]

@[simp] theorem mem_enqueue {x0 : State} {x1 : OutReq} (h0 : x0.mem = mm) : (enqueue x0 x1).mem = mm := by
  unfold enqueue
  simp (maxDischargeDepth := 40) +contextual [*]

@[simp] theorem mem_failField {x0 : State} {x1 : Nat} (h0 : x0.mem = mm) : (failField x0 x1).mem = mm := by
  unfold failField
  try dsimp only
  repeat' first
    | with_reducible assumption
    | with_reducible refine mem_ite ?_ ?_
    | with_reducible refine mem_foldl ?_ (fun _ _ _ => ?_)
    | with_reducible refine mem_failMb ?_
    | split

@[simp] theorem mem_failAllSteps {x0 : State} (h0 : x0.mem = mm) : (failAllSteps x0).mem = mm := by
  unfold failAllSteps
  simp (maxDischargeDepth := 40) +contextual [*]

@[simp] theorem mem_finishAll {x0 : State} {x1 : Nat} {x2 : Nat} {x3 : List Byte} (h0 : x0.mem = mm) : (finishAll x0 x1 x2 x3).mem = mm := by
  unfold finishAll
  simp (maxDischargeDepth := 40) +contextual [*]

@[simp] theorem mem_stopFiring {x0 : State} (h0 : x0.mem = mm) : (stopFiring x0).mem = mm := by
  unfold stopFiring
  simp (maxDischargeDepth := 40) +contextual [*]

@[simp] theorem mem_enterOutOfStep {x0 : State} (h0 : x0.mem = mm) : (enterOutOfStep x0).mem = mm := by
  unfold enterOutOfStep
  simp (maxDischargeDepth := 40) +contextual [*]

@[simp] theorem mem_enterLost {x0 : State} (h0 : x0.mem = mm) : (enterLost x0).mem = mm := by
  unfold enterLost
  simp (maxDischargeDepth := 40) +contextual [*]

@[simp] theorem mem_pmbWrite {x0 : State} {x1 : Nat} {x2 : Nat} {x3 : Nat} (h0 : x0.mem = mm) : (pmbWrite x0 x1 x2 x3).mem = mm := by
  unfold pmbWrite
  simp (maxDischargeDepth := 40) +contextual [*]

@[simp] theorem mem_shutLinks {x0 : State} (h0 : x0.mem = mm) : (shutLinks x0).mem = mm := by
  unfold shutLinks
  simp (maxDischargeDepth := 40) +contextual [*]

@[simp] theorem mem_enterShutdown {x0 : State} {x1 : Nat} {x2 : Int} (h0 : x0.mem = mm) : (enterShutdown x0 x1 x2).mem = mm := by
  unfold enterShutdown
  simp (maxDischargeDepth := 40) +contextual [*]

theorem mem_tableFault {x0 : State} {x1 x2 x3 x4 x5 x6 : Nat} {y : State} (h0 : x0.mem = mm) (e : tableFault x0 x1 x2 x3 x4 x5 x6 = some y) : y.mem = mm := by
  obtain ⟨g, _, rfl⟩ := Option.map_eq_some_iff.mp e
  with_reducible exact mem_memFail h0

theorem mem_entryFault {x0 : State} {x1 x2 x3 x4 x5 x6 x7 : Nat} {y : State} (h0 : x0.mem = mm) (e : entryFault x0 x1 x2 x3 x4 x5 x6 x7 = some y) : y.mem = mm := by
  unfold entryFault at e
  cases h1 : tableFault x0 x1 x2 x3 x4 (x5 * x6) x5 with
  | some t => rw [h1] at e; cases e; exact mem_tableFault h0 h1
  | none =>
    rw [h1] at e
    cases h2 : tableFault x0 x1 x2 8 x1 (16 * x7) 16 with
    | some t => simp [h2] at e; cases e; exact mem_tableFault h0 h2
    | none => simp [h2] at e; exact mem_tableFault h0 e

theorem mem_execAcquireTimeout {x0 : State} (h0 : x0.mem = mm) : MemOut mm (execAcquireTimeout x0) := by
  unfold execAcquireTimeout
  simp (maxDischargeDepth := 40) +contextual [*]

@[simp] theorem mem_respond {x0 : State} {x1 : Nat} {x2 : CmdHdr} {x3 : Nat} {x4 : Nat} {x5 : Nat} {x6 : List Byte} (h0 : x0.mem = mm) : (respond x0 x1 x2 x3 x4 x5 x6).mem = mm := by
  unfold respond
  try dsimp only
  repeat' first
    | with_reducible assumption
    | with_reducible refine mem_ite ?_ ?_
    | with_reducible refine mem_foldl ?_ (fun _ _ _ => ?_)
    | with_reducible refine mem_updMb ?_
    | with_reducible refine mem_sendCtrl ?_
    | with_reducible refine mem_raiseInt ?_
    | split

@[simp] theorem mem_startJob {x0 : State} {x1 : Nat} {x2 : Nat} {x3 : CmdHdr} {x4 : List Byte} (h0 : x0.mem = mm) : (startJob x0 x1 x2 x3 x4).mem = mm := by
  unfold startJob
  simp (maxDischargeDepth := 40) +contextual [*]

@[simp] theorem mem_takeCommand {m op : Nat} {bs ba : List Byte → State → Bool} {rf : List Byte → State → Option (Nat × List Byte)}
    {act : CmdAct} {s : State} (ha : MemAct mm act) (h : s.mem = mm) :
    (takeCommand m op bs ba rf act s).mem = mm := by
  unfold takeCommand
  try dsimp only
  cases act with
  | now f =>
    have ha' := fun a t => ha a t
    dsimp only at ha' ⊢
    repeat' first
      | with_reducible assumption
      | with_reducible refine mem_ite ?_ ?_
      | with_reducible refine mem_respond ?_
      | with_reducible refine mem_cmdCounted ?_
      | with_reducible refine mem_updMb ?_
      | with_reducible refine ha' _ _ ?_
      | split
  | job f =>
    have ha' := fun a k t => ha a k t
    dsimp only at ha' ⊢
    repeat' first
      | with_reducible assumption
      | with_reducible refine mem_ite ?_ ?_
      | with_reducible refine mem_respond ?_
      | with_reducible refine mem_cmdCounted ?_
      | with_reducible refine mem_startJob ?_
      | with_reducible refine mem_updMb ?_
      | with_reducible refine ha' _ _ _ ?_
      | split
  | jobData d f =>
    have ha' := fun a k t => ha a k t
    dsimp only at ha' ⊢
    repeat' first
      | with_reducible assumption
      | with_reducible refine mem_ite ?_ ?_
      | with_reducible refine mem_respond ?_
      | with_reducible refine mem_cmdCounted ?_
      | with_reducible refine mem_startJob ?_
      | with_reducible refine mem_updMb ?_
      | with_reducible refine ha' _ _ _ ?_
      | split

theorem mem_execAdapterEvict {x0 : Nat} {x1 : State} (h1 : x1.mem = mm) : MemOut mm (execAdapterEvict x0 x1) := by
  unfold execAdapterEvict
  simp (maxDischargeDepth := 40) +contextual [*]

@[simp] theorem mem_hbmUe {x0 : State} {x1 : Nat} {x2 : Nat} {x3 : Nat} (h0 : x0.mem = mm) : (hbmUe x0 x1 x2 x3).mem = mm := by
  unfold hbmUe
  try dsimp only
  repeat' first
    | with_reducible assumption
    | with_reducible refine mem_ite ?_ ?_
    | with_reducible refine mem_foldl ?_ (fun _ _ _ => ?_)
    | with_reducible refine mem_count ?_
    | with_reducible refine mem_recordFault ?_
    | split

@[simp] theorem mem_memUe {x0 : State} {x1 : Nat} {x2 : Nat} {x3 : Nat} {x4 : FaultCtx} (h0 : x0.mem = mm) : (memUe x0 x1 x2 x3 x4).mem = mm := by
  unfold memUe
  simp (maxDischargeDepth := 40) +contextual [*]

@[simp] theorem mem_sramUe {x0 : State} {x1 : Nat} {x2 : Nat} {x3 : FaultCtx} (h0 : x0.mem = mm) : (sramUe x0 x1 x2 x3).mem = mm := by
  unfold sramUe
  try dsimp only
  repeat' first
    | with_reducible assumption
    | with_reducible refine mem_ite ?_ ?_
    | with_reducible refine mem_foldl ?_ (fun _ _ _ => ?_)
    | with_reducible refine mem_memUe ?_
    | split

@[simp] theorem mem_readUe {x0 : State} {x1 : Nat} {x2 : Nat} {x3 : Nat} (h0 : x0.mem = mm) : (readUe x0 x1 x2 x3).mem = mm := by
  unfold readUe
  simp (maxDischargeDepth := 40) +contextual [*]

@[simp] theorem mem_loadAdapter {x0 : Nat} {x1 : List Byte} {x2 : Nat} {x3 : State} (h3 : x3.mem = mm) : (loadAdapter x0 x1 x2 x3).mem = mm := by
  unfold loadAdapter
  simp (maxDischargeDepth := 40) +contextual [*]

theorem mem_execAdapterLoad {x0 : Nat} {x1 : State} (h1 : x1.mem = mm) : MemOut mm (execAdapterLoad x0 x1) := by
  unfold execAdapterLoad
  simp (maxDischargeDepth := 40) +contextual [*]

theorem mem_execAliveSecond {x0 : State} (h0 : x0.mem = mm) : MemOut mm (execAliveSecond x0) := by
  unfold execAliveSecond
  simp (maxDischargeDepth := 40) +contextual [*]

@[simp] theorem mem_ptpDiscard {x0 : State} (h0 : x0.mem = mm) : (ptpDiscard x0).mem = mm := by
  unfold ptpDiscard
  simp (maxDischargeDepth := 40) +contextual [*]

theorem mem_execAnnounceReceived {x0 : Nat} {x1 : PtpMsg} {x2 : State} (h2 : x2.mem = mm) : MemOut mm (execAnnounceReceived x0 x1 x2) := by
  unfold execAnnounceReceived
  simp (maxDischargeDepth := 40) +contextual [*]

theorem mem_execAnnounceSend {x0 : State} (h0 : x0.mem = mm) : MemOut mm (execAnnounceSend x0) := by
  unfold execAnnounceSend
  simp (maxDischargeDepth := 40) +contextual [*]

theorem mem_execBandChange {x0 : State} (h0 : x0.mem = mm) : MemOut mm (execBandChange x0) := by
  unfold execBandChange
  try dsimp only
  repeat' first
    | with_reducible assumption
    | with_reducible refine memOut_next ?_
    | with_reducible refine memOut_ite ?_ ?_
    | with_reducible refine mem_ite ?_ ?_
    | with_reducible refine mem_foldl ?_ (fun _ _ _ => ?_)
    | split

theorem mem_execBeatAck {x0 : Nat} {x1 : Marker} {x2 : State} (h2 : x2.mem = mm) : MemOut mm (execBeatAck x0 x1 x2) := by
  unfold execBeatAck
  try dsimp only
  repeat' first
    | with_reducible assumption
    | with_reducible refine memOut_next ?_
    | with_reducible refine memOut_ite ?_ ?_
    | with_reducible refine mem_ite ?_ ?_
    | with_reducible refine mem_foldl ?_ (fun _ _ _ => ?_)
    | with_reducible refine mem_updLnk ?_
    | with_reducible refine mem_beatEvent ?_
    | with_reducible refine mem_count ?_
    | split

theorem mem_execBeatAckTimeout {x0 : Nat} {x1 : Nat} {x2 : State} (h2 : x2.mem = mm) : MemOut mm (execBeatAckTimeout x0 x1 x2) := by
  unfold execBeatAckTimeout
  try dsimp only
  repeat' first
    | with_reducible assumption
    | with_reducible refine memOut_next ?_
    | with_reducible refine memOut_ite ?_ ?_
    | with_reducible refine mem_ite ?_ ?_
    | with_reducible refine mem_foldl ?_ (fun _ _ _ => ?_)
    | with_reducible refine mem_beatEvent ?_
    | with_reducible refine mem_count ?_
    | with_reducible refine mem_updLnk ?_
    | split

theorem mem_execBeatMarker {x0 : Nat} {x1 : Marker} {x2 : State} (h2 : x2.mem = mm) : MemOut mm (execBeatMarker x0 x1 x2) := by
  unfold execBeatMarker
  simp (maxDischargeDepth := 40) +contextual [*]

@[simp] theorem mem_raiseShed {x0 : State} {x1 : Nat} (h0 : x0.mem = mm) : (raiseShed x0 x1).mem = mm := by
  unfold raiseShed
  simp (maxDischargeDepth := 40) +contextual [*]

theorem mem_execBrownout {x0 : Nat} {x1 : Nat} {x2 : State} (h2 : x2.mem = mm) : MemOut mm (execBrownout x0 x1 x2) := by
  unfold execBrownout
  simp (maxDischargeDepth := 40) +contextual [*]

theorem mem_execBrownoutClear {x0 : Nat} {x1 : State} (h1 : x1.mem = mm) : MemOut mm (execBrownoutClear x0 x1) := by
  unfold execBrownoutClear
  simp (maxDischargeDepth := 40) +contextual [*]

@[simp] theorem mem_resumeCheck {x0 : State} {x1 : Nat} (h0 : x0.mem = mm) : (resumeCheck x0 x1).mem = mm := by
  unfold resumeCheck
  simp (maxDischargeDepth := 40) +contextual [*]

@[simp] theorem mem_updBudget {x0 : State} {x1 : Nat} {x2 : Budget → Budget} (h0 : x0.mem = mm) : (updBudget x0 x1 x2).mem = mm := by
  unfold updBudget
  simp (maxDischargeDepth := 40) +contextual [*]

@[simp] theorem mem_takeGrant {x0 : State} {x1 : Nat} {x2 : Nat} (h0 : x0.mem = mm) : (takeGrant x0 x1 x2).mem = mm := by
  unfold takeGrant
  try dsimp only
  repeat' first
    | with_reducible assumption
    | with_reducible refine mem_ite ?_ ?_
    | with_reducible refine mem_foldl ?_ (fun _ _ _ => ?_)
    | with_reducible refine mem_updBudget ?_
    | with_reducible refine mem_resumeCheck ?_
    | with_reducible refine mem_updSeq ?_
    | split

@[simp] theorem mem_takeAnswer {x0 : State} {x1 : Nat} {x2 : Nat} {x3 : Nat} (h0 : x0.mem = mm) : (takeAnswer x0 x1 x2 x3).mem = mm := by
  unfold takeAnswer
  try dsimp only
  repeat' first
    | with_reducible assumption
    | with_reducible refine mem_ite ?_ ?_
    | with_reducible refine mem_foldl ?_ (fun _ _ _ => ?_)
    | with_reducible refine mem_takeGrant ?_
    | split

theorem mem_execBudgetGrant {x0 : Nat} {x1 : Nat} {x2 : Nat} {x3 : Nat} {x4 : State} (h4 : x4.mem = mm) : MemOut mm (execBudgetGrant x0 x1 x2 x3 x4) := by
  unfold execBudgetGrant
  simp (maxDischargeDepth := 40) +contextual [*]

theorem mem_execBudgetReq {x0 : Nat} {x1 : Nat} {x2 : Nat} {x3 : Nat} {x4 : State} (h4 : x4.mem = mm) : MemOut mm (execBudgetReq x0 x1 x2 x3 x4) := by
  unfold execBudgetReq
  simp (maxDischargeDepth := 40) +contextual [*]

@[simp] theorem mem_setTenant {x0 : List Byte} {x1 : State} (h1 : x1.mem = mm) : (setTenant x0 x1).mem = mm := by
  unfold setTenant
  simp (maxDischargeDepth := 40) +contextual [*]

theorem mem_execBudgetSet {x0 : Nat} {x1 : State} (h1 : x1.mem = mm) : MemOut mm (execBudgetSet x0 x1) := by
  unfold execBudgetSet
  simp (maxDischargeDepth := 40) +contextual [*]

theorem mem_execBusOver {x0 : Nat} {x1 : State} (h1 : x1.mem = mm) : MemOut mm (execBusOver x0 x1) := by
  unfold execBusOver
  simp (maxDischargeDepth := 40) +contextual [*]

@[simp] theorem mem_snapshot {x0 : State} (h0 : x0.mem = mm) : (snapshot x0).mem = mm := by
  unfold snapshot
  try dsimp only
  repeat' first
    | with_reducible assumption
    | with_reducible refine mem_ite ?_ ?_
    | with_reducible refine mem_foldl ?_ (fun _ _ _ => ?_)
    | with_reducible refine mem_setFld ?_
    | with_reducible refine mem_setWord ?_
    | split

theorem mem_execCfgCommit {x0 : Nat} {x1 : State} (h1 : x1.mem = mm) : MemOut mm (execCfgCommit x0 x1) := by
  unfold execCfgCommit
  simp (maxDischargeDepth := 40) +contextual [*]

theorem mem_execCheckAbandon {x0 : Nat} {x1 : State} (h1 : x1.mem = mm) : MemOut mm (execCheckAbandon x0 x1) := by
  unfold execCheckAbandon
  try dsimp only
  repeat' first
    | with_reducible assumption
    | with_reducible refine memOut_next ?_
    | with_reducible refine memOut_ite ?_ ?_
    | with_reducible refine mem_ite ?_ ?_
    | with_reducible refine mem_foldl ?_ (fun _ _ _ => ?_)
    | with_reducible refine mem_count ?_
    | with_reducible refine mem_updTile ?_
    | split

@[simp] theorem mem_hostDenied {x0 : State} (h0 : x0.mem = mm) : (hostDenied x0).mem = mm := by
  unfold hostDenied
  simp (maxDischargeDepth := 40) +contextual [*]

@[simp] theorem mem_hostWrite {x0 : State} {x1 : Nat} {x2 : Word} (h0 : x0.mem = mm) : (hostWrite x0 x1 x2).mem = mm := by
  unfold hostWrite
  simp (maxDischargeDepth := 40) +contextual [*]

theorem mem_execConfigWrite {x0 : Nat} {x1 : Word} {x2 : State} (h2 : x2.mem = mm) : MemOut mm (execConfigWrite x0 x1 x2) := by
  unfold execConfigWrite
  simp (maxDischargeDepth := 40) +contextual [*]

theorem mem_execConfigure {x0 : Nat} {x1 : State} (h1 : x1.mem = mm) : MemOut mm (execConfigure x0 x1) := by
  unfold execConfigure
  simp (maxDischargeDepth := 40) +contextual [*]

theorem mem_execCoreFatal {x0 : Nat} {x1 : Nat} {x2 : State} (h2 : x2.mem = mm) : MemOut mm (execCoreFatal x0 x1 x2) := by
  unfold execCoreFatal
  simp (maxDischargeDepth := 40) +contextual [*]

@[simp] theorem mem_fieldDown {x0 : State} {x1 : Nat} {x2 : Nat} (h0 : x0.mem = mm) : (fieldDown x0 x1 x2).mem = mm := by
  unfold fieldDown
  simp (maxDischargeDepth := 40) +contextual [*]

@[simp] theorem mem_sendSched {x0 : State} {x1 : Nat} {x2 : Nat} {x3 : SchedFrame} (h0 : x0.mem = mm) : (sendSched x0 x1 x2 x3).mem = mm := by
  unfold sendSched
  simp (maxDischargeDepth := 40) +contextual [*]

theorem mem_execDeparture {l i : Nat} {s : State} (h : s.mem = mm) : MemOut mm (execDeparture l i s) := by
  unfold execDeparture
  split
  · exact h
  · refine memOut_ite h ?_
    extract_lets s0 f v late s1 s2 zeros _ base fr s3 _ fr2
    have h0 : s0.mem = mm := mem_atCycle h
    have k1 : s1.mem = mm := mem_ite (mem_failStepIn (mem_count h0)) h0
    have k2 : s2.mem = mm := mem_ite (mem_getD (mem_orElse (fun _ e => mem_tableFault k1 e) (fun _ e => mem_sramFault k1 e)) k1) k1
    have k3 : s3.mem = mm := mem_ite (mem_fieldDown k2) k2
    refine memOut_ite (memOut_next (mem_count h0)) ?_
    exact memOut_next (mem_sendSched k3)

theorem mem_execDisableWrite {x0 : Nat} {x1 : Word} {x2 : State} (h2 : x2.mem = mm) : MemOut mm (execDisableWrite x0 x1 x2) := by
  unfold execDisableWrite
  simp (maxDischargeDepth := 40) +contextual [*]

theorem mem_execDomainReset {m : Nat} {s : State} (h : s.mem = mm) : MemOut mm (execDomainReset m s) := by
  unfold execDomainReset
  dsimp only
  refine memOut_next (mem_takeCommand ?_ h)
  split
  · exact memAct_now (fun a t ht => mem_askReset ht)
  · exact memAct_job (fun a k t ht => mem_domainResetStart ht)

theorem mem_execDownRetry {x0 : Nat} {x1 : State} (h1 : x1.mem = mm) : MemOut mm (execDownRetry x0 x1) := by
  unfold execDownRetry
  simp (maxDischargeDepth := 40) +contextual [*]

theorem mem_execDrainComplete {x0 : State} (h0 : x0.mem = mm) : MemOut mm (execDrainComplete x0) := by
  unfold execDrainComplete
  simp (maxDischargeDepth := 40) +contextual [*]

theorem mem_execDriftAgeTick {x0 : Nat} {x1 : State} (h1 : x1.mem = mm) : MemOut mm (execDriftAgeTick x0 x1) := by
  unfold execDriftAgeTick
  simp (maxDischargeDepth := 40) +contextual [*]

theorem mem_execEcho {x0 : Nat} {x1 : State} (h1 : x1.mem = mm) : MemOut mm (execEcho x0 x1) := by
  unfold execEcho
  simp (maxDischargeDepth := 40) +contextual [*]

theorem mem_execEnableWrite {x0 : Nat} {x1 : Word} {x2 : State} (h2 : x2.mem = mm) : MemOut mm (execEnableWrite x0 x1 x2) := by
  unfold execEnableWrite
  simp (maxDischargeDepth := 40) +contextual [*]

@[simp] theorem mem_prepareTakeover {s : State} (h : s.mem = mm) : (prepareTakeover s).mem = mm := by
  unfold prepareTakeover
  extract_lets
  split
  · split
    · with_reducible exact mem_sec (mem_setFld h)
    · with_reducible exact mem_sec (mem_setFld h)
  · with_reducible exact mem_sec (mem_setFld h)

@[simp] theorem mem_sigInvalid {x0 : State} {x1 : Check} {x2 : Nat} {x3 : Nat} (h0 : x0.mem = mm) : (sigInvalid x0 x1 x2 x3).mem = mm := by
  unfold sigInvalid
  simp (maxDischargeDepth := 40) +contextual [*]

@[simp] theorem mem_installEndorse {x0 : Nat} {x1 : List Byte} {x2 : Nat} {x3 : State} (h3 : x3.mem = mm) : (installEndorse x0 x1 x2 x3).mem = mm := by
  unfold installEndorse
  simp (maxDischargeDepth := 40) +contextual [*]

theorem mem_execEndorseInstall {x0 : Nat} {x1 : State} (h1 : x1.mem = mm) : MemOut mm (execEndorseInstall x0 x1) := by
  unfold execEndorseInstall
  simp (maxDischargeDepth := 40) +contextual [*]

@[simp] theorem mem_recordNbr {x0 : State} {x1 : Nat} {x2 : Hello} (h0 : x0.mem = mm) : (recordNbr x0 x1 x2).mem = mm := by
  unfold recordNbr
  simp (maxDischargeDepth := 40) +contextual [*]

@[simp] theorem mem_quarantine {x0 : State} {x1 : Nat} {x2 : Nat} {x3 : Option Hello} (h0 : x0.mem = mm) : (quarantine x0 x1 x2 x3).mem = mm := by
  unfold quarantine
  try dsimp only
  repeat' first
    | with_reducible assumption
    | with_reducible refine mem_ite ?_ ?_
    | with_reducible refine mem_foldl ?_ (fun _ _ _ => ?_)
    | with_reducible refine mem_setFld ?_
    | with_reducible refine mem_recordNbr ?_
    | with_reducible refine mem_count ?_
    | with_reducible refine mem_setLink ?_
    | with_reducible refine mem_recordFault ?_
    | split

theorem mem_execEpochWaitTimeout {x0 : Nat} {x1 : State} (h1 : x1.mem = mm) : MemOut mm (execEpochWaitTimeout x0 x1) := by
  unfold execEpochWaitTimeout
  try dsimp only
  repeat' first
    | with_reducible assumption
    | with_reducible refine memOut_next ?_
    | with_reducible refine memOut_ite ?_ ?_
    | with_reducible refine mem_ite ?_ ?_
    | with_reducible refine mem_foldl ?_ (fun _ _ _ => ?_)
    | with_reducible refine mem_rowTook ?_ ?_
    | with_reducible refine mem_quarantine ?_
    | split

theorem mem_execExtGmLost {x0 : State} (h0 : x0.mem = mm) : MemOut mm (execExtGmLost x0) := by
  unfold execExtGmLost
  simp (maxDischargeDepth := 40) +contextual [*]

@[simp] theorem mem_rowState {x0 : State} {x1 : Nat} {x2 : Nat} {x3 : LinkState → Bool} (h0 : x0.mem = mm) : (rowState x0 x1 x2 x3).mem = mm := by
  unfold rowState
  try dsimp only
  repeat' first
    | with_reducible assumption
    | with_reducible refine mem_ite ?_ ?_
    | with_reducible refine mem_foldl ?_ (fun _ _ _ => ?_)
    | with_reducible refine mem_updLnk ?_
    | with_reducible refine mem_setFld ?_
    | with_reducible refine mem_setWord ?_
    | split

theorem mem_execFastRetrainDone {x0 : Nat} {x1 : Bool} {x2 : Nat} {x3 : Nat} {x4 : State} (h4 : x4.mem = mm) : MemOut mm (execFastRetrainDone x0 x1 x2 x3 x4) := by
  unfold execFastRetrainDone
  simp (maxDischargeDepth := 40) +contextual [*]

@[simp] theorem mem_nullPos {x0 : State} {x1 : Nat} {x2 : Ctx} (h0 : x0.mem = mm) : (nullPos x0 x1 x2).mem = mm := by
  unfold nullPos
  simp (maxDischargeDepth := 40) +contextual [*]

@[simp] theorem mem_genCheck {x0 : State} {x1 : Nat} {x2 : Nat} {x3 : Nat} (h0 : x0.mem = mm) : (genCheck x0 x1 x2 x3).mem = mm := by
  unfold genCheck
  try dsimp only
  repeat' first
    | with_reducible assumption
    | with_reducible refine mem_ite ?_ ?_
    | with_reducible refine mem_foldl ?_ (fun _ _ _ => ?_)
    | with_reducible refine mem_setPos ?_
    | with_reducible refine mem_count ?_
    | with_reducible refine mem_nullPos ?_
    | split

@[simp] theorem mem_fieldAction {act f sl v : Nat} {s : State} {g : State → Nat → Nat → State} (h : s.mem = mm)
    (hg : ∀ t n e, t.mem = mm → (g t n e).mem = mm) : (fieldAction act f sl v s g).mem = mm := by
  unfold fieldAction
  extract_lets
  repeat' first
    | with_reducible assumption
    | with_reducible refine mem_ite ?_ ?_
    | with_reducible refine mem_fieldDown ?_
    | with_reducible refine mem_atSlot ?_
    | with_reducible refine mem_genCheck ?_
    | with_reducible refine hg _ _ _ ?_
    | with_reducible refine mem_entryFault ?_ ‹_›
    | extract_lets
    | split

@[simp] theorem mem_lateField {x0 : State} {x1 : Nat} {x2 : Nat} {x3 : Nat} {x4 : Nat} (h0 : x0.mem = mm) : (lateField x0 x1 x2 x3 x4).mem = mm := by
  unfold lateField
  simp (maxDischargeDepth := 40) +contextual [*]

theorem mem_execFieldExponent {x0 : Nat} {x1 : Nat} {x2 : Nat} {x3 : State} (h3 : x3.mem = mm) : MemOut mm (execFieldExponent x0 x1 x2 x3) := by
  unfold execFieldExponent
  simp (maxDischargeDepth := 40) +contextual [*]

theorem mem_execFieldOpen {x0 : Nat} {x1 : Nat} {x2 : Nat} {x3 : State} (h3 : x3.mem = mm) : MemOut mm (execFieldOpen x0 x1 x2 x3) := by
  unfold execFieldOpen
  try dsimp only
  repeat' first
    | with_reducible assumption
    | with_reducible refine memOut_next ?_
    | with_reducible refine memOut_ite ?_ ?_
    | with_reducible refine mem_ite ?_ ?_
    | with_reducible refine mem_foldl ?_ (fun _ _ _ => ?_)
    | with_reducible refine mem_atSlot ?_
    | with_reducible refine mem_fieldDown ?_
    | with_reducible refine mem_genCheck ?_
    | with_reducible refine mem_setLane ?_
    | split

@[simp] theorem mem_markBad {x0 : State} {x1 : Nat} (h0 : x0.mem = mm) : (markBad x0 x1).mem = mm := by
  unfold markBad
  simp (maxDischargeDepth := 40) +contextual [*]

@[simp] theorem mem_readObject {x0 : State} {x1 : Nat} {x2 : Nat} {x3 : Nat} (h0 : x0.mem = mm) : (readObject x0 x1 x2 x3).mem = mm := by
  unfold readObject
  simp (maxDischargeDepth := 40) +contextual [*]

@[simp] theorem mem_scanVector_finishScan {x0 : Nat} {x1 : Nat} {x2 : State} {x3 : Scan} (h2 : x2.mem = mm) : (scanVector.finishScan x0 x1 x2 x3).mem = mm := by
  unfold scanVector.finishScan
  try dsimp only
  repeat' first
    | with_reducible assumption
    | with_reducible refine mem_ite ?_ ?_
    | with_reducible refine mem_foldl ?_ (fun _ _ _ => ?_)
    | with_reducible refine mem_failStep ?_
    | with_reducible refine mem_readObject ?_
    | with_reducible refine mem_setScan ?_
    | split

@[simp] theorem mem_scanVector {x0 : State} {x1 : Nat} {x2 : Nat} {x3 : Nat} {x4 : Nat} (h0 : x0.mem = mm) : (scanVector x0 x1 x2 x3 x4).mem = mm := by
  unfold scanVector
  try dsimp only
  repeat' first
    | with_reducible assumption
    | with_reducible refine mem_ite ?_ ?_
    | with_reducible refine mem_foldl ?_ (fun _ _ _ => ?_)
    | with_reducible refine mem_count ?_
    | with_reducible refine mem_failStep ?_
    | with_reducible refine mem_scanVector_finishScan ?_
    | split

theorem mem_execFieldScan {x0 : Nat} {x1 : Nat} {x2 : Nat} {x3 : State} (h3 : x3.mem = mm) : MemOut mm (execFieldScan x0 x1 x2 x3) := by
  unfold execFieldScan
  try dsimp only
  repeat' first
    | with_reducible assumption
    | with_reducible refine memOut_next ?_
    | with_reducible refine memOut_ite ?_ ?_
    | with_reducible refine mem_ite ?_ ?_
    | with_reducible refine mem_foldl ?_ (fun _ _ _ => ?_)
    | with_reducible refine mem_fieldAction ?_ (fun _ _ _ _ => ?_)
    | with_reducible refine mem_lateField ?_
    | with_reducible refine mem_getD (fun _ e => mem_sramFault ?_ e) ?_
    | with_reducible refine mem_sramFault ?_ ‹_›
    | with_reducible refine mem_scanVector ?_
    | split

@[simp] theorem mem_servo {x0 : State} {x1 : PtpMsg} {x2 : Int} (h0 : x0.mem = mm) : (servo x0 x1 x2).mem = mm := by
  unfold servo
  try dsimp only
  repeat' first
    | with_reducible assumption
    | with_reducible refine mem_ite ?_ ?_
    | with_reducible refine mem_foldl ?_ (fun _ _ _ => ?_)
    | with_reducible refine mem_draw ?_
    | with_reducible refine mem_setFld ?_
    | split

@[simp] theorem mem_showAlt {x0 : State} (h0 : x0.mem = mm) : (showAlt x0).mem = mm := by
  unfold showAlt
  simp (maxDischargeDepth := 40) +contextual [*]

@[simp] theorem mem_syncMarks {x0 : State} {x1 : Nat} {x2 : PtpMsg} (h0 : x0.mem = mm) : (syncMarks x0 x1 x2).mem = mm := by
  unfold syncMarks
  dsimp only
  exact mem_updLnk h0

@[simp] theorem mem_syncTake {x0 : State} {x1 : Nat} {x2 : PtpMsg} (h0 : x0.mem = mm) : (syncTake x0 x1 x2).mem = mm := by
  unfold syncTake
  try dsimp only
  repeat' first
    | with_reducible assumption
    | with_reducible refine mem_ite ?_ ?_
    | with_reducible refine mem_foldl ?_ (fun _ _ _ => ?_)
    | with_reducible refine mem_syncMarks ?_
    | with_reducible refine mem_takePort ?_
    | with_reducible refine mem_setFld ?_
    | with_reducible refine mem_servo ?_
    | with_reducible refine mem_showAlt ?_
    | split

@[simp] theorem mem_syncDone {x0 : State} {x1 : Nat} {x2 : PtpMsg} (h0 : x0.mem = mm) : (syncDone x0 x1 x2).mem = mm := by
  unfold syncDone
  simp (maxDischargeDepth := 40) +contextual [*]

theorem mem_execFollowUpReceived {x0 : Nat} {x1 : PtpMsg} {x2 : State} (h2 : x2.mem = mm) : MemOut mm (execFollowUpReceived x0 x1 x2) := by
  unfold execFollowUpReceived
  try dsimp only
  repeat' first
    | with_reducible assumption
    | with_reducible refine memOut_next ?_
    | with_reducible refine memOut_ite ?_ ?_
    | with_reducible refine mem_ite ?_ ?_
    | with_reducible refine mem_foldl ?_ (fun _ _ _ => ?_)
    | with_reducible refine mem_ptpDiscard ?_
    | with_reducible refine mem_syncDone ?_
    | split

@[simp] theorem mem_hostRead {x0 : State} {x1 : Nat} (h0 : x0.mem = mm) : (hostRead x0 x1).mem = mm := by
  unfold hostRead
  simp (maxDischargeDepth := 40) +contextual [*]

theorem mem_execFtNsLoRead {x0 : State} (h0 : x0.mem = mm) : MemOut mm (execFtNsLoRead x0) := by
  unfold execFtNsLoRead
  simp (maxDischargeDepth := 40) +contextual [*]

theorem mem_execGetInfo {x0 : Nat} {x1 : State} (h1 : x1.mem = mm) : MemOut mm (execGetInfo x0 x1) := by
  unfold execGetInfo
  simp (maxDischargeDepth := 40) +contextual [*]

theorem mem_execHbmStackTrained {x0 : Nat} {x1 : State} (h1 : x1.mem = mm) : MemOut mm (execHbmStackTrained x0 x1) := by
  unfold execHbmStackTrained
  simp (maxDischargeDepth := 40) +contextual [*]

theorem mem_execHeaderCheckpoint {x0 : State} (h0 : x0.mem = mm) : MemOut mm (execHeaderCheckpoint x0) := by
  unfold execHeaderCheckpoint
  simp (maxDischargeDepth := 40) +contextual [*]

theorem mem_execHealthRead {x0 : Nat} {x1 : State} (h1 : x1.mem = mm) : MemOut mm (execHealthRead x0 x1) := by
  unfold execHealthRead
  simp (maxDischargeDepth := 40) +contextual [*]

@[simp] theorem mem_helloIdentify {x0 : State} {x1 : Nat} {x2 : Hello} (h0 : x0.mem = mm) : (helloIdentify x0 x1 x2).mem = mm := by
  unfold helloIdentify
  simp (maxDischargeDepth := 40) +contextual [*]

theorem mem_execHello {x0 : Nat} {x1 : List Byte} {x2 : State} (h2 : x2.mem = mm) : MemOut mm (execHello x0 x1 x2) := by
  unfold execHello
  try dsimp only
  repeat' first
    | with_reducible assumption
    | with_reducible refine memOut_next ?_
    | with_reducible refine memOut_ite ?_ ?_
    | with_reducible refine mem_ite ?_ ?_
    | with_reducible refine mem_foldl ?_ (fun _ _ _ => ?_)
    | with_reducible refine mem_count ?_
    | with_reducible refine mem_rowState ?_
    | with_reducible refine mem_helloIdentify ?_
    | with_reducible refine mem_updLnk ?_
    | split

theorem mem_execHelloSend {x0 : Nat} {x1 : State} (h1 : x1.mem = mm) : MemOut mm (execHelloSend x0 x1) := by
  unfold execHelloSend
  simp (maxDischargeDepth := 40) +contextual [*]

theorem mem_execHelloTimeout {x0 : Nat} {x1 : State} (h1 : x1.mem = mm) : MemOut mm (execHelloTimeout x0 x1) := by
  unfold execHelloTimeout
  simp (maxDischargeDepth := 40) +contextual [*]

theorem mem_execHoldLeftExpire {x0 : State} (h0 : x0.mem = mm) : MemOut mm (execHoldLeftExpire x0) := by
  unfold execHoldLeftExpire
  simp (maxDischargeDepth := 40) +contextual [*]

theorem mem_execIdentityRead {x0 : Nat} {x1 : State} (h1 : x1.mem = mm) : MemOut mm (execIdentityRead x0 x1) := by
  unfold execIdentityRead
  simp (maxDischargeDepth := 40) +contextual [*]

theorem mem_execIntMaskWrite {x0 : Word} {x1 : State} (h1 : x1.mem = mm) : MemOut mm (execIntMaskWrite x0 x1) := by
  unfold execIntMaskWrite
  simp (maxDischargeDepth := 40) +contextual [*]

theorem mem_execIntWindowEnd {x0 : Nat} {x1 : State} (h1 : x1.mem = mm) : MemOut mm (execIntWindowEnd x0 x1) := by
  unfold execIntWindowEnd
  try dsimp only
  repeat' first
    | with_reducible assumption
    | with_reducible refine memOut_next ?_
    | with_reducible refine memOut_ite ?_ ?_
    | with_reducible refine mem_ite ?_ ?_
    | with_reducible refine mem_foldl ?_ (fun _ _ _ => ?_)
    | split

@[simp] theorem mem_mbxAccess {s : State} {m : Nat} {src : Option Nat} {g : State → State} (h : s.mem = mm)
    (hg : ∀ t, t.mem = mm → (g t).mem = mm) :
    (mbxAccess s m src g).mem = mm := by
  unfold mbxAccess
  cases src <;> dsimp only <;> repeat' first
    | with_reducible assumption
    | with_reducible refine mem_ite ?_ ?_
    | with_reducible refine mem_hostDenied ?_
    | with_reducible refine mem_count ?_
    | with_reducible refine hg _ ?_

theorem mem_execJobAck {x0 : Nat} {x1 : Nat} {x2 : Option Nat} {x3 : State} (h3 : x3.mem = mm) : MemOut mm (execJobAck x0 x1 x2 x3) := by
  unfold execJobAck
  simp (maxDischargeDepth := 40) +contextual [*]

@[simp] theorem mem_keyLater {x0 : State} {x1 : Nat} {x2 : Option KeySlot} (h0 : x0.mem = mm) : (keyLater x0 x1 x2).mem = mm := by
  unfold keyLater
  simp (maxDischargeDepth := 40) +contextual [*]

theorem mem_execKeySlotClear {x0 : Nat} {x1 : State} (h1 : x1.mem = mm) : MemOut mm (execKeySlotClear x0 x1) := by
  unfold execKeySlotClear
  simp (maxDischargeDepth := 40) +contextual [*]

theorem mem_execKeySlotWrite {x0 : Nat} {x1 : State} (h1 : x1.mem = mm) : MemOut mm (execKeySlotWrite x0 x1) := by
  unfold execKeySlotWrite
  simp (maxDischargeDepth := 40) +contextual [*]

theorem mem_execKvRecvClose {x0 : Nat} {x1 : State} (h1 : x1.mem = mm) : MemOut mm (execKvRecvClose x0 x1) := by
  unfold execKvRecvClose
  simp (maxDischargeDepth := 40) +contextual [*]

@[simp] theorem mem_useFrame {x0 : State} {x1 : Nat} {x2 : Nat} (h0 : x0.mem = mm) : (useFrame x0 x1 x2).mem = mm := by
  unfold useFrame
  simp (maxDischargeDepth := 40) +contextual [*]

@[simp] theorem mem_useRun {x0 : State} {x1 : Nat} {x2 : Nat} {x3 : Nat} (h0 : x0.mem = mm) : (useRun x0 x1 x2 x3).mem = mm := by
  unfold useRun
  simp (maxDischargeDepth := 40) +contextual [*]

@[simp] theorem mem_openRange {x0 : List Byte} {x1 : State} (h1 : x1.mem = mm) : (openRange x0 x1).1.mem = mm := by
  unfold openRange
  try dsimp only
  repeat' first
    | with_reducible assumption
    | with_reducible refine mem_ite ?_ ?_
    | with_reducible refine mem_foldl ?_ (fun _ _ _ => ?_)
    | with_reducible refine mem_useRun ?_
    | split

@[simp] theorem mem_recordOpen {x0 : Nat} {x1 : State} {x2 : State} (h1 : x1.mem = mm) (h2 : x2.mem = mm) : (recordOpen x0 x1 x2).mem = mm := by
  unfold recordOpen
  simp (maxDischargeDepth := 40) +contextual [*]

theorem mem_execKvRecvOpen {x0 : Nat} {x1 : State} (h1 : x1.mem = mm) : MemOut mm (execKvRecvOpen x0 x1) := by
  unfold execKvRecvOpen
  simp (maxDischargeDepth := 40) +contextual [*]

@[simp] theorem mem_retrainLink {x0 : State} {x1 : Nat} (h0 : x0.mem = mm) : (retrainLink x0 x1).mem = mm := by
  unfold retrainLink
  simp (maxDischargeDepth := 40) +contextual [*]

@[simp] theorem mem_laneFail {x0 : State} {x1 : Nat} {x2 : Nat} (h0 : x0.mem = mm) : (laneFail x0 x1 x2).mem = mm := by
  unfold laneFail
  simp (maxDischargeDepth := 40) +contextual [*]

theorem mem_execLaneFail {x0 : Nat} {x1 : Nat} {x2 : State} (h2 : x2.mem = mm) : MemOut mm (execLaneFail x0 x1 x2) := by
  unfold execLaneFail
  simp (maxDischargeDepth := 40) +contextual [*]

theorem mem_execLinkAdmit {x0 : Nat} {x1 : State} (h1 : x1.mem = mm) : MemOut mm (execLinkAdmit x0 x1) := by
  unfold execLinkAdmit
  simp (maxDischargeDepth := 40) +contextual [*]

theorem mem_execManagerAlive {x0 : Nat} {x1 : Nat} {x2 : Nat} {x3 : State} (h3 : x3.mem = mm) : MemOut mm (execManagerAlive x0 x1 x2 x3) := by
  unfold execManagerAlive
  simp (maxDischargeDepth := 40) +contextual [*]

theorem mem_execManagerAliveSend {x0 : State} (h0 : x0.mem = mm) : MemOut mm (execManagerAliveSend x0) := by
  unfold execManagerAliveSend
  try dsimp only
  repeat' first
    | with_reducible assumption
    | with_reducible refine memOut_next ?_
    | with_reducible refine memOut_ite ?_ ?_
    | with_reducible refine mem_ite ?_ ?_
    | with_reducible refine mem_foldl ?_ (fun _ _ _ => ?_)
    | with_reducible refine mem_sendCtrl ?_
    | split

@[simp] theorem mem_takeMap {x0 : State} {x1 : List Byte} {x2 : Nat} {x3 : Option (Nat × Nat)} (h0 : x0.mem = mm) : (takeMap x0 x1 x2 x3).mem = mm := by
  unfold takeMap
  simp (maxDischargeDepth := 40) +contextual [*]

@[simp] theorem mem_installMap {x0 : Nat} {x1 : List Byte} {x2 : Nat} {x3 : State} (h3 : x3.mem = mm) : (installMap x0 x1 x2 x3).mem = mm := by
  unfold installMap
  simp (maxDischargeDepth := 40) +contextual [*]

theorem mem_execMapInstall {x0 : Nat} {x1 : State} (h1 : x1.mem = mm) : MemOut mm (execMapInstall x0 x1) := by
  unfold execMapInstall
  simp (maxDischargeDepth := 40) +contextual [*]

@[simp] theorem mem_sendNotices {x0 : State} {x1 : TopoMap} (h0 : x0.mem = mm) : (sendNotices x0 x1).mem = mm := by
  unfold sendNotices
  simp (maxDischargeDepth := 40) +contextual [*]

theorem mem_execMapNoticeResend {x0 : State} (h0 : x0.mem = mm) : MemOut mm (execMapNoticeResend x0) := by
  unfold execMapNoticeResend
  try dsimp only
  repeat' first
    | with_reducible assumption
    | with_reducible refine memOut_next ?_
    | with_reducible refine memOut_ite ?_ ?_
    | with_reducible refine mem_ite ?_ ?_
    | with_reducible refine mem_foldl ?_ (fun _ _ _ => ?_)
    | with_reducible refine mem_sendNotices ?_
    | split

@[simp] theorem mem_joinCheck {x0 : State} (h0 : x0.mem = mm) : (joinCheck x0).mem = mm := by
  unfold joinCheck
  simp (maxDischargeDepth := 40) +contextual [*]

@[simp] theorem mem_mapTime {x0 : State} {x1 : TopoMap} (h0 : x0.mem = mm) : (mapTime x0 x1).mem = mm := by
  unfold mapTime
  simp (maxDischargeDepth := 40) +contextual [*]

@[simp] theorem mem_openLinks {x0 : State} (h0 : x0.mem = mm) : (openLinks x0).mem = mm := by
  unfold openLinks
  simp (maxDischargeDepth := 40) +contextual [*]

@[simp] theorem mem_loadedCheck {x0 : State} (h0 : x0.mem = mm) : (loadedCheck x0).mem = mm := by
  unfold loadedCheck
  simp (maxDischargeDepth := 40) +contextual [*]

@[simp] theorem mem_relockCheck {x0 : State} {x1 : State} (h0 : x0.mem = mm) (h1 : x1.mem = mm) : (relockCheck x0 x1).mem = mm := by
  unfold relockCheck
  simp (maxDischargeDepth := 40) +contextual [*]

@[simp] theorem mem_restartChecks {x0 : State} (h0 : x0.mem = mm) : (restartChecks x0).mem = mm := by
  unfold restartChecks
  try dsimp only
  repeat' first
    | with_reducible assumption
    | with_reducible refine mem_ite ?_ ?_
    | with_reducible refine mem_foldl ?_ (fun _ _ _ => ?_)
    | with_reducible refine mem_updLnk ?_
    | with_reducible refine mem_setLink ?_
    | split

@[simp] theorem mem_takePosition {x0 : State} (h0 : x0.mem = mm) : (takePosition x0).mem = mm := by
  unfold takePosition
  try dsimp only
  repeat' first
    | with_reducible assumption
    | with_reducible refine mem_ite ?_ ?_
    | with_reducible refine mem_foldl ?_ (fun _ _ _ => ?_)
    | with_reducible refine mem_setFld ?_
    | split

theorem mem_execMapObey {x0 : State} (h0 : x0.mem = mm) : MemOut mm (execMapObey x0) := by
  unfold execMapObey
  try dsimp only
  repeat' first
    | with_reducible assumption
    | with_reducible refine memOut_next ?_
    | with_reducible refine memOut_ite ?_ ?_
    | with_reducible refine mem_ite ?_ ?_
    | with_reducible refine mem_foldl ?_ (fun _ _ _ => ?_)
    | with_reducible refine mem_setFld ?_
    | with_reducible refine mem_takePosition ?_
    | with_reducible refine mem_openLinks ?_
    | with_reducible refine mem_restartChecks ?_
    | with_reducible refine mem_joinCheck ?_
    | with_reducible refine mem_relockCheck ?_ ?_
    | with_reducible refine mem_mapTime ?_
    | with_reducible refine mem_finish ?_
    | with_reducible refine mem_prepareTakeover ?_
    | split

@[simp] theorem mem_publishMap {x0 : Nat} {x1 : List Byte} {x2 : Nat} {x3 : State} (h3 : x3.mem = mm) : (publishMap x0 x1 x2 x3).mem = mm := by
  unfold publishMap
  simp (maxDischargeDepth := 40) +contextual [*]

theorem mem_execMapPublish {x0 : Nat} {x1 : State} (h1 : x1.mem = mm) : MemOut mm (execMapPublish x0 x1) := by
  unfold execMapPublish
  simp (maxDischargeDepth := 40) +contextual [*]

theorem mem_execMbxCmdWrite {x0 : Nat} {x1 : Nat} {x2 : List Byte} {x3 : Option Nat} {x4 : State} (h4 : x4.mem = mm) : MemOut mm (execMbxCmdWrite x0 x1 x2 x3 x4) := by
  unfold execMbxCmdWrite
  simp (maxDischargeDepth := 40) +contextual [*]

theorem mem_execMbxGo {x0 : Nat} {x1 : Option Nat} {x2 : State} (h2 : x2.mem = mm) : MemOut mm (execMbxGo x0 x1 x2) := by
  unfold execMbxGo
  simp (maxDischargeDepth := 40) +contextual [*]

@[simp] theorem mem_returnFrame {x0 : State} {x1 : Nat} {x2 : Nat} (h0 : x0.mem = mm) : (returnFrame x0 x1 x2).mem = mm := by
  unfold returnFrame
  simp (maxDischargeDepth := 40) +contextual [*]

@[simp] theorem mem_startMoves {x0 : State} {x1 : Nat} (h0 : x0.mem = mm) : (startMoves x0 x1).mem = mm := by
  unfold startMoves
  try dsimp only
  repeat' first
    | with_reducible assumption
    | with_reducible refine mem_ite ?_ ?_
    | with_reducible refine mem_foldl ?_ (fun _ _ _ => ?_)
    | with_reducible refine mem_updSide ?_
    | with_reducible refine mem_useFrame ?_
    | split

@[simp] theorem mem_updMove {x0 : State} {x1 : Nat} {x2 : Nat} {x3 : Migr → List Migr} (h0 : x0.mem = mm) : (updMove x0 x1 x2 x3).mem = mm := by
  unfold updMove
  simp (maxDischargeDepth := 40) +contextual [*]

theorem mem_execOldFrameReturn {x0 : Nat} {x1 : Nat} {x2 : State} (h2 : x2.mem = mm) : MemOut mm (execOldFrameReturn x0 x1 x2) := by
  unfold execOldFrameReturn
  try dsimp only
  repeat' first
    | with_reducible assumption
    | with_reducible refine memOut_next ?_
    | with_reducible refine memOut_ite ?_ ?_
    | with_reducible refine mem_ite ?_ ?_
    | with_reducible refine mem_foldl ?_ (fun _ _ _ => ?_)
    | with_reducible refine mem_startMoves ?_
    | with_reducible refine mem_returnFrame ?_
    | with_reducible refine mem_updMove ?_
    | split

@[simp] theorem mem_installPatch {x0 : Nat} {x1 : List Byte} {x2 : Nat} {x3 : State} (h3 : x3.mem = mm) : (installPatch x0 x1 x2 x3).mem = mm := by
  unfold installPatch
  simp (maxDischargeDepth := 40) +contextual [*]

theorem mem_execPatchInstall {x0 : Nat} {x1 : State} (h1 : x1.mem = mm) : MemOut mm (execPatchInstall x0 x1) := by
  unfold execPatchInstall
  simp (maxDischargeDepth := 40) +contextual [*]

theorem mem_execPatrolScrub {x0 : Nat} {x1 : Nat} {x2 : Nat} {x3 : State} (h3 : x3.mem = mm) : MemOut mm (execPatrolScrub x0 x1 x2 x3) := by
  unfold execPatrolScrub
  try dsimp only
  repeat' first
    | with_reducible assumption
    | with_reducible refine memOut_next ?_
    | with_reducible refine memOut_ite ?_ ?_
    | with_reducible refine mem_ite ?_ ?_
    | with_reducible refine mem_foldl ?_ (fun _ _ _ => ?_)
    | with_reducible refine mem_count ?_
    | with_reducible refine mem_readUe ?_
    | with_reducible refine mem_setFld ?_
    | split

theorem mem_execPcsAligned {x0 : Nat} {x1 : Nat} {x2 : Nat} {x3 : State} (h3 : x3.mem = mm) : MemOut mm (execPcsAligned x0 x1 x2 x3) := by
  unfold execPcsAligned
  simp (maxDischargeDepth := 40) +contextual [*]

theorem mem_execPdelayReqReceived {x0 : Nat} {x1 : PtpMsg} {x2 : State} (h2 : x2.mem = mm) : MemOut mm (execPdelayReqReceived x0 x1 x2) := by
  unfold execPdelayReqReceived
  simp (maxDischargeDepth := 40) +contextual [*]

theorem mem_execPdelayReqSend {x0 : Nat} {x1 : State} (h1 : x1.mem = mm) : MemOut mm (execPdelayReqSend x0 x1) := by
  unfold execPdelayReqSend
  simp (maxDischargeDepth := 40) +contextual [*]

@[simp] theorem mem_takeDelay {x0 : State} {x1 : Nat} {x2 : Int} (h0 : x0.mem = mm) : (takeDelay x0 x1 x2).mem = mm := by
  unfold takeDelay
  simp (maxDischargeDepth := 40) +contextual [*]

theorem mem_execPdelayRespFuReceived {x0 : Nat} {x1 : PtpMsg} {x2 : State} (h2 : x2.mem = mm) : MemOut mm (execPdelayRespFuReceived x0 x1 x2) := by
  unfold execPdelayRespFuReceived
  try dsimp only
  repeat' first
    | with_reducible assumption
    | with_reducible refine memOut_next ?_
    | with_reducible refine memOut_ite ?_ ?_
    | with_reducible refine mem_ite ?_ ?_
    | with_reducible refine mem_foldl ?_ (fun _ _ _ => ?_)
    | with_reducible refine mem_ptpDiscard ?_
    | with_reducible refine mem_takeDelay ?_
    | split

theorem mem_execPdelayRespReceived {x0 : Nat} {x1 : PtpMsg} {x2 : State} (h2 : x2.mem = mm) : MemOut mm (execPdelayRespReceived x0 x1 x2) := by
  unfold execPdelayRespReceived
  simp (maxDischargeDepth := 40) +contextual [*]

theorem mem_execPhyTrainTimeout {x0 : Nat} {x1 : State} (h1 : x1.mem = mm) : MemOut mm (execPhyTrainTimeout x0 x1) := by
  unfold execPhyTrainTimeout
  simp (maxDischargeDepth := 40) +contextual [*]

theorem mem_execPlacementWindowClose {x0 : Nat} {x1 : List Nat} {x2 : List (Nat × Nat)} {x3 : State} (h3 : x3.mem = mm) : MemOut mm (execPlacementWindowClose x0 x1 x2 x3) := by
  unfold execPlacementWindowClose
  simp (maxDischargeDepth := 40) +contextual [*]

theorem mem_execPmbAlert {x0 : State} (h0 : x0.mem = mm) : MemOut mm (execPmbAlert x0) := by
  unfold execPmbAlert
  simp (maxDischargeDepth := 40) +contextual [*]

theorem mem_execPowerCap {x0 : Nat} {x1 : State} (h1 : x1.mem = mm) : MemOut mm (execPowerCap x0 x1) := by
  unfold execPowerCap
  simp (maxDischargeDepth := 40) +contextual [*]

@[simp] theorem mem_protLater {x0 : State} {x1 : Nat} {x2 : Option (Nat × Nat)} (h0 : x0.mem = mm) : (protLater x0 x1 x2).mem = mm := by
  unfold protLater
  simp (maxDischargeDepth := 40) +contextual [*]

theorem mem_execProtectClear {x0 : Nat} {x1 : State} (h1 : x1.mem = mm) : MemOut mm (execProtectClear x0 x1) := by
  unfold execProtectClear
  simp (maxDischargeDepth := 40) +contextual [*]

theorem mem_execProtectSet {x0 : Nat} {x1 : State} (h1 : x1.mem = mm) : MemOut mm (execProtectSet x0 x1) := by
  unfold execProtectSet
  simp (maxDischargeDepth := 40) +contextual [*]

theorem mem_execRangeChange {x0 : Nat} {x1 : State} (h1 : x1.mem = mm) : MemOut mm (execRangeChange x0 x1) := by
  unfold execRangeChange
  try dsimp only
  repeat' first
    | with_reducible assumption
    | with_reducible refine memOut_next ?_
    | with_reducible refine memOut_ite ?_ ?_
    | with_reducible refine mem_ite ?_ ?_
    | with_reducible refine mem_foldl ?_ (fun _ _ _ => ?_)
    | with_reducible refine mem_updTile ?_
    | with_reducible refine mem_setFld ?_
    | split

theorem mem_execRangeWindowClose {n : Nat} {s : State} (h : s.mem = mm) : MemOut mm (execRangeWindowClose n s) := by
  unfold execRangeWindowClose
  dsimp only
  split
  · exact h
  · repeat' first
      | with_reducible assumption
      | with_reducible refine memOut_ite ?_ ?_
      | with_reducible refine memOut_next ?_
      | with_reducible refine mem_updTile ?_
      | with_reducible refine mem_setFld ?_

theorem mem_execReadClear {x0 : Nat} {x1 : State} (h1 : x1.mem = mm) : MemOut mm (execReadClear x0 x1) := by
  unfold execReadClear
  simp (maxDischargeDepth := 40) +contextual [*]

@[simp] theorem mem_refStart {x0 : Nat} {x1 : List Byte} {x2 : Nat} {x3 : State} (h3 : x3.mem = mm) : (refStart x0 x1 x2 x3).mem = mm := by
  unfold refStart
  simp (maxDischargeDepth := 40) +contextual [*]

theorem mem_execRefRun {x0 : Nat} {x1 : State} (h1 : x1.mem = mm) : MemOut mm (execRefRun x0 x1) := by
  unfold execRefRun
  simp (maxDischargeDepth := 40) +contextual [*]

theorem mem_execRefreshOverdue {x0 : Nat} {x1 : State} (h1 : x1.mem = mm) : MemOut mm (execRefreshOverdue x0 x1) := by
  unfold execRefreshOverdue
  simp (maxDischargeDepth := 40) +contextual [*]

theorem mem_execRefreshPending {x0 : Nat} {x1 : State} (h1 : x1.mem = mm) : MemOut mm (execRefreshPending x0 x1) := by
  unfold execRefreshPending
  simp (maxDischargeDepth := 40) +contextual [*]

theorem mem_execRegisterWrite {x0 : Nat} {x1 : Word} {x2 : State} (h2 : x2.mem = mm) : MemOut mm (execRegisterWrite x0 x1 x2) := by
  unfold execRegisterWrite
  simp (maxDischargeDepth := 40) +contextual [*]

theorem mem_execRejoin {x0 : Nat} {x1 : State} (h1 : x1.mem = mm) : MemOut mm (execRejoin x0 x1) := by
  unfold execRejoin
  simp (maxDischargeDepth := 40) +contextual [*]

@[simp] theorem mem_remoteStart {x0 : Nat} {x1 : List Byte} {x2 : Nat} {x3 : State} (h3 : x3.mem = mm) : (remoteStart x0 x1 x2 x3).mem = mm := by
  unfold remoteStart
  simp (maxDischargeDepth := 40) +contextual [*]

theorem mem_execRemoteOp {x0 : Nat} {x1 : State} (h1 : x1.mem = mm) : MemOut mm (execRemoteOp x0 x1) := by
  unfold execRemoteOp
  simp (maxDischargeDepth := 40) +contextual [*]

theorem mem_execRerunCommit {x0 : Nat} {x1 : Nat} {x2 : Bool} {x3 : State} (h3 : x3.mem = mm) : MemOut mm (execRerunCommit x0 x1 x2 x3) := by
  unfold execRerunCommit
  try dsimp only
  repeat' first
    | with_reducible assumption
    | with_reducible refine memOut_next ?_
    | with_reducible refine memOut_ite ?_ ?_
    | with_reducible refine mem_ite ?_ ?_
    | with_reducible refine mem_foldl ?_ (fun _ _ _ => ?_)
    | with_reducible refine mem_atSlot ?_
    | with_reducible refine mem_count ?_
    | with_reducible refine mem_addLanes ?_
    | split

theorem mem_execRoceAck {x0 : Nat} {x1 : Nat} {x2 : State} (h2 : x2.mem = mm) : MemOut mm (execRoceAck x0 x1 x2) := by
  unfold execRoceAck
  simp (maxDischargeDepth := 40) +contextual [*]

@[simp] theorem mem_goBack {x0 : State} {x1 : Nat} (h0 : x0.mem = mm) : (goBack x0 x1).mem = mm := by
  unfold goBack
  try dsimp only
  repeat' first
    | with_reducible assumption
    | with_reducible refine mem_ite ?_ ?_
    | with_reducible refine mem_foldl ?_ (fun _ _ _ => ?_)
    | with_reducible refine mem_sendReads ?_
    | with_reducible refine mem_count ?_
    | split

@[simp] theorem mem_retryOrDrop {x0 : State} {x1 : Nat} (h0 : x0.mem = mm) : (retryOrDrop x0 x1).mem = mm := by
  unfold retryOrDrop
  try dsimp only
  repeat' first
    | with_reducible assumption
    | with_reducible refine mem_ite ?_ ?_
    | with_reducible refine mem_foldl ?_ (fun _ _ _ => ?_)
    | with_reducible refine mem_goBack ?_
    | with_reducible refine mem_count ?_
    | with_reducible refine mem_endFetch ?_
    | with_reducible refine mem_sendReads ?_
    | split

theorem mem_execRoceNak {x0 : Nat} {x1 : Nat} {x2 : State} (h2 : x2.mem = mm) : MemOut mm (execRoceNak x0 x1 x2) := by
  unfold execRoceNak
  try dsimp only
  repeat' first
    | with_reducible assumption
    | with_reducible refine memOut_next ?_
    | with_reducible refine memOut_ite ?_ ?_
    | with_reducible refine mem_ite ?_ ?_
    | with_reducible refine mem_foldl ?_ (fun _ _ _ => ?_)
    | with_reducible refine mem_afterFetch ?_
    | with_reducible refine mem_retryOrDrop ?_
    | split

theorem mem_execRoceTimeout {x0 : Nat} {x1 : State} (h1 : x1.mem = mm) : MemOut mm (execRoceTimeout x0 x1) := by
  unfold execRoceTimeout
  simp (maxDischargeDepth := 40) +contextual [*]

theorem mem_execRomBootDone {x0 : State} (h0 : x0.mem = mm) : MemOut mm (execRomBootDone x0) := by
  unfold execRomBootDone
  simp (maxDischargeDepth := 40) +contextual [*]

theorem mem_execRouterLost {x0 : Nat} {x1 : Nat} {x2 : State} (h2 : x2.mem = mm) : MemOut mm (execRouterLost x0 x1 x2) := by
  unfold execRouterLost
  simp (maxDischargeDepth := 40) +contextual [*]

theorem mem_execSSlotDrive {x0 : Nat} {x1 : Nat} {x2 : List Int} {x3 : State} (h3 : x3.mem = mm) : MemOut mm (execSSlotDrive x0 x1 x2 x3) := by
  unfold execSSlotDrive
  try dsimp only
  repeat' first
    | with_reducible assumption
    | with_reducible refine memOut_next ?_
    | with_reducible refine memOut_ite ?_ ?_
    | with_reducible refine mem_ite ?_ ?_
    | with_reducible refine mem_foldl ?_ (fun _ _ _ => ?_)
    | with_reducible refine mem_atSlot ?_
    | with_reducible refine mem_fieldDown ?_
    | with_reducible refine mem_updTile ?_
    | with_reducible refine mem_failStep ?_
    | with_reducible refine mem_count ?_
    | with_reducible refine mem_drivePart ?_
    | split

@[simp] theorem mem_startCheck {x0 : State} {x1 : Nat} (h0 : x0.mem = mm) : (startCheck x0 x1).mem = mm := by
  unfold startCheck
  simp (maxDischargeDepth := 40) +contextual [*]

theorem mem_execSampledCheckStart {x0 : State} (h0 : x0.mem = mm) : MemOut mm (execSampledCheckStart x0) := by
  unfold execSampledCheckStart
  simp (maxDischargeDepth := 40) +contextual [*]

@[simp] theorem mem_nextFrame {x0 : State} (h0 : x0.mem = mm) : (nextFrame x0).mem = mm := by
  unfold nextFrame
  simp (maxDischargeDepth := 40) +contextual [*]

@[simp] theorem mem_markBuf {x0 : State} {x1 : Nat} {x2 : Nat} {x3 : Bool} (h0 : x0.mem = mm) : (markBuf x0 x1 x2 x3).mem = mm := by
  unfold markBuf
  simp (maxDischargeDepth := 40) +contextual [*]

theorem mem_rxDiscard {x0 : State} {x1 : Nat} {x2 : RxIn} {x3 : Nat} {x4 : Bool} {y : State} (h0 : x0.mem = mm) (e : rxDiscard x0 x1 x2 x3 x4 = some y) : y.mem = mm := by
  unfold rxDiscard at e
  dsimp only at e
  repeat' split at e
  all_goals first | (cases e; with_reducible exact mem_count h0) | cases e

@[simp] theorem mem_setBuf {x0 : State} {x1 : Nat} {x2 : Option Buf} (h0 : x0.mem = mm) : (setBuf x0 x1 x2).mem = mm := by
  unfold setBuf
  simp (maxDischargeDepth := 40) +contextual [*]

theorem mem_execSchedFrame {x0 : Nat} {x1 : Nat} {x2 : SchedFrame} {x3 : State} (h3 : x3.mem = mm) : MemOut mm (execSchedFrame x0 x1 x2 x3) := by
  unfold execSchedFrame
  try dsimp only
  repeat' first
    | with_reducible assumption
    | with_reducible refine memOut_next ?_
    | with_reducible refine memOut_ite ?_ ?_
    | with_reducible refine mem_ite ?_ ?_
    | with_reducible refine mem_foldl ?_ (fun _ _ _ => ?_)
    | with_reducible refine mem_getD (fun _ e => mem_rxDiscard ?_ e) ?_
    | with_reducible refine mem_rxDiscard ?_ ‹_›
    | with_reducible refine mem_updLnk ?_
    | with_reducible refine mem_atSlot ?_
    | with_reducible refine mem_count ?_
    | with_reducible refine mem_dropCounted ?_
    | with_reducible refine mem_markBuf ?_
    | with_reducible refine mem_nextFrame ?_
    | with_reducible refine mem_setBuf ?_
    | split

@[simp] theorem mem_placeImages {x0 : List Byte} {x1 : List Byte} {x2 : List Byte} {x3 : State} (h3 : x3.mem = mm) : (placeImages x0 x1 x2 x3).mem = mm := by
  unfold placeImages
  simp (maxDischargeDepth := 40) +contextual [*]

@[simp] theorem mem_setUnitGen {x0 : State} {x1 : Nat} {x2 : Nat} (h0 : x0.mem = mm) : (setUnitGen x0 x1 x2).mem = mm := by
  unfold setUnitGen
  simp (maxDischargeDepth := 40) +contextual [*]

@[simp] theorem mem_takeImages {x0 : List Byte} {x1 : List Byte} {x2 : List Byte} {x3 : State} (h3 : x3.mem = mm) : (takeImages x0 x1 x2 x3).mem = mm := by
  unfold takeImages
  simp (maxDischargeDepth := 40) +contextual [*]

@[simp] theorem mem_runInstall {x0 : State} {x1 : Nat} {x2 : Nat} (h0 : x0.mem = mm) : (runInstall x0 x1 x2).mem = mm := by
  unfold runInstall
  try dsimp only
  repeat' first
    | with_reducible assumption
    | with_reducible refine mem_ite ?_ ?_
    | with_reducible refine mem_foldl ?_ (fun _ _ _ => ?_)
    | with_reducible refine mem_jobDone ?_
    | with_reducible refine mem_readUe ?_
    | with_reducible refine mem_placeImages ?_
    | with_reducible refine mem_loadedCheck ?_
    | with_reducible refine mem_takeImages ?_
    | with_reducible refine mem_requestPower ?_
    | split

theorem mem_execSchedInstall {x0 : Nat} {x1 : State} (h1 : x1.mem = mm) : MemOut mm (execSchedInstall x0 x1) := by
  unfold execSchedInstall
  simp (maxDischargeDepth := 40) +contextual [*]

@[simp] theorem mem_readSensor {x0 : State} {x1 : Nat} {x2 : Option Int} (h0 : x0.mem = mm) : (readSensor x0 x1 x2).mem = mm := by
  unfold readSensor
  try dsimp only
  repeat' first
    | with_reducible assumption
    | with_reducible refine mem_ite ?_ ?_
    | with_reducible refine mem_foldl ?_ (fun _ _ _ => ?_)
    | with_reducible refine mem_setFld ?_
    | with_reducible refine mem_count ?_
    | split

@[simp] theorem mem_levelStep {x0 : State} {x1 : Nat} {x2 : Int} {x3 : Int} {x4 : Int} {x5 : Fld} (h0 : x0.mem = mm) : (levelStep x0 x1 x2 x3 x4 x5).mem = mm := by
  unfold levelStep
  simp (maxDischargeDepth := 40) +contextual [*]

@[simp] theorem mem_updateTemp {x0 : State} (h0 : x0.mem = mm) : (updateTemp x0).mem = mm := by
  unfold updateTemp
  simp (maxDischargeDepth := 40) +contextual [*]

theorem mem_execSensorFastRead {x0 : Nat} {x1 : Option Int} {x2 : State} (h2 : x2.mem = mm) : MemOut mm (execSensorFastRead x0 x1 x2) := by
  unfold execSensorFastRead
  simp (maxDischargeDepth := 40) +contextual [*]

theorem mem_execSeqNotify {x0 : Nat} {x1 : State} (h1 : x1.mem = mm) : MemOut mm (execSeqNotify x0 x1) := by
  unfold execSeqNotify
  simp (maxDischargeDepth := 40) +contextual [*]

theorem mem_execSeqRead {x0 : Nat} {x1 : State} (h1 : x1.mem = mm) : MemOut mm (execSeqRead x0 x1) := by
  unfold execSeqRead
  simp (maxDischargeDepth := 40) +contextual [*]

theorem mem_execServeBegin {x0 : State} (h0 : x0.mem = mm) : MemOut mm (execServeBegin x0) := by
  unfold execServeBegin
  try dsimp only
  repeat' first
    | with_reducible assumption
    | with_reducible refine memOut_next ?_
    | with_reducible refine memOut_ite ?_ ?_
    | with_reducible refine mem_ite ?_ ?_
    | with_reducible refine mem_foldl ?_ (fun _ _ _ => ?_)
    | with_reducible refine mem_enterState ?_
    | with_reducible refine mem_beginFiring ?_
    | split

theorem mem_execServeStart {x0 : Nat} {x1 : State} (h1 : x1.mem = mm) : MemOut mm (execServeStart x0 x1) := by
  unfold execServeStart
  simp (maxDischargeDepth := 40) +contextual [*]

theorem mem_execServiceClear {x0 : Nat} {x1 : State} (h1 : x1.mem = mm) : MemOut mm (execServiceClear x0 x1) := by
  unfold execServiceClear
  simp (maxDischargeDepth := 40) +contextual [*]

theorem mem_execSetDieId {x0 : Nat} {x1 : State} (h1 : x1.mem = mm) : MemOut mm (execSetDieId x0 x1) := by
  unfold execSetDieId
  simp (maxDischargeDepth := 40) +contextual [*]

theorem mem_execSetRole {x0 : Nat} {x1 : State} (h1 : x1.mem = mm) : MemOut mm (execSetRole x0 x1) := by
  unfold execSetRole
  simp (maxDischargeDepth := 40) +contextual [*]

theorem mem_execShardActivate {x0 : Nat} {x1 : State} (h1 : x1.mem = mm) : MemOut mm (execShardActivate x0 x1) := by
  unfold execShardActivate
  simp (maxDischargeDepth := 40) +contextual [*]

@[simp] theorem mem_startFetch {x0 : State} {x1 : Nat × Nat} {x2 : List Src} (h0 : x0.mem = mm) : (startFetch x0 x1 x2).mem = mm := by
  unfold startFetch
  simp (maxDischargeDepth := 40) +contextual [*]

@[simp] theorem mem_withSources {m k : Nat} {a : List Byte} {s : State} {g : State → List Src → State} (h : s.mem = mm)
    (hg : ∀ t l, t.mem = mm → (g t l).mem = mm) : (withSources m a k s g).mem = mm := by
  unfold withSources
  exact mem_ite (mem_jobDone (mem_readUe h)) (hg _ _ h)

theorem mem_execShardFetch {x0 : Nat} {x1 : State} (h1 : x1.mem = mm) : MemOut mm (execShardFetch x0 x1) := by
  unfold execShardFetch
  simp (maxDischargeDepth := 40) +contextual [*]

theorem mem_execShardRedigest {x0 : State} (h0 : x0.mem = mm) : MemOut mm (execShardRedigest x0) := by
  unfold execShardRedigest
  simp (maxDischargeDepth := 40) +contextual [*]

theorem mem_execShardRepair {x0 : Nat} {x1 : State} (h1 : x1.mem = mm) : MemOut mm (execShardRepair x0 x1) := by
  unfold execShardRepair
  simp (maxDischargeDepth := 40) +contextual [*]

theorem mem_execShedReport {x0 : Nat} {x1 : Nat} {x2 : Nat} {x3 : Nat} {x4 : State} (h4 : x4.mem = mm) : MemOut mm (execShedReport x0 x1 x2 x3 x4) := by
  unfold execShedReport
  simp (maxDischargeDepth := 40) +contextual [*]

theorem mem_execStandbyTakeover {x0 : State} (h0 : x0.mem = mm) : MemOut mm (execStandbyTakeover x0) := by
  unfold execStandbyTakeover
  try dsimp only
  repeat' first
    | with_reducible assumption
    | with_reducible refine memOut_next ?_
    | with_reducible refine memOut_ite ?_ ?_
    | with_reducible refine mem_ite ?_ ?_
    | with_reducible refine mem_foldl ?_ (fun _ _ _ => ?_)
    | with_reducible refine mem_awaitMap ?_
    | with_reducible refine mem_sendNotices ?_
    | split

theorem mem_execSwapStage {x0 : Nat} {x1 : State} (h1 : x1.mem = mm) : MemOut mm (execSwapStage x0 x1) := by
  unfold execSwapStage
  simp (maxDischargeDepth := 40) +contextual [*]

theorem mem_execSyncReceived {x0 : Nat} {x1 : PtpMsg} {x2 : State} (h2 : x2.mem = mm) : MemOut mm (execSyncReceived x0 x1 x2) := by
  unfold execSyncReceived
  simp (maxDischargeDepth := 40) +contextual [*]

theorem mem_execSyncSend {x0 : State} (h0 : x0.mem = mm) : MemOut mm (execSyncSend x0) := by
  unfold execSyncSend
  simp (maxDischargeDepth := 40) +contextual [*]

@[simp] theorem mem_sourceGone {x0 : State} {x1 : Nat} (h0 : x0.mem = mm) : (sourceGone x0 x1).mem = mm := by
  unfold sourceGone
  simp (maxDischargeDepth := 40) +contextual [*]

theorem mem_execSyncSourceTimeout {x0 : Nat} {x1 : State} (h1 : x1.mem = mm) : MemOut mm (execSyncSourceTimeout x0 x1) := by
  unfold execSyncSourceTimeout
  simp (maxDischargeDepth := 40) +contextual [*]

theorem mem_execTestPortAccess {op : TestOp} {s : State} (h : s.mem = mm) : MemOut mm (execTestPortAccess op s) := by
  unfold execTestPortAccess
  split
  · exact h
  · cases op
    · exact h
    · exact mem_blowFuse h
    · exact h
    · exact h

theorem mem_execThermalClear {x0 : Nat} {x1 : State} (h1 : x1.mem = mm) : MemOut mm (execThermalClear x0 x1) := by
  unfold execThermalClear
  simp (maxDischargeDepth := 40) +contextual [*]

theorem mem_execTileDrive {x0 : Nat} {x1 : Nat} {x2 : List Int} {x3 : State} (h3 : x3.mem = mm) : MemOut mm (execTileDrive x0 x1 x2 x3) := by
  unfold execTileDrive
  try dsimp only
  repeat' first
    | with_reducible assumption
    | with_reducible refine memOut_next ?_
    | with_reducible refine memOut_ite ?_ ?_
    | with_reducible refine mem_ite ?_ ?_
    | with_reducible refine mem_foldl ?_ (fun _ _ _ => ?_)
    | with_reducible refine mem_atSlot ?_
    | with_reducible refine mem_fieldDown ?_
    | with_reducible refine mem_genCheck ?_
    | with_reducible refine mem_getD (fun _ e => mem_entryFault ?_ e) ?_
    | with_reducible refine mem_entryFault ?_ ‹_›
    | with_reducible refine mem_failStep ?_
    | with_reducible refine mem_lateField ?_
    | with_reducible refine mem_drivePlane ?_
    | split

@[simp] theorem mem_writeRecord {x0 : State} {x1 : Nat} (h0 : x0.mem = mm) : (writeRecord x0 x1).mem = mm := by
  unfold writeRecord
  simp (maxDischargeDepth := 40) +contextual [*]

theorem mem_execTileRecordCheckpoint {x0 : Nat} {x1 : State} (h1 : x1.mem = mm) : MemOut mm (execTileRecordCheckpoint x0 x1) := by
  unfold execTileRecordCheckpoint
  simp (maxDischargeDepth := 40) +contextual [*]

theorem mem_execTileRetirement {x0 : Nat} {x1 : State} (h1 : x1.mem = mm) : MemOut mm (execTileRetirement x0 x1) := by
  unfold execTileRetirement
  try dsimp only
  repeat' first
    | with_reducible assumption
    | with_reducible refine memOut_next ?_
    | with_reducible refine memOut_ite ?_ ?_
    | with_reducible refine mem_ite ?_ ?_
    | with_reducible refine mem_foldl ?_ (fun _ _ _ => ?_)
    | with_reducible refine mem_updTile ?_
    | with_reducible refine mem_writeRecord ?_
    | with_reducible refine mem_recordFault ?_
    | split

theorem mem_execTimeRoot {x0 : Nat} {x1 : State} (h1 : x1.mem = mm) : MemOut mm (execTimeRoot x0 x1) := by
  unfold execTimeRoot
  simp (maxDischargeDepth := 40) +contextual [*]

@[simp] theorem mem_limitCheck {x0 : State} {x1 : Nat} {x2 : Int} (h0 : x0.mem = mm) : (limitCheck x0 x1 x2).mem = mm := by
  unfold limitCheck
  simp (maxDischargeDepth := 40) +contextual [*]

theorem mem_execTimingMonitorLow {x0 : Nat} {x1 : Int} {x2 : State} (h2 : x2.mem = mm) : MemOut mm (execTimingMonitorLow x0 x1 x2) := by
  unfold execTimingMonitorLow
  simp (maxDischargeDepth := 40) +contextual [*]

theorem mem_execTqChange {x0 : Nat} {x1 : Nat} {x2 : State} (h2 : x2.mem = mm) : MemOut mm (execTqChange x0 x1 x2) := by
  unfold execTqChange
  try dsimp only
  repeat' first
    | with_reducible assumption
    | with_reducible refine memOut_next ?_
    | with_reducible refine memOut_ite ?_ ?_
    | with_reducible refine mem_ite ?_ ?_
    | with_reducible refine mem_foldl ?_ (fun _ _ _ => ?_)
    | with_reducible refine mem_updTq ?_
    | with_reducible refine mem_setFld ?_
    | split

theorem mem_execTqWindowClose {f n : Nat} {s : State} (h : s.mem = mm) : MemOut mm (execTqWindowClose f n s) := by
  unfold execTqWindowClose
  dsimp only
  split
  · exact h
  · repeat' first
      | with_reducible assumption
      | with_reducible refine memOut_ite ?_ ?_
      | with_reducible refine memOut_next ?_
      | with_reducible refine mem_updTq ?_
      | with_reducible refine mem_setFld ?_

theorem mem_sendFrom {x0 : State} {x1 x2 : Nat} {x3 : Msg} {y : State} (h0 : x0.mem = mm) (e : sendFrom x0 x1 x2 x3 = some y) : y.mem = mm := by
  unfold sendFrom at e
  split at e
  · cases e; with_reducible exact mem_sendUns h0
  · obtain ⟨t, ht, rfl⟩ := Option.map_eq_some_iff.mp e
    with_reducible exact mem_sendUns (mem_crossMesh h0 ht)

@[simp] theorem mem_respond10 {x0 : State} {x1 : Nat} {x2 : ReqHdr} {x3 : Ans} (h0 : x0.mem = mm) : (respond10 x0 x1 x2 x3).mem = mm := by
  unfold respond10
  try dsimp only
  repeat' first
    | with_reducible assumption
    | with_reducible refine mem_ite ?_ ?_
    | with_reducible refine mem_foldl ?_ (fun _ _ _ => ?_)
    | with_reducible refine mem_getD (fun _ e => mem_sendFrom ?_ e) ?_
    | with_reducible refine mem_sendFrom ?_ ‹_›
    | split

@[simp] theorem mem_transitStuck {x0 : State} {x1 : Nat} {x2 : TransitHdr} (h0 : x0.mem = mm) : (transitStuck x0 x1 x2).mem = mm := by
  unfold transitStuck
  simp (maxDischargeDepth := 40) +contextual [*]

@[simp] theorem mem_transit {s : State} {l : Nat} {t : TransitHdr} (h : s.mem = mm) : (transit s l t).mem = mm := by
  unfold transit
  refine mem_ite h (mem_ite (mem_count h) (mem_ite (mem_count h) ?_))
  split
  · obtain ⟨k, _, e⟩ := Option.bind_eq_some_iff.mp ‹_›
    with_reducible exact mem_count (mem_sendFrom h e)
  · with_reducible exact mem_transitStuck h

theorem mem_execTransitFrame {l : Nat} {f : TransitHdr} {s : State} (h : s.mem = mm) : MemOut mm (execTransitFrame l f s) := by
  unfold execTransitFrame
  refine memOut_ite h ?_
  split
  · with_reducible exact memOut_next (mem_rxDiscard h ‹_›)
  · repeat' first
      | with_reducible assumption
      | with_reducible refine memOut_ite ?_ ?_
      | with_reducible refine memOut_next ?_
      | with_reducible refine mem_count ?_
      | with_reducible refine mem_transit ?_

@[simp] theorem mem_updConv {x0 : State} {x1 : Nat} {x2 : Nat} {x3 : ConvSt → ConvSt} (h0 : x0.mem = mm) : (updConv x0 x1 x2 x3).mem = mm := by
  unfold updConv
  simp (maxDischargeDepth := 40) +contextual [*]

@[simp] theorem mem_trimAttempt {x0 : State} {x1 : Nat} {x2 : Nat} {x3 : Int} {x4 : Int} {x5 : List Int} (h0 : x0.mem = mm) : (trimAttempt x0 x1 x2 x3 x4 x5).mem = mm := by
  unfold trimAttempt
  simp (maxDischargeDepth := 40) +contextual [*]

theorem mem_execTrimAttempt {x0 : Nat} {x1 : Nat} {x2 : Int} {x3 : Int} {x4 : List Int} {x5 : State} (h5 : x5.mem = mm) : MemOut mm (execTrimAttempt x0 x1 x2 x3 x4 x5) := by
  unfold execTrimAttempt
  simp (maxDischargeDepth := 40) +contextual [*]

theorem mem_execTrimPeriodExpire {x0 : Nat} {x1 : Nat} {x2 : State} (h2 : x2.mem = mm) : MemOut mm (execTrimPeriodExpire x0 x1 x2) := by
  unfold execTrimPeriodExpire
  simp (maxDischargeDepth := 40) +contextual [*]

theorem mem_execTrimTakeoverStart {a b : Nat} {s : State} (h : s.mem = mm) : MemOut mm (execTrimTakeoverStart a b s) := by
  unfold execTrimTakeoverStart
  dsimp only
  repeat' first
      | with_reducible assumption
      | with_reducible refine memOut_ite ?_ ?_
      | with_reducible refine memOut_next ?_
      | with_reducible refine mem_updConv ?_
      | with_reducible refine mem_updTile ?_
      | with_reducible refine mem_writeRecord ?_
      | split

theorem mem_meshTo {x0 : State} {x1 x2 : Nat} {y : State} (h0 : x0.mem = mm) (e : meshTo x0 x1 x2 = some y) : y.mem = mm := by
  obtain ⟨b, _, e⟩ := Option.bind_eq_some_iff.mp e
  exact mem_crossMesh h0 e

@[simp] theorem mem_rdResp {x0 : State} {x1 : Nat} {x2 : Nat} {x3 : Nat} {x4 : List Byte} (h0 : x0.mem = mm) : (rdResp x0 x1 x2 x3 x4).mem = mm := by
  unfold rdResp
  simp (maxDischargeDepth := 40) +contextual [*]

theorem mem_execU4Rd {x0 : Nat} {x1 : Nat} {x2 : Nat} {x3 : State} (h3 : x3.mem = mm) : MemOut mm (execU4Rd x0 x1 x2 x3) := by
  unfold execU4Rd
  try dsimp only
  repeat' first
    | with_reducible assumption
    | with_reducible refine memOut_next ?_
    | with_reducible refine memOut_ite ?_ ?_
    | with_reducible refine mem_ite ?_ ?_
    | with_reducible refine mem_foldl ?_ (fun _ _ _ => ?_)
    | with_reducible refine mem_rdResp ?_
    | with_reducible refine mem_busError ?_
    | with_reducible refine mem_getD (fun _ e => mem_crossMesh ?_ e) ?_
    | with_reducible refine mem_crossMesh ?_ ‹_›
    | with_reducible refine mem_csrRead ?_
    | with_reducible refine mem_getD (fun _ e => mem_meshTo ?_ e) ?_
    | with_reducible refine mem_meshTo ?_ ‹_›
    | with_reducible refine mem_readUe ?_
    | split

theorem mem_execUcieRepairFail {x0 : Nat} {x1 : State} (h1 : x1.mem = mm) : MemOut mm (execUcieRepairFail x0 x1) := by
  unfold execUcieRepairFail
  simp (maxDischargeDepth := 40) +contextual [*]

@[simp] theorem mem_sendManager {s : State} {e : Nat × List Byte} (h : s.mem = mm) : (sendManager s e).mem = mm := by
  unfold sendManager
  refine mem_ite h ?_
  split
  · obtain ⟨k, _, e⟩ := Option.bind_eq_some_iff.mp ‹_›
    with_reducible exact mem_sendFrom h e
  · exact h

@[simp] theorem mem_flushLinks {x0 : State} {x1 : Nat} (h0 : x0.mem = mm) : (flushLinks x0 x1).mem = mm := by
  unfold flushLinks
  simp (maxDischargeDepth := 40) +contextual [*]

@[simp] theorem mem_tick {s : State} (h : s.mem = mm) : (tick s).mem = mm := by
  unfold tick
  extract_lets t
  have k : t.mem = mm := mem_toCycle (Nat.lt_of_le_of_lt (Nat.min_le_left _ _) (by decide)) h
  exact mem_flushLinks k

end Sys2Proof.Machine
end

