-- ==== Sys2Proof/WellFormed.lean ====
section
/-! DEFINITION. Well-formed commands: every operand lies in the range the spec gives the thing it
names. A meaning is total all the same; statements use this predicate as a hypothesis. -/

namespace Sys2Proof

/-- Mailbox numbers (R301). -/
def okMbx (m : Nat) : Bool := decide (m < 8)

/-- A die ID is 18 bits (R9). -/
def okDie (d : Nat) : Bool := decide (d < 2 ^ 18)

/-- The submitter of a mailbox access: the host, or a die (R303). -/
def okSrc : Option Nat → Bool
  | none => true
  | some d => okDie d

/-- CSR offsets: aligned words of the 64 MiB region (R346, R348). -/
def okCsr (off : Nat) : Bool := decide (off < 2 ^ 26) && decide (off % 4 = 0)

/-- Tile index (R7). -/
def okTile (t : Nat) : Bool := decide (t < 8192)

/-- Field index (R7). -/
def okField (f : Nat) : Bool := decide (f < 64)

/-- Slot of a beat (Table 0.4). -/
def okSlot (k : Nat) : Bool := decide (k < 64)

/-- Link index 0 to 11: P0 to P7 and U0 to U3 (R161). -/
def okLink (n : Nat) : Bool := decide (n < 12)

/-- Port index (R172). -/
def okPort (n : Nat) : Bool := decide (n < 8)

/-- Side (stack) index. -/
def okSide (n : Nat) : Bool := decide (n < 2)

/-- Vector position index (R165). -/
def okVec (v : Nat) : Bool := decide (v < 256)

/-- The well-formedness predicate. -/
def Instr.wf : Instr → Bool
  | .echo m => okMbx m | .getInfo m => okMbx m | .healthRead m => okMbx m
  | .setDieId m => okMbx m | .setRole m => okMbx m | .timeRoot m => okMbx m | .cfgCommit m => okMbx m
  | .configure m => okMbx m | .mapInstall m => okMbx m | .mapPublish m => okMbx m
  | .keySlotWrite m => okMbx m | .keySlotClear m => okMbx m | .patchInstall m => okMbx m
  | .attest m => okMbx m | .identityRead m => okMbx m | .endorseInstall m => okMbx m
  | .rejoin m => okMbx m | .distRead m => okMbx m | .remoteOp m => okMbx m | .protectSet m => okMbx m
  | .protectClear m => okMbx m | .kvRecvOpen m => okMbx m | .kvRecvClose m => okMbx m
  | .shardFetch m => okMbx m | .shardActivate m => okMbx m | .shardProgram m => okMbx m
  | .shardRepair m => okMbx m | .schedInstall m => okMbx m | .serveStart m => okMbx m
  | .drain m => okMbx m | .swapStage m => okMbx m | .unitRewrite m => okMbx m
  | .commitPrepare m => okMbx m | .swapAbort m => okMbx m | .adapterLoad m => okMbx m
  | .adapterEvict m => okMbx m | .refRun m => okMbx m | .seqSubmit m => okMbx m
  | .seqCancel m => okMbx m | .seqPause m => okMbx m | .seqResume m => okMbx m | .seqRead m => okMbx m
  | .seqNotify m => okMbx m | .budgetSet m => okMbx m | .fieldPower m => okMbx m
  | .powerCap m => okMbx m | .thermalClear m => okMbx m | .domainReset m => okMbx m
  | .faultLogRead m => okMbx m | .eventLogRead m => okMbx m | .serviceClear m => okMbx m
  | .mbxGo m src => okMbx m && okSrc src
  | .mbxCmdWrite m off data src => okMbx m && okSrc src && decide (off + data.length ≤ 256)
  | .jobAck m j src => okMbx m && okSrc src && decide (j < 2 ^ 16)
  | .intMaskWrite _ => true
  | .configWrite off _ => okCsr off | .enableWrite off _ => okCsr off | .disableWrite off _ => okCsr off
  | .readClear off => okCsr off
  | .ftNsLoRead => true
  | .registerWrite off _ => okCsr off
  | .u4Rd tag len addr => decide (tag < 2 ^ 16) && decide (len < 2 ^ 32) && decide (addr < 2 ^ 46)
  | .u4Wr tag addr data => decide (tag < 2 ^ 16) && decide (addr < 2 ^ 46) && decide (data.length < 2 ^ 32)
  | .intWindowEnd b => decide (b < 14)
  | .resetNAssert => true
  | .resetNRelease q => decide (q < 4)
  | .supplyLoss => true | .romBootDone => true | .wholeDieReset => true
  | .housekeepingRound i => decide (i.temps.length = 48) && decide (i.busCode < 4096)
  | .sensorFastRead n _ => decide (n < 48)
  | .bandChange => true
  | .brownout c l => decide (c < 4096) && decide (l < 4096)
  | .brownoutClear c => decide (c < 4096)
  | .busOver c => decide (c < 4096)
  | .timingMonitorLow d _ => decide (d < 80)
  | .pmbAlert => true | .aliveSecond => true | .headerCheckpoint => true
  | .beatBoundary => true | .serveBegin => true | .drainComplete => true
  | .tileDrive t k _ => okTile t && okSlot k
  | .sSlotDrive t k _ => okTile t && okSlot k
  | .rerunCommit t k _ => okTile t && okSlot k
  | .mSlot t k _ => okTile t && okSlot k
  | .rangeWindowClose t => okTile t | .rangeChange t => okTile t
  | .fieldScan f k v => okField f && okSlot k && okVec v
  | .fieldExponent f k v => okField f && okSlot k && okVec v
  | .fieldAlign f k v => okField f && okSlot k && okVec v
  | .fieldOpen f k v => okField f && okSlot k && okVec v
  | .fieldClose f k v => okField f && okSlot k && okVec v
  | .fieldSelect f k v => okField f && okSlot k && okVec v
  | .tqWindowClose f n => okField f && decide (n < 64)
  | .tqChange f n => okField f && decide (n < 64)
  | .routerEntry f _ => okField f
  | .departure n _ => okLink n
  | .schedFrame n k f => okLink n && okSlot k && okDie f.src && okDie f.dst
  | .attWindow _ => true | .attGather _ => true
  | .beatMarker n _ => okLink n | .beatAck n _ => okLink n
  | .beatAckTimeout n w => okLink n && decide (w < 3)
  | .syncSend => true | .pdelayReqSend p => okPort p | .announceSend => true
  | .syncReceived p _ => okPort p | .followUpReceived p _ => okPort p
  | .pdelayReqReceived p _ => okPort p | .pdelayRespReceived p _ => okPort p
  | .pdelayRespFuReceived p _ => okPort p | .announceReceived p _ => okPort p
  | .syncSourceTimeout p => okPort p
  | .acquireTimeout => true | .holdLeftExpire => true | .extGmLost => true
  | .helloSend n => okLink n | .hello n b => okLink n && decide (b.length < 8192)
  | .helloTimeout n => okLink n | .epochWaitTimeout n => okLink n
  | .pcsAligned n g d => decide (n < 13) && decide (g < 16) && decide (d < 2 ^ 16)
  | .phyTrainTimeout n => okLink n | .downRetry n => okLink n
  | .laneFail n l => okLink n && decide (l < 4)
  | .fastRetrainDone n _ g d => okLink n && decide (g < 16) && decide (d < 2 ^ 16)
  | .ucieRepairFail n => decide (8 ≤ n) && decide (n < 13)
  | .linkAdmit n => okLink n
  | .reqLoad n r => okLink n && okDie r.src | .reqStore n r _ => okLink n && okDie r.src
  | .reqFaa64 n r => okLink n && okDie r.src | .reqCas64 n r => okLink n && okDie r.src
  | .reqCopy n r => okLink n && okDie r.src
  | .copyComplete d g => okDie d && decide (g < 2 ^ 16)
  | .reqKvx n r => okLink n && okDie r.src | .kvxPartWrite n r _ => okLink n && okDie r.src
  | .respFrame n r _ => okLink n && okDie r.src
  | .reqTimeout g => decide (g < 2 ^ 16)
  | .transitFrame n f => okLink n && okDie f.dst
  | .managerAlive d _ _ => okDie d | .managerAliveSend => true | .standbyTakeover => true
  | .mapNotice d _ _ _ _ => okDie d | .mapNoticeResend => true | .mapObey => true
  | .takeoverMapReady => true | .mapPublishSigned => true
  | .budgetReq d t _ _ => okDie d && decide (t < 2 ^ 20)
  | .budgetGrant d t _ _ => okDie d && decide (t < 2 ^ 20)
  | .shedReport d k _ _ => okDie d && decide (k ≤ 40)
  | .healthReport d _ => okDie d
  | .vectorMapWrite f _ => okField f | .seqCommit => true
  | .deadlineExpire i => decide (i < 16384) | .dirBind i => decide (i < 16384)
  | .dirLength i => decide (i < 16384) | .dirPark i => decide (i < 16384) | .dirRelease i => decide (i < 16384)
  | .swapCommit => true
  | .progWaveEnd outs => outs.all (fun o => okTile o.tile)
  | .progWaveTimeout x => x.unfinished.all okTile && x.outs.all (fun o => okTile o.tile)
  | .tileRetirement t => okTile t
  | .roceReadResponse p _ _ => decide (p < 6) | .roceAck p _ => decide (p < 6)
  | .roceNak p _ => decide (p < 6) | .roceTimeout p => decide (p < 6)
  | .shardRedigest => true
  | .patrolScrub s _ r => okSide s && decide (r < 3)
  | .placementWindowClose s _ _ => okSide s
  | .migrationCopyDone s _ => okSide s | .oldFrameReturn s _ => okSide s
  | .trimPeriodExpire t _ => okTile t | .trimTakeoverStart t _ => okTile t
  | .trimAttempt t _ _ _ _ => okTile t | .driftAgeTick t => okTile t
  | .refreshPending t => okTile t | .refreshOverdue t => okTile t
  | .sampledCheckStart => true | .checkAbandon t => okTile t | .nettleRefDone t => okTile t
  | .tileRecordCheckpoint t => okTile t
  | .speedwellPassEnd => true
  | .domainPowerReady d => decide (d < 80) | .domainResetRelease d => decide (d < 0x80)
  | .coreFatal k _ => decide (k < 3) | .routerLost f w => okField f && decide (w < 2)
  | .powerOnResetRelease q => decide (q < 4)
  | .testPortAccess _ => true
  | .hbmStackTrained s => okSide s

end Sys2Proof
end

