-- ==== Sys2Proof/Laws/PerInstr.lean ====
section
/-! SUPPORT. A property of every command as syntax: a well-formed command that goes through a mailbox names one of the eight
(R301), and its opcode is one of Table 15.1. -/

namespace Sys2Proof.Laws.MailboxBound

open Sys2Proof Sys2Proof.Machine

/-- The mailbox and the opcode that a well-formed command names exist. -/
def Statement (i : Instr) : Prop := i.wf = true → ∀ m op, mailboxOf i = some (m, op) → m < 8 ∧ (cmdSpec op).isSome = true

/-- A command through mailbox `m`. -/
theorem through {i : Instr} {m op : Nat} (hw : i.wf = okMbx m) (hm : mailboxOf i = some (m, op)) (ho : (cmdSpec op).isSome = true) : Statement i := by
  intro h n p e
  rw [hm] at e
  cases e
  rw [hw] at h
  exact ⟨of_decide_eq_true h, ho⟩

/-- A command that goes through no mailbox. -/
theorem around {i : Instr} (hm : mailboxOf i = none) : Statement i := by
  intro _ n p e
  rw [hm] at e
  cases e

theorem echo (m) : Statement (.echo m) := through rfl rfl rfl
theorem getInfo (m) : Statement (.getInfo m) := through rfl rfl rfl
theorem healthRead (m) : Statement (.healthRead m) := through rfl rfl rfl
theorem setDieId (m) : Statement (.setDieId m) := through rfl rfl rfl
theorem setRole (m) : Statement (.setRole m) := through rfl rfl rfl
theorem timeRoot (m) : Statement (.timeRoot m) := through rfl rfl rfl
theorem cfgCommit (m) : Statement (.cfgCommit m) := through rfl rfl rfl
theorem configure (m) : Statement (.configure m) := through rfl rfl rfl
theorem mapInstall (m) : Statement (.mapInstall m) := through rfl rfl rfl
theorem mapPublish (m) : Statement (.mapPublish m) := through rfl rfl rfl
theorem keySlotWrite (m) : Statement (.keySlotWrite m) := through rfl rfl rfl
theorem keySlotClear (m) : Statement (.keySlotClear m) := through rfl rfl rfl
theorem patchInstall (m) : Statement (.patchInstall m) := through rfl rfl rfl
theorem attest (m) : Statement (.attest m) := through rfl rfl rfl
theorem identityRead (m) : Statement (.identityRead m) := through rfl rfl rfl
theorem endorseInstall (m) : Statement (.endorseInstall m) := through rfl rfl rfl
theorem rejoin (m) : Statement (.rejoin m) := through rfl rfl rfl
theorem distRead (m) : Statement (.distRead m) := through rfl rfl rfl
theorem remoteOp (m) : Statement (.remoteOp m) := through rfl rfl rfl
theorem protectSet (m) : Statement (.protectSet m) := through rfl rfl rfl
theorem protectClear (m) : Statement (.protectClear m) := through rfl rfl rfl
theorem kvRecvOpen (m) : Statement (.kvRecvOpen m) := through rfl rfl rfl
theorem kvRecvClose (m) : Statement (.kvRecvClose m) := through rfl rfl rfl
theorem shardFetch (m) : Statement (.shardFetch m) := through rfl rfl rfl
theorem shardActivate (m) : Statement (.shardActivate m) := through rfl rfl rfl
theorem shardProgram (m) : Statement (.shardProgram m) := through rfl rfl rfl
theorem shardRepair (m) : Statement (.shardRepair m) := through rfl rfl rfl
theorem schedInstall (m) : Statement (.schedInstall m) := through rfl rfl rfl
theorem serveStart (m) : Statement (.serveStart m) := through rfl rfl rfl
theorem drain (m) : Statement (.drain m) := through rfl rfl rfl
theorem swapStage (m) : Statement (.swapStage m) := through rfl rfl rfl
theorem unitRewrite (m) : Statement (.unitRewrite m) := through rfl rfl rfl
theorem commitPrepare (m) : Statement (.commitPrepare m) := through rfl rfl rfl
theorem swapAbort (m) : Statement (.swapAbort m) := through rfl rfl rfl
theorem adapterLoad (m) : Statement (.adapterLoad m) := through rfl rfl rfl
theorem adapterEvict (m) : Statement (.adapterEvict m) := through rfl rfl rfl
theorem refRun (m) : Statement (.refRun m) := through rfl rfl rfl
theorem seqSubmit (m) : Statement (.seqSubmit m) := through rfl rfl rfl
theorem seqCancel (m) : Statement (.seqCancel m) := through rfl rfl rfl
theorem seqPause (m) : Statement (.seqPause m) := through rfl rfl rfl
theorem seqResume (m) : Statement (.seqResume m) := through rfl rfl rfl
theorem seqRead (m) : Statement (.seqRead m) := through rfl rfl rfl
theorem seqNotify (m) : Statement (.seqNotify m) := through rfl rfl rfl
theorem budgetSet (m) : Statement (.budgetSet m) := through rfl rfl rfl
theorem fieldPower (m) : Statement (.fieldPower m) := through rfl rfl rfl
theorem powerCap (m) : Statement (.powerCap m) := through rfl rfl rfl
theorem thermalClear (m) : Statement (.thermalClear m) := through rfl rfl rfl
theorem domainReset (m) : Statement (.domainReset m) := through rfl rfl rfl
theorem faultLogRead (m) : Statement (.faultLogRead m) := through rfl rfl rfl
theorem eventLogRead (m) : Statement (.eventLogRead m) := through rfl rfl rfl
theorem serviceClear (m) : Statement (.serviceClear m) := through rfl rfl rfl
theorem mbxGo (m) (src) : Statement (.mbxGo m src) := around rfl
theorem mbxCmdWrite (m) (off) (data) (src) : Statement (.mbxCmdWrite m off data src) := around rfl
theorem jobAck (m) (jobNo) (src) : Statement (.jobAck m jobNo src) := around rfl
theorem intMaskWrite (v) : Statement (.intMaskWrite v) := around rfl
theorem configWrite (off) (v) : Statement (.configWrite off v) := around rfl
theorem enableWrite (off) (v) : Statement (.enableWrite off v) := around rfl
theorem disableWrite (off) (v) : Statement (.disableWrite off v) := around rfl
theorem readClear (off) : Statement (.readClear off) := around rfl
theorem ftNsLoRead : Statement .ftNsLoRead := around rfl
theorem registerWrite (off) (v) : Statement (.registerWrite off v) := around rfl
theorem u4Rd (tag) (len) (addr) : Statement (.u4Rd tag len addr) := around rfl
theorem u4Wr (tag) (addr) (data) : Statement (.u4Wr tag addr data) := around rfl
theorem intWindowEnd (bit) : Statement (.intWindowEnd bit) := around rfl
theorem resetNAssert : Statement .resetNAssert := around rfl
theorem resetNRelease (qpos) : Statement (.resetNRelease qpos) := around rfl
theorem supplyLoss : Statement .supplyLoss := around rfl
theorem romBootDone : Statement .romBootDone := around rfl
theorem wholeDieReset : Statement .wholeDieReset := around rfl
theorem housekeepingRound (i) : Statement (.housekeepingRound i) := around rfl
theorem sensorFastRead (sensor) (reading) : Statement (.sensorFastRead sensor reading) := around rfl
theorem bandChange : Statement .bandChange := around rfl
theorem brownout (code) (low) : Statement (.brownout code low) := around rfl
theorem brownoutClear (code) : Statement (.brownoutClear code) := around rfl
theorem busOver (code) : Statement (.busOver code) := around rfl
theorem timingMonitorLow (domain) (slack) : Statement (.timingMonitorLow domain slack) := around rfl
theorem pmbAlert : Statement .pmbAlert := around rfl
theorem aliveSecond : Statement .aliveSecond := around rfl
theorem headerCheckpoint : Statement .headerCheckpoint := around rfl
theorem beatBoundary : Statement .beatBoundary := around rfl
theorem serveBegin : Statement .serveBegin := around rfl
theorem drainComplete : Statement .drainComplete := around rfl
theorem tileDrive (tile) (slot) (err) : Statement (.tileDrive tile slot err) := around rfl
theorem sSlotDrive (tile) (slot) (err) : Statement (.sSlotDrive tile slot err) := around rfl
theorem rerunCommit (tile) (slot) (refDone) : Statement (.rerunCommit tile slot refDone) := around rfl
theorem mSlot (tile) (slot) (work) : Statement (.mSlot tile slot work) := around rfl
theorem rangeWindowClose (tile) : Statement (.rangeWindowClose tile) := around rfl
theorem rangeChange (tile) : Statement (.rangeChange tile) := around rfl
theorem fieldScan (field) (slot) (vec) : Statement (.fieldScan field slot vec) := around rfl
theorem fieldExponent (field) (slot) (vec) : Statement (.fieldExponent field slot vec) := around rfl
theorem fieldAlign (field) (slot) (vec) : Statement (.fieldAlign field slot vec) := around rfl
theorem fieldOpen (field) (slot) (vec) : Statement (.fieldOpen field slot vec) := around rfl
theorem fieldClose (field) (slot) (vec) : Statement (.fieldClose field slot vec) := around rfl
theorem fieldSelect (field) (slot) (vec) : Statement (.fieldSelect field slot vec) := around rfl
theorem tqWindowClose (field) (nidx) : Statement (.tqWindowClose field nidx) := around rfl
theorem tqChange (field) (nidx) : Statement (.tqChange field nidx) := around rfl
theorem routerEntry (field) (idx) : Statement (.routerEntry field idx) := around rfl
theorem departure (link) (idx) : Statement (.departure link idx) := around rfl
theorem schedFrame (link) (slot) (f) : Statement (.schedFrame link slot f) := around rfl
theorem attWindow (w) : Statement (.attWindow w) := around rfl
theorem attGather (w) : Statement (.attGather w) := around rfl
theorem beatMarker (link) (mk) : Statement (.beatMarker link mk) := around rfl
theorem beatAck (link) (mk) : Statement (.beatAck link mk) := around rfl
theorem beatAckTimeout (link) (why) : Statement (.beatAckTimeout link why) := around rfl
theorem syncSend : Statement .syncSend := around rfl
theorem pdelayReqSend (port) : Statement (.pdelayReqSend port) := around rfl
theorem announceSend : Statement .announceSend := around rfl
theorem syncReceived (port) (msg) : Statement (.syncReceived port msg) := around rfl
theorem followUpReceived (port) (msg) : Statement (.followUpReceived port msg) := around rfl
theorem pdelayReqReceived (port) (msg) : Statement (.pdelayReqReceived port msg) := around rfl
theorem pdelayRespReceived (port) (msg) : Statement (.pdelayRespReceived port msg) := around rfl
theorem pdelayRespFuReceived (port) (msg) : Statement (.pdelayRespFuReceived port msg) := around rfl
theorem announceReceived (port) (msg) : Statement (.announceReceived port msg) := around rfl
theorem syncSourceTimeout (port) : Statement (.syncSourceTimeout port) := around rfl
theorem acquireTimeout : Statement .acquireTimeout := around rfl
theorem holdLeftExpire : Statement .holdLeftExpire := around rfl
theorem extGmLost : Statement .extGmLost := around rfl
theorem helloSend (link) : Statement (.helloSend link) := around rfl
theorem hello (link) (payload) : Statement (.hello link payload) := around rfl
theorem helloTimeout (link) : Statement (.helloTimeout link) := around rfl
theorem epochWaitTimeout (link) : Statement (.epochWaitTimeout link) := around rfl
theorem pcsAligned (link) (good) (delay) : Statement (.pcsAligned link good delay) := around rfl
theorem phyTrainTimeout (link) : Statement (.phyTrainTimeout link) := around rfl
theorem downRetry (link) : Statement (.downRetry link) := around rfl
theorem laneFail (link) (lane) : Statement (.laneFail link lane) := around rfl
theorem fastRetrainDone (link) (ok) (good) (delay) : Statement (.fastRetrainDone link ok good delay) := around rfl
theorem ucieRepairFail (link) : Statement (.ucieRepairFail link) := around rfl
theorem linkAdmit (link) : Statement (.linkAdmit link) := around rfl
theorem reqLoad (link) (r) : Statement (.reqLoad link r) := around rfl
theorem reqStore (link) (r) (data) : Statement (.reqStore link r data) := around rfl
theorem reqFaa64 (link) (r) : Statement (.reqFaa64 link r) := around rfl
theorem reqCas64 (link) (r) : Statement (.reqCas64 link r) := around rfl
theorem reqCopy (link) (r) : Statement (.reqCopy link r) := around rfl
theorem copyComplete (src) (tag) : Statement (.copyComplete src tag) := around rfl
theorem reqKvx (link) (r) : Statement (.reqKvx link r) := around rfl
theorem kvxPartWrite (link) (r) (data) : Statement (.kvxPartWrite link r data) := around rfl
theorem respFrame (link) (r) (data) : Statement (.respFrame link r data) := around rfl
theorem reqTimeout (tag) : Statement (.reqTimeout tag) := around rfl
theorem transitFrame (link) (f) : Statement (.transitFrame link f) := around rfl
theorem managerAlive (src) (epoch) (time) : Statement (.managerAlive src epoch time) := around rfl
theorem managerAliveSend : Statement .managerAliveSend := around rfl
theorem standbyTakeover : Statement .standbyTakeover := around rfl
theorem mapNotice (src) (epoch) (len) (addr) (digest) : Statement (.mapNotice src epoch len addr digest) := around rfl
theorem mapNoticeResend : Statement .mapNoticeResend := around rfl
theorem mapObey : Statement .mapObey := around rfl
theorem takeoverMapReady : Statement .takeoverMapReady := around rfl
theorem mapPublishSigned : Statement .mapPublishSigned := around rfl
theorem budgetReq (src) (tenant) (reqNo) (units) : Statement (.budgetReq src tenant reqNo units) := around rfl
theorem budgetGrant (src) (tenant) (reqNo) (units) : Statement (.budgetGrant src tenant reqNo units) := around rfl
theorem shedReport (src) (s) (cause) (round) : Statement (.shedReport src s cause round) := around rfl
theorem healthReport (src) (payload) : Statement (.healthReport src payload) := around rfl
theorem vectorMapWrite (field) (stepNo) : Statement (.vectorMapWrite field stepNo) := around rfl
theorem seqCommit : Statement .seqCommit := around rfl
theorem deadlineExpire (idx) : Statement (.deadlineExpire idx) := around rfl
theorem dirBind (idx) : Statement (.dirBind idx) := around rfl
theorem dirLength (idx) : Statement (.dirLength idx) := around rfl
theorem dirPark (idx) : Statement (.dirPark idx) := around rfl
theorem dirRelease (idx) : Statement (.dirRelease idx) := around rfl
theorem swapCommit : Statement .swapCommit := around rfl
theorem progWaveEnd (outs) : Statement (.progWaveEnd outs) := around rfl
theorem progWaveTimeout (unfinished) : Statement (.progWaveTimeout unfinished) := around rfl
theorem tileRetirement (tile) : Statement (.tileRetirement tile) := around rfl
theorem roceReadResponse (src) (off) (data) : Statement (.roceReadResponse src off data) := around rfl
theorem roceAck (src) (psn) : Statement (.roceAck src psn) := around rfl
theorem roceNak (src) (psn) : Statement (.roceNak src psn) := around rfl
theorem roceTimeout (src) : Statement (.roceTimeout src) := around rfl
theorem shardRedigest : Statement .shardRedigest := around rfl
theorem patrolScrub (side) (addr) (result) : Statement (.patrolScrub side addr result) := around rfl
theorem placementWindowClose (side) (counts) (hot) : Statement (.placementWindowClose side counts hot) := around rfl
theorem migrationCopyDone (side) (oldFrame) : Statement (.migrationCopyDone side oldFrame) := around rfl
theorem oldFrameReturn (side) (oldFrame) : Statement (.oldFrameReturn side oldFrame) := around rfl
theorem trimPeriodExpire (tile) (conv) : Statement (.trimPeriodExpire tile conv) := around rfl
theorem trimTakeoverStart (tile) (conv) : Statement (.trimTakeoverStart tile conv) := around rfl
theorem trimAttempt (tile) (conv) (gain) (off) (sums) : Statement (.trimAttempt tile conv gain off sums) := around rfl
theorem driftAgeTick (tile) : Statement (.driftAgeTick tile) := around rfl
theorem refreshPending (tile) : Statement (.refreshPending tile) := around rfl
theorem refreshOverdue (tile) : Statement (.refreshOverdue tile) := around rfl
theorem sampledCheckStart : Statement .sampledCheckStart := around rfl
theorem checkAbandon (tile) : Statement (.checkAbandon tile) := around rfl
theorem nettleRefDone (tile) : Statement (.nettleRefDone tile) := around rfl
theorem tileRecordCheckpoint (tile) : Statement (.tileRecordCheckpoint tile) := around rfl
theorem speedwellPassEnd : Statement .speedwellPassEnd := around rfl
theorem domainPowerReady (d) : Statement (.domainPowerReady d) := around rfl
theorem domainResetRelease (d) : Statement (.domainResetRelease d) := around rfl
theorem coreFatal (mem) (addr) : Statement (.coreFatal mem addr) := around rfl
theorem routerLost (field) (why) : Statement (.routerLost field why) := around rfl
theorem powerOnResetRelease (qpos) : Statement (.powerOnResetRelease qpos) := around rfl
theorem testPortAccess (op) : Statement (.testPortAccess op) := around rfl
theorem hbmStackTrained (side) : Statement (.hbmStackTrained side) := around rfl

end Sys2Proof.Laws.MailboxBound
end

