-- ==== Sys2Proof/Laws/Registers.lean ====
section
/-! SUPPORT. Reading after writing: sparse maps, bytes of memory, registers and their fields. -/
namespace Sys2Proof.Machine

section
variable {α : Type} {d : Nat → α}

theorem sget_sput {m : Sparse α} {k j : Nat} {v : α} : sget d (sput m k v) j = if j = k then v else sget d m j := by
  induction m with
  | nil => simp [sput, sget, eq_comm]
  | cons e m ih =>
    obtain ⟨a, w⟩ := e
    simp only [sput]
    split
    · rename_i e; subst e
      by_cases hj : j = a
      · simp [sget, hj]
      · simp [sget, hj, Ne.symm hj]
    · split
      · by_cases hj : j = k
        · simp [sget, hj]
        · simp [sget, hj, Ne.symm hj]
      · rename_i hak _
        by_cases hj : j = k
        · subst hj; simp only [sget, ih]; simp [hak]
        · simp [sget, ih, hj]

theorem sget_sdel_other {m : Sparse α} {k j : Nat} (h : j ≠ k) : sget d (sdel m k) j = sget d m j := by
  induction m with
  | nil => rfl
  | cons e m ih =>
    obtain ⟨a, w⟩ := e
    simp only [sdel]
    split
    · subst_vars; simp [sget, Ne.symm h]
    · split
      · rfl
      · simp only [sget, ih]

variable [DecidableEq α]

/-- A key below the first of a canonical map reads as the default. -/
theorem sget_low {m : Sparse α} {k n : Nat} (h : swfFrom d n m = true) (hk : k < n) : sget d m k = d k := by
  induction m generalizing n with
  | nil => rfl
  | cons e m ih =>
    obtain ⟨a, w⟩ := e
    simp [swfFrom] at h
    simp only [sget]
    split
    · omega
    · exact ih h.2 (by omega)

theorem sget_sdel_same {m : Sparse α} {k : Nat} : ∀ {n : Nat}, swfFrom d n m = true → sget d (sdel m k) k = d k := by
  induction m with
  | nil => intros; rfl
  | cons e m ih =>
    obtain ⟨a, w⟩ := e
    intro n h
    simp [swfFrom] at h
    simp only [sdel]
    split
    · subst_vars; exact sget_low h.2 (by omega)
    · split
      · simp only [sget]; split
        · omega
        · exact sget_low h.2 (by omega)
      · simp only [sget]; split
        · omega
        · exact ih h.2

/-- Reading after a write of a canonical map. -/
theorem sget_sset {m : Sparse α} {k j : Nat} {v : α} (h : swf d m = true) : sget d (sset d m k v) j = if j = k then v else sget d m j := by
  unfold sset
  split
  · rename_i hv
    by_cases hj : j = k
    · subst hj; simp [sget_sdel_same h, hv]
    · simp [hj, sget_sdel_other hj]
  · exact sget_sput

theorem sget_sset_other {m : Sparse α} {k j : Nat} {v : α} (h : j ≠ k) : sget d (sset d m k v) j = sget d m j := by
  unfold sset
  split
  · exact sget_sdel_other h
  · simp [sget_sput, h]
end

/-! ### Bytes -/

@[simp] theorem rdByte_wrByte_other {m : Sparse Byte} {a b : Nat} {v : Byte} (h : b ≠ a) : rdByte (wrByte m a v) b = rdByte m b := sget_sset_other h

/-- Bytes outside a write read as before. -/
theorem rdByte_wrBytes_out {bs : List Byte} : ∀ {m : Sparse Byte} {a b : Nat}, b < a ∨ a + bs.length ≤ b → rdByte (wrBytes m a bs) b = rdByte m b := by
  induction bs with
  | nil => intros; rfl
  | cons x bs ih =>
    intro m a b h
    simp only [List.length_cons] at h
    simp only [wrBytes]
    rw [ih (by omega), rdByte_wrByte_other (by omega)]

/-- A byte of a write reads as what was written. -/
theorem rdByte_wrBytes_in {bs : List Byte} : ∀ {m : Sparse Byte} {a i : Nat}, memWf m = true → (h : i < bs.length) → rdByte (wrBytes m a bs) (a + i) = bs[i] := by
  induction bs with
  | nil => intro m a i _ h; simp at h
  | cons x bs ih =>
    intro m a i hm h
    simp only [wrBytes]
    cases i with
    | zero =>
      rw [Nat.add_zero, rdByte_wrBytes_out (by omega)]
      simp [rdByte, wrByte, sget_sset (show swf zeroByte m = true from hm)]
    | succ i =>
      rw [show a + (i + 1) = a + 1 + i by omega, ih (m := wrByte m a x) (swf_sset hm) (by simpa using h)]
      simp

theorem rdBytes_congr {m m' : Sparse Byte} {n : Nat} : ∀ {a : Nat}, (∀ i, i < n → rdByte m (a + i) = rdByte m' (a + i)) → rdBytes m a n = rdBytes m' a n := by
  induction n with
  | zero => intros; rfl
  | succ n ih =>
    intro a h
    simp only [rdBytes]
    rw [show rdByte m a = rdByte m' a by simpa using h 0 (by omega)]
    rw [ih (fun i hi => by have := h (i + 1) (by omega); rwa [show a + (i + 1) = a + 1 + i by omega] at this)]

theorem rdBytes_wrBytes {bs : List Byte} : ∀ {m : Sparse Byte} {a : Nat}, memWf m = true → rdBytes (wrBytes m a bs) a bs.length = bs := by
  induction bs with
  | nil => intros; rfl
  | cons x bs ih =>
    intro m a hm
    simp only [wrBytes, List.length_cons, rdBytes]
    rw [ih (m := wrByte m a x) (swf_sset hm), rdByte_wrBytes_out (by omega)]
    simp [rdByte, wrByte, sget_sset (show swf zeroByte m = true from hm)]

theorem rdBytes_length {m : Sparse Byte} {n : Nat} : ∀ {a : Nat}, (rdBytes m a n).length = n := by
  induction n with
  | zero => intros; rfl
  | succ n ih => intro a; simp [rdBytes, ih]

/-! ### Registers -/

theorem word_setWord {s : State} {o p : Nat} {w : Word} (h : swf regReset s.csr = true) : (s.setWord o w).word p = if p = o then w else s.word p := sget_sset h

theorem word_setFld_other {s : State} {x : Fld} {v p : Nat} (h : p ≠ x.reg) : (s.setFld x v).word p = s.word p := sget_sset_other h

/-- A field of another register reads as before. -/
theorem fld_setFld_other {s : State} {x y : Fld} {v : Nat} (h : y.reg ≠ x.reg) : (s.setFld x v).fld y = s.fld y := by
  unfold State.fld; rw [word_setFld_other h]

theorem bits_split (w lo n : Nat) : w = w / 2 ^ (lo + n) * 2 ^ (lo + n) + w / 2 ^ lo % 2 ^ n * 2 ^ lo + w % 2 ^ lo := by
  have h1 := Nat.div_add_mod w (2 ^ lo)
  have h2 := Nat.div_add_mod (w / 2 ^ lo) (2 ^ n)
  rw [Nat.div_div_eq_div_mul, ← Nat.pow_add] at h2
  have h3 : w / 2 ^ lo * 2 ^ lo = w / 2 ^ (lo + n) * 2 ^ (lo + n) + w / 2 ^ lo % 2 ^ n * 2 ^ lo := by
    conv => lhs; rw [← h2]
    rw [Nat.add_mul, Nat.pow_add]; ac_rfl
  rw [Nat.mul_comm] at h1
  omega

theorem fset_toNat {w : Word} {lo n v : Nat} (h : lo + n ≤ 32) :
    (fset w lo n v).toNat = w.toNat / 2 ^ (lo + n) * 2 ^ (lo + n) + v % 2 ^ n * 2 ^ lo + w.toNat % 2 ^ lo := by
  have hw := w.isLt
  have e := bits_split w.toNat lo n
  have hm : w.toNat % 2 ^ lo < 2 ^ lo := Nat.mod_lt _ (Nat.two_pow_pos lo)
  have hv : v % 2 ^ n < 2 ^ n := Nat.mod_lt _ (Nat.two_pow_pos n)
  have hv2 : v % 2 ^ n * 2 ^ lo + 2 ^ lo ≤ 2 ^ (lo + n) := by
    have := Nat.mul_le_mul_right (2 ^ lo) (Nat.succ_le_of_lt hv)
    rw [Nat.succ_mul] at this
    rw [Nat.pow_add, Nat.mul_comm (2 ^ lo) (2 ^ n)]; omega
  have hq : w.toNat / 2 ^ (lo + n) * 2 ^ (lo + n) + 2 ^ (lo + n) ≤ 2 ^ 32 := by
    have h32 : 2 ^ 32 = 2 ^ (32 - (lo + n)) * 2 ^ (lo + n) := by rw [← Nat.pow_add]; congr 1; omega
    have : w.toNat / 2 ^ (lo + n) < 2 ^ (32 - (lo + n)) := by
      rw [Nat.div_lt_iff_lt_mul (Nat.two_pow_pos _), ← h32]; exact hw
    have := Nat.mul_le_mul_right (2 ^ (lo + n)) (Nat.succ_le_of_lt this)
    rw [Nat.succ_mul] at this; omega
  unfold fset bits
  rw [BitVec.toNat_ofNat, Nat.mod_eq_of_lt (by omega)]
  omega

/-- A field reads what was set in it, cut to its width. -/
theorem fld_setFld_same {s : State} {x : Fld} {v : Nat} (h : swf regReset s.csr = true) (hx : x.lo + x.n ≤ 32) :
    (s.setFld x v).fld x = v % 2 ^ x.n := by
  have e : (s.setFld x v).word x.reg = fset (s.word x.reg) x.lo x.n v := by simp [State.word, State.setFld, sget_sset h]
  unfold State.fld fget bits
  rw [e, fset_toNat hx]
  have hm : (s.word x.reg).toNat % 2 ^ x.lo < 2 ^ x.lo := Nat.mod_lt _ (Nat.two_pow_pos _)
  have : (s.word x.reg).toNat / 2 ^ (x.lo + x.n) * 2 ^ (x.lo + x.n) + v % 2 ^ x.n * 2 ^ x.lo + (s.word x.reg).toNat % 2 ^ x.lo
      = (s.word x.reg).toNat % 2 ^ x.lo + (((s.word x.reg).toNat / 2 ^ (x.lo + x.n)) * 2 ^ x.n + v % 2 ^ x.n) * 2 ^ x.lo := by
    rw [Nat.add_mul, Nat.pow_add]; ac_rfl
  rw [this, Nat.add_mul_div_right _ _ (Nat.two_pow_pos _), Nat.div_eq_of_lt hm, Nat.zero_add, Nat.add_comm, Nat.add_mul_mod_self_right, Nat.mod_mod]

/-- The registers of tile `t`'s window are those of Table 3.7, the same for every tile (R58). -/
theorem regSpec_tileBase {t o : Nat} (ht : t < 8192) (ho : o < 0x40) (h4 : o % 4 = 0) : regSpec (tileBase t + o) = specIn tileRegs o := by
  have hb : (tileBase t + o) / 0x10000 = 64 + tileField t := by unfold tileBase fieldBase tileField tileLocal; omega
  have hm : (tileBase t + o) % 0x10000 = 0x4000 + 0x40 * tileLocal t + o := by unfold tileBase fieldBase tileField tileLocal; omega
  have hf : tileField t < 64 := by unfold tileField; omega
  have hl : tileLocal t < 128 := by unfold tileLocal; omega
  have h0 : (tileBase t + o) % 4 = 0 := by unfold tileBase fieldBase; omega
  unfold regSpec
  simp only [hb, hm, h0]
  rw [if_neg (by simp)]
  repeat rw [if_neg (by omega)]
  rw [if_pos (by omega), fieldSpec, if_pos (by omega)]
  congr 1; omega

/-- A register without an entry reads its reset value. -/
theorem word_unlisted {s : State} {p : Nat} (h : ∀ e ∈ s.csr, e.1 ≠ p) : s.word p = regReset p := by
  unfold State.word
  generalize s.csr = m at h
  induction m with
  | nil => rfl
  | cons e m ih =>
    rw [sget, if_neg (h e (by simp))]
    exact ih (fun x hx => h x (by simp [hx]))

end Sys2Proof.Machine
end

