-- ==== Sys2Proof/Laws/State.lean ====
section
/-! SUPPORT. What each named update of the state leaves as it was: one lemma for each update and field, true by definition, so
that no proof unfolds a record update. -/

namespace Sys2Proof.Machine

variable (s : State)

/-! ### setWord -/

@[simp] theorem setWord_pending (o : Nat) (w : Word) : (s.setWord o w).pending = s.pending := rfl
@[simp] theorem setWord_out (o : Nat) (w : Word) : (s.setWord o w).out = s.out := rfl
@[simp] theorem setWord_free (o : Nat) (w : Word) : (s.setWord o w).free = s.free := rfl
@[simp] theorem setWord_beat (o : Nat) (w : Word) : (s.setWord o w).beat = s.beat := rfl
@[simp] theorem setWord_cyc (o : Nat) (w : Word) : (s.setWord o w).cyc = s.cyc := rfl
@[simp] theorem setWord_clk (o : Nat) (w : Word) : (s.setWord o w).clk = s.clk := rfl
@[simp] theorem setWord_dieState (o : Nat) (w : Word) : (s.setWord o w).dieState = s.dieState := rfl
@[simp] theorem setWord_left (o : Nat) (w : Word) : (s.setWord o w).left = s.left := rfl
@[simp] theorem setWord_coreUp (o : Nat) (w : Word) : (s.setWord o w).coreUp = s.coreUp := rfl
@[simp] theorem setWord_supply (o : Nat) (w : Word) : (s.setWord o w).supply = s.supply := rfl
@[simp] theorem setWord_firstBoot (o : Nat) (w : Word) : (s.setWord o w).firstBoot = s.firstBoot := rfl
@[simp] theorem setWord_aged (o : Nat) (w : Word) : (s.setWord o w).aged = s.aged := rfl
@[simp] theorem setWord_qpos (o : Nat) (w : Word) : (s.setWord o w).qpos = s.qpos := rfl
@[simp] theorem setWord_dieReset (o : Nat) (w : Word) : (s.setWord o w).dieReset = s.dieReset := rfl
@[simp] theorem setWord_gated (o : Nat) (w : Word) : (s.setWord o w).gated = s.gated := rfl
@[simp] theorem setWord_shadow (o : Nat) (w : Word) : (s.setWord o w).shadow = s.shadow := rfl
@[simp] theorem setWord_spw (o : Nat) (w : Word) : (s.setWord o w).spw = s.spw := rfl
@[simp] theorem setWord_mbx (o : Nat) (w : Word) : (s.setWord o w).mbx = s.mbx := rfl
@[simp] theorem setWord_rr (o : Nat) (w : Word) : (s.setWord o w).rr = s.rr := rfl
@[simp] theorem setWord_intWin (o : Nat) (w : Word) : (s.setWord o w).intWin = s.intWin := rfl
@[simp] theorem setWord_faults (o : Nat) (w : Word) : (s.setWord o w).faults = s.faults := rfl
@[simp] theorem setWord_ev (o : Nat) (w : Word) : (s.setWord o w).ev = s.ev := rfl
@[simp] theorem setWord_aliveS (o : Nat) (w : Word) : (s.setWord o w).aliveS = s.aliveS := rfl
@[simp] theorem setWord_aliveRounds (o : Nat) (w : Word) : (s.setWord o w).aliveRounds = s.aliveRounds := rfl
@[simp] theorem setWord_resetsAt (o : Nat) (w : Word) : (s.setWord o w).resetsAt = s.resetsAt := rfl
@[simp] theorem setWord_domResets (o : Nat) (w : Word) : (s.setWord o w).domResets = s.domResets := rfl
@[simp] theorem setWord_healthEv (o : Nat) (w : Word) : (s.setWord o w).healthEv = s.healthEv := rfl
@[simp] theorem setWord_healthDom (o : Nat) (w : Word) : (s.setWord o w).healthDom = s.healthDom := rfl
@[simp] theorem setWord_sec (o : Nat) (w : Word) : (s.setWord o w).sec = s.sec := rfl
@[simp] theorem setWord_time (o : Nat) (w : Word) : (s.setWord o w).time = s.time := rfl
@[simp] theorem setWord_links (o : Nat) (w : Word) : (s.setWord o w).links = s.links := rfl
@[simp] theorem setWord_sched (o : Nat) (w : Word) : (s.setWord o w).sched = s.sched := rfl
@[simp] theorem setWord_pow (o : Nat) (w : Word) : (s.setWord o w).pow = s.pow := rfl
@[simp] theorem setWord_grid (o : Nat) (w : Word) : (s.setWord o w).grid = s.grid := rfl
@[simp] theorem setWord_shard (o : Nat) (w : Word) : (s.setWord o w).shard = s.shard := rfl
@[simp] theorem setWord_sides (o : Nat) (w : Word) : (s.setWord o w).sides = s.sides := rfl
@[simp] theorem setWord_att (o : Nat) (w : Word) : (s.setWord o w).att = s.att := rfl
@[simp] theorem setWord_fab (o : Nat) (w : Word) : (s.setWord o w).fab = s.fab := rfl
@[simp] theorem setWord_seqs (o : Nat) (w : Word) : (s.setWord o w).seqs = s.seqs := rfl
@[simp] theorem setWord_mgr (o : Nat) (w : Word) : (s.setWord o w).mgr = s.mgr := rfl
@[simp] theorem setWord_mem (o : Nat) (w : Word) : (s.setWord o w).mem = s.mem := rfl
@[simp] theorem setWord_ue (o : Nat) (w : Word) : (s.setWord o w).ue = s.ue := rfl
@[simp] theorem setWord_sue (o : Nat) (w : Word) : (s.setWord o w).sue = s.sue := rfl

/-! ### setFld -/

@[simp] theorem setFld_pending (x : Fld) (v : Nat) : (s.setFld x v).pending = s.pending := rfl
@[simp] theorem setFld_out (x : Fld) (v : Nat) : (s.setFld x v).out = s.out := rfl
@[simp] theorem setFld_free (x : Fld) (v : Nat) : (s.setFld x v).free = s.free := rfl
@[simp] theorem setFld_beat (x : Fld) (v : Nat) : (s.setFld x v).beat = s.beat := rfl
@[simp] theorem setFld_cyc (x : Fld) (v : Nat) : (s.setFld x v).cyc = s.cyc := rfl
@[simp] theorem setFld_clk (x : Fld) (v : Nat) : (s.setFld x v).clk = s.clk := rfl
@[simp] theorem setFld_dieState (x : Fld) (v : Nat) : (s.setFld x v).dieState = s.dieState := rfl
@[simp] theorem setFld_left (x : Fld) (v : Nat) : (s.setFld x v).left = s.left := rfl
@[simp] theorem setFld_coreUp (x : Fld) (v : Nat) : (s.setFld x v).coreUp = s.coreUp := rfl
@[simp] theorem setFld_supply (x : Fld) (v : Nat) : (s.setFld x v).supply = s.supply := rfl
@[simp] theorem setFld_firstBoot (x : Fld) (v : Nat) : (s.setFld x v).firstBoot = s.firstBoot := rfl
@[simp] theorem setFld_aged (x : Fld) (v : Nat) : (s.setFld x v).aged = s.aged := rfl
@[simp] theorem setFld_qpos (x : Fld) (v : Nat) : (s.setFld x v).qpos = s.qpos := rfl
@[simp] theorem setFld_dieReset (x : Fld) (v : Nat) : (s.setFld x v).dieReset = s.dieReset := rfl
@[simp] theorem setFld_gated (x : Fld) (v : Nat) : (s.setFld x v).gated = s.gated := rfl
@[simp] theorem setFld_shadow (x : Fld) (v : Nat) : (s.setFld x v).shadow = s.shadow := rfl
@[simp] theorem setFld_spw (x : Fld) (v : Nat) : (s.setFld x v).spw = s.spw := rfl
@[simp] theorem setFld_mbx (x : Fld) (v : Nat) : (s.setFld x v).mbx = s.mbx := rfl
@[simp] theorem setFld_rr (x : Fld) (v : Nat) : (s.setFld x v).rr = s.rr := rfl
@[simp] theorem setFld_intWin (x : Fld) (v : Nat) : (s.setFld x v).intWin = s.intWin := rfl
@[simp] theorem setFld_faults (x : Fld) (v : Nat) : (s.setFld x v).faults = s.faults := rfl
@[simp] theorem setFld_ev (x : Fld) (v : Nat) : (s.setFld x v).ev = s.ev := rfl
@[simp] theorem setFld_aliveS (x : Fld) (v : Nat) : (s.setFld x v).aliveS = s.aliveS := rfl
@[simp] theorem setFld_aliveRounds (x : Fld) (v : Nat) : (s.setFld x v).aliveRounds = s.aliveRounds := rfl
@[simp] theorem setFld_resetsAt (x : Fld) (v : Nat) : (s.setFld x v).resetsAt = s.resetsAt := rfl
@[simp] theorem setFld_domResets (x : Fld) (v : Nat) : (s.setFld x v).domResets = s.domResets := rfl
@[simp] theorem setFld_healthEv (x : Fld) (v : Nat) : (s.setFld x v).healthEv = s.healthEv := rfl
@[simp] theorem setFld_healthDom (x : Fld) (v : Nat) : (s.setFld x v).healthDom = s.healthDom := rfl
@[simp] theorem setFld_sec (x : Fld) (v : Nat) : (s.setFld x v).sec = s.sec := rfl
@[simp] theorem setFld_time (x : Fld) (v : Nat) : (s.setFld x v).time = s.time := rfl
@[simp] theorem setFld_links (x : Fld) (v : Nat) : (s.setFld x v).links = s.links := rfl
@[simp] theorem setFld_sched (x : Fld) (v : Nat) : (s.setFld x v).sched = s.sched := rfl
@[simp] theorem setFld_pow (x : Fld) (v : Nat) : (s.setFld x v).pow = s.pow := rfl
@[simp] theorem setFld_grid (x : Fld) (v : Nat) : (s.setFld x v).grid = s.grid := rfl
@[simp] theorem setFld_shard (x : Fld) (v : Nat) : (s.setFld x v).shard = s.shard := rfl
@[simp] theorem setFld_sides (x : Fld) (v : Nat) : (s.setFld x v).sides = s.sides := rfl
@[simp] theorem setFld_att (x : Fld) (v : Nat) : (s.setFld x v).att = s.att := rfl
@[simp] theorem setFld_fab (x : Fld) (v : Nat) : (s.setFld x v).fab = s.fab := rfl
@[simp] theorem setFld_seqs (x : Fld) (v : Nat) : (s.setFld x v).seqs = s.seqs := rfl
@[simp] theorem setFld_mgr (x : Fld) (v : Nat) : (s.setFld x v).mgr = s.mgr := rfl
@[simp] theorem setFld_mem (x : Fld) (v : Nat) : (s.setFld x v).mem = s.mem := rfl
@[simp] theorem setFld_ue (x : Fld) (v : Nat) : (s.setFld x v).ue = s.ue := rfl
@[simp] theorem setFld_sue (x : Fld) (v : Nat) : (s.setFld x v).sue = s.sue := rfl

/-! ### count -/

@[simp] theorem count_pending (x : Fld) (k : Nat) : (s.count x k).pending = s.pending := rfl
@[simp] theorem count_out (x : Fld) (k : Nat) : (s.count x k).out = s.out := rfl
@[simp] theorem count_free (x : Fld) (k : Nat) : (s.count x k).free = s.free := rfl
@[simp] theorem count_beat (x : Fld) (k : Nat) : (s.count x k).beat = s.beat := rfl
@[simp] theorem count_cyc (x : Fld) (k : Nat) : (s.count x k).cyc = s.cyc := rfl
@[simp] theorem count_clk (x : Fld) (k : Nat) : (s.count x k).clk = s.clk := rfl
@[simp] theorem count_dieState (x : Fld) (k : Nat) : (s.count x k).dieState = s.dieState := rfl
@[simp] theorem count_left (x : Fld) (k : Nat) : (s.count x k).left = s.left := rfl
@[simp] theorem count_coreUp (x : Fld) (k : Nat) : (s.count x k).coreUp = s.coreUp := rfl
@[simp] theorem count_supply (x : Fld) (k : Nat) : (s.count x k).supply = s.supply := rfl
@[simp] theorem count_firstBoot (x : Fld) (k : Nat) : (s.count x k).firstBoot = s.firstBoot := rfl
@[simp] theorem count_aged (x : Fld) (k : Nat) : (s.count x k).aged = s.aged := rfl
@[simp] theorem count_qpos (x : Fld) (k : Nat) : (s.count x k).qpos = s.qpos := rfl
@[simp] theorem count_dieReset (x : Fld) (k : Nat) : (s.count x k).dieReset = s.dieReset := rfl
@[simp] theorem count_gated (x : Fld) (k : Nat) : (s.count x k).gated = s.gated := rfl
@[simp] theorem count_shadow (x : Fld) (k : Nat) : (s.count x k).shadow = s.shadow := rfl
@[simp] theorem count_spw (x : Fld) (k : Nat) : (s.count x k).spw = s.spw := rfl
@[simp] theorem count_mbx (x : Fld) (k : Nat) : (s.count x k).mbx = s.mbx := rfl
@[simp] theorem count_rr (x : Fld) (k : Nat) : (s.count x k).rr = s.rr := rfl
@[simp] theorem count_intWin (x : Fld) (k : Nat) : (s.count x k).intWin = s.intWin := rfl
@[simp] theorem count_faults (x : Fld) (k : Nat) : (s.count x k).faults = s.faults := rfl
@[simp] theorem count_ev (x : Fld) (k : Nat) : (s.count x k).ev = s.ev := rfl
@[simp] theorem count_aliveS (x : Fld) (k : Nat) : (s.count x k).aliveS = s.aliveS := rfl
@[simp] theorem count_aliveRounds (x : Fld) (k : Nat) : (s.count x k).aliveRounds = s.aliveRounds := rfl
@[simp] theorem count_resetsAt (x : Fld) (k : Nat) : (s.count x k).resetsAt = s.resetsAt := rfl
@[simp] theorem count_domResets (x : Fld) (k : Nat) : (s.count x k).domResets = s.domResets := rfl
@[simp] theorem count_healthEv (x : Fld) (k : Nat) : (s.count x k).healthEv = s.healthEv := rfl
@[simp] theorem count_healthDom (x : Fld) (k : Nat) : (s.count x k).healthDom = s.healthDom := rfl
@[simp] theorem count_sec (x : Fld) (k : Nat) : (s.count x k).sec = s.sec := rfl
@[simp] theorem count_time (x : Fld) (k : Nat) : (s.count x k).time = s.time := rfl
@[simp] theorem count_links (x : Fld) (k : Nat) : (s.count x k).links = s.links := rfl
@[simp] theorem count_sched (x : Fld) (k : Nat) : (s.count x k).sched = s.sched := rfl
@[simp] theorem count_pow (x : Fld) (k : Nat) : (s.count x k).pow = s.pow := rfl
@[simp] theorem count_grid (x : Fld) (k : Nat) : (s.count x k).grid = s.grid := rfl
@[simp] theorem count_shard (x : Fld) (k : Nat) : (s.count x k).shard = s.shard := rfl
@[simp] theorem count_sides (x : Fld) (k : Nat) : (s.count x k).sides = s.sides := rfl
@[simp] theorem count_att (x : Fld) (k : Nat) : (s.count x k).att = s.att := rfl
@[simp] theorem count_fab (x : Fld) (k : Nat) : (s.count x k).fab = s.fab := rfl
@[simp] theorem count_seqs (x : Fld) (k : Nat) : (s.count x k).seqs = s.seqs := rfl
@[simp] theorem count_mgr (x : Fld) (k : Nat) : (s.count x k).mgr = s.mgr := rfl
@[simp] theorem count_mem (x : Fld) (k : Nat) : (s.count x k).mem = s.mem := rfl
@[simp] theorem count_ue (x : Fld) (k : Nat) : (s.count x k).ue = s.ue := rfl
@[simp] theorem count_sue (x : Fld) (k : Nat) : (s.count x k).sue = s.sue := rfl

/-! ### countWrap -/

@[simp] theorem countWrap_pending (x : Fld) : (s.countWrap x).pending = s.pending := rfl
@[simp] theorem countWrap_out (x : Fld) : (s.countWrap x).out = s.out := rfl
@[simp] theorem countWrap_free (x : Fld) : (s.countWrap x).free = s.free := rfl
@[simp] theorem countWrap_beat (x : Fld) : (s.countWrap x).beat = s.beat := rfl
@[simp] theorem countWrap_cyc (x : Fld) : (s.countWrap x).cyc = s.cyc := rfl
@[simp] theorem countWrap_clk (x : Fld) : (s.countWrap x).clk = s.clk := rfl
@[simp] theorem countWrap_dieState (x : Fld) : (s.countWrap x).dieState = s.dieState := rfl
@[simp] theorem countWrap_left (x : Fld) : (s.countWrap x).left = s.left := rfl
@[simp] theorem countWrap_coreUp (x : Fld) : (s.countWrap x).coreUp = s.coreUp := rfl
@[simp] theorem countWrap_supply (x : Fld) : (s.countWrap x).supply = s.supply := rfl
@[simp] theorem countWrap_firstBoot (x : Fld) : (s.countWrap x).firstBoot = s.firstBoot := rfl
@[simp] theorem countWrap_aged (x : Fld) : (s.countWrap x).aged = s.aged := rfl
@[simp] theorem countWrap_qpos (x : Fld) : (s.countWrap x).qpos = s.qpos := rfl
@[simp] theorem countWrap_dieReset (x : Fld) : (s.countWrap x).dieReset = s.dieReset := rfl
@[simp] theorem countWrap_gated (x : Fld) : (s.countWrap x).gated = s.gated := rfl
@[simp] theorem countWrap_shadow (x : Fld) : (s.countWrap x).shadow = s.shadow := rfl
@[simp] theorem countWrap_spw (x : Fld) : (s.countWrap x).spw = s.spw := rfl
@[simp] theorem countWrap_mbx (x : Fld) : (s.countWrap x).mbx = s.mbx := rfl
@[simp] theorem countWrap_rr (x : Fld) : (s.countWrap x).rr = s.rr := rfl
@[simp] theorem countWrap_intWin (x : Fld) : (s.countWrap x).intWin = s.intWin := rfl
@[simp] theorem countWrap_faults (x : Fld) : (s.countWrap x).faults = s.faults := rfl
@[simp] theorem countWrap_ev (x : Fld) : (s.countWrap x).ev = s.ev := rfl
@[simp] theorem countWrap_aliveS (x : Fld) : (s.countWrap x).aliveS = s.aliveS := rfl
@[simp] theorem countWrap_aliveRounds (x : Fld) : (s.countWrap x).aliveRounds = s.aliveRounds := rfl
@[simp] theorem countWrap_resetsAt (x : Fld) : (s.countWrap x).resetsAt = s.resetsAt := rfl
@[simp] theorem countWrap_domResets (x : Fld) : (s.countWrap x).domResets = s.domResets := rfl
@[simp] theorem countWrap_healthEv (x : Fld) : (s.countWrap x).healthEv = s.healthEv := rfl
@[simp] theorem countWrap_healthDom (x : Fld) : (s.countWrap x).healthDom = s.healthDom := rfl
@[simp] theorem countWrap_sec (x : Fld) : (s.countWrap x).sec = s.sec := rfl
@[simp] theorem countWrap_time (x : Fld) : (s.countWrap x).time = s.time := rfl
@[simp] theorem countWrap_links (x : Fld) : (s.countWrap x).links = s.links := rfl
@[simp] theorem countWrap_sched (x : Fld) : (s.countWrap x).sched = s.sched := rfl
@[simp] theorem countWrap_pow (x : Fld) : (s.countWrap x).pow = s.pow := rfl
@[simp] theorem countWrap_grid (x : Fld) : (s.countWrap x).grid = s.grid := rfl
@[simp] theorem countWrap_shard (x : Fld) : (s.countWrap x).shard = s.shard := rfl
@[simp] theorem countWrap_sides (x : Fld) : (s.countWrap x).sides = s.sides := rfl
@[simp] theorem countWrap_att (x : Fld) : (s.countWrap x).att = s.att := rfl
@[simp] theorem countWrap_fab (x : Fld) : (s.countWrap x).fab = s.fab := rfl
@[simp] theorem countWrap_seqs (x : Fld) : (s.countWrap x).seqs = s.seqs := rfl
@[simp] theorem countWrap_mgr (x : Fld) : (s.countWrap x).mgr = s.mgr := rfl
@[simp] theorem countWrap_mem (x : Fld) : (s.countWrap x).mem = s.mem := rfl
@[simp] theorem countWrap_ue (x : Fld) : (s.countWrap x).ue = s.ue := rfl
@[simp] theorem countWrap_sue (x : Fld) : (s.countWrap x).sue = s.sue := rfl

/-! ### toCycle -/

@[simp] theorem toCycle_pending (n : Nat) : (s.toCycle n).pending = s.pending := rfl
@[simp] theorem toCycle_out (n : Nat) : (s.toCycle n).out = s.out := rfl
@[simp] theorem toCycle_free (n : Nat) : (s.toCycle n).free = s.free := rfl
@[simp] theorem toCycle_beat (n : Nat) : (s.toCycle n).beat = s.beat := rfl
@[simp] theorem toCycle_dieState (n : Nat) : (s.toCycle n).dieState = s.dieState := rfl
@[simp] theorem toCycle_left (n : Nat) : (s.toCycle n).left = s.left := rfl
@[simp] theorem toCycle_coreUp (n : Nat) : (s.toCycle n).coreUp = s.coreUp := rfl
@[simp] theorem toCycle_supply (n : Nat) : (s.toCycle n).supply = s.supply := rfl
@[simp] theorem toCycle_firstBoot (n : Nat) : (s.toCycle n).firstBoot = s.firstBoot := rfl
@[simp] theorem toCycle_aged (n : Nat) : (s.toCycle n).aged = s.aged := rfl
@[simp] theorem toCycle_qpos (n : Nat) : (s.toCycle n).qpos = s.qpos := rfl
@[simp] theorem toCycle_dieReset (n : Nat) : (s.toCycle n).dieReset = s.dieReset := rfl
@[simp] theorem toCycle_csr (n : Nat) : (s.toCycle n).csr = s.csr := rfl
@[simp] theorem toCycle_gated (n : Nat) : (s.toCycle n).gated = s.gated := rfl
@[simp] theorem toCycle_shadow (n : Nat) : (s.toCycle n).shadow = s.shadow := rfl
@[simp] theorem toCycle_spw (n : Nat) : (s.toCycle n).spw = s.spw := rfl
@[simp] theorem toCycle_mbx (n : Nat) : (s.toCycle n).mbx = s.mbx := rfl
@[simp] theorem toCycle_rr (n : Nat) : (s.toCycle n).rr = s.rr := rfl
@[simp] theorem toCycle_intWin (n : Nat) : (s.toCycle n).intWin = s.intWin := rfl
@[simp] theorem toCycle_faults (n : Nat) : (s.toCycle n).faults = s.faults := rfl
@[simp] theorem toCycle_ev (n : Nat) : (s.toCycle n).ev = s.ev := rfl
@[simp] theorem toCycle_aliveS (n : Nat) : (s.toCycle n).aliveS = s.aliveS := rfl
@[simp] theorem toCycle_aliveRounds (n : Nat) : (s.toCycle n).aliveRounds = s.aliveRounds := rfl
@[simp] theorem toCycle_resetsAt (n : Nat) : (s.toCycle n).resetsAt = s.resetsAt := rfl
@[simp] theorem toCycle_domResets (n : Nat) : (s.toCycle n).domResets = s.domResets := rfl
@[simp] theorem toCycle_healthEv (n : Nat) : (s.toCycle n).healthEv = s.healthEv := rfl
@[simp] theorem toCycle_healthDom (n : Nat) : (s.toCycle n).healthDom = s.healthDom := rfl
@[simp] theorem toCycle_sec (n : Nat) : (s.toCycle n).sec = s.sec := rfl
@[simp] theorem toCycle_time (n : Nat) : (s.toCycle n).time = s.time := rfl
@[simp] theorem toCycle_links (n : Nat) : (s.toCycle n).links = s.links := rfl
@[simp] theorem toCycle_sched (n : Nat) : (s.toCycle n).sched = s.sched := rfl
@[simp] theorem toCycle_pow (n : Nat) : (s.toCycle n).pow = s.pow := rfl
@[simp] theorem toCycle_grid (n : Nat) : (s.toCycle n).grid = s.grid := rfl
@[simp] theorem toCycle_shard (n : Nat) : (s.toCycle n).shard = s.shard := rfl
@[simp] theorem toCycle_sides (n : Nat) : (s.toCycle n).sides = s.sides := rfl
@[simp] theorem toCycle_att (n : Nat) : (s.toCycle n).att = s.att := rfl
@[simp] theorem toCycle_fab (n : Nat) : (s.toCycle n).fab = s.fab := rfl
@[simp] theorem toCycle_seqs (n : Nat) : (s.toCycle n).seqs = s.seqs := rfl
@[simp] theorem toCycle_mgr (n : Nat) : (s.toCycle n).mgr = s.mgr := rfl
@[simp] theorem toCycle_mem (n : Nat) : (s.toCycle n).mem = s.mem := rfl
@[simp] theorem toCycle_ue (n : Nat) : (s.toCycle n).ue = s.ue := rfl
@[simp] theorem toCycle_sue (n : Nat) : (s.toCycle n).sue = s.sue := rfl

/-! ### atSlot -/

@[simp] theorem atSlot_pending (k : Nat) : (s.atSlot k).pending = s.pending := rfl
@[simp] theorem atSlot_out (k : Nat) : (s.atSlot k).out = s.out := rfl
@[simp] theorem atSlot_free (k : Nat) : (s.atSlot k).free = s.free := rfl
@[simp] theorem atSlot_beat (k : Nat) : (s.atSlot k).beat = s.beat := rfl
@[simp] theorem atSlot_dieState (k : Nat) : (s.atSlot k).dieState = s.dieState := rfl
@[simp] theorem atSlot_left (k : Nat) : (s.atSlot k).left = s.left := rfl
@[simp] theorem atSlot_coreUp (k : Nat) : (s.atSlot k).coreUp = s.coreUp := rfl
@[simp] theorem atSlot_supply (k : Nat) : (s.atSlot k).supply = s.supply := rfl
@[simp] theorem atSlot_firstBoot (k : Nat) : (s.atSlot k).firstBoot = s.firstBoot := rfl
@[simp] theorem atSlot_aged (k : Nat) : (s.atSlot k).aged = s.aged := rfl
@[simp] theorem atSlot_qpos (k : Nat) : (s.atSlot k).qpos = s.qpos := rfl
@[simp] theorem atSlot_dieReset (k : Nat) : (s.atSlot k).dieReset = s.dieReset := rfl
@[simp] theorem atSlot_csr (k : Nat) : (s.atSlot k).csr = s.csr := rfl
@[simp] theorem atSlot_gated (k : Nat) : (s.atSlot k).gated = s.gated := rfl
@[simp] theorem atSlot_shadow (k : Nat) : (s.atSlot k).shadow = s.shadow := rfl
@[simp] theorem atSlot_spw (k : Nat) : (s.atSlot k).spw = s.spw := rfl
@[simp] theorem atSlot_mbx (k : Nat) : (s.atSlot k).mbx = s.mbx := rfl
@[simp] theorem atSlot_rr (k : Nat) : (s.atSlot k).rr = s.rr := rfl
@[simp] theorem atSlot_intWin (k : Nat) : (s.atSlot k).intWin = s.intWin := rfl
@[simp] theorem atSlot_faults (k : Nat) : (s.atSlot k).faults = s.faults := rfl
@[simp] theorem atSlot_ev (k : Nat) : (s.atSlot k).ev = s.ev := rfl
@[simp] theorem atSlot_aliveS (k : Nat) : (s.atSlot k).aliveS = s.aliveS := rfl
@[simp] theorem atSlot_aliveRounds (k : Nat) : (s.atSlot k).aliveRounds = s.aliveRounds := rfl
@[simp] theorem atSlot_resetsAt (k : Nat) : (s.atSlot k).resetsAt = s.resetsAt := rfl
@[simp] theorem atSlot_domResets (k : Nat) : (s.atSlot k).domResets = s.domResets := rfl
@[simp] theorem atSlot_healthEv (k : Nat) : (s.atSlot k).healthEv = s.healthEv := rfl
@[simp] theorem atSlot_healthDom (k : Nat) : (s.atSlot k).healthDom = s.healthDom := rfl
@[simp] theorem atSlot_sec (k : Nat) : (s.atSlot k).sec = s.sec := rfl
@[simp] theorem atSlot_time (k : Nat) : (s.atSlot k).time = s.time := rfl
@[simp] theorem atSlot_links (k : Nat) : (s.atSlot k).links = s.links := rfl
@[simp] theorem atSlot_sched (k : Nat) : (s.atSlot k).sched = s.sched := rfl
@[simp] theorem atSlot_pow (k : Nat) : (s.atSlot k).pow = s.pow := rfl
@[simp] theorem atSlot_grid (k : Nat) : (s.atSlot k).grid = s.grid := rfl
@[simp] theorem atSlot_shard (k : Nat) : (s.atSlot k).shard = s.shard := rfl
@[simp] theorem atSlot_sides (k : Nat) : (s.atSlot k).sides = s.sides := rfl
@[simp] theorem atSlot_att (k : Nat) : (s.atSlot k).att = s.att := rfl
@[simp] theorem atSlot_fab (k : Nat) : (s.atSlot k).fab = s.fab := rfl
@[simp] theorem atSlot_seqs (k : Nat) : (s.atSlot k).seqs = s.seqs := rfl
@[simp] theorem atSlot_mgr (k : Nat) : (s.atSlot k).mgr = s.mgr := rfl
@[simp] theorem atSlot_mem (k : Nat) : (s.atSlot k).mem = s.mem := rfl
@[simp] theorem atSlot_ue (k : Nat) : (s.atSlot k).ue = s.ue := rfl
@[simp] theorem atSlot_sue (k : Nat) : (s.atSlot k).sue = s.sue := rfl

/-! ### atCycle -/

@[simp] theorem atCycle_pending (k c : Nat) : (s.atCycle k c).pending = s.pending := rfl
@[simp] theorem atCycle_out (k c : Nat) : (s.atCycle k c).out = s.out := rfl
@[simp] theorem atCycle_free (k c : Nat) : (s.atCycle k c).free = s.free := rfl
@[simp] theorem atCycle_beat (k c : Nat) : (s.atCycle k c).beat = s.beat := rfl
@[simp] theorem atCycle_dieState (k c : Nat) : (s.atCycle k c).dieState = s.dieState := rfl
@[simp] theorem atCycle_left (k c : Nat) : (s.atCycle k c).left = s.left := rfl
@[simp] theorem atCycle_coreUp (k c : Nat) : (s.atCycle k c).coreUp = s.coreUp := rfl
@[simp] theorem atCycle_supply (k c : Nat) : (s.atCycle k c).supply = s.supply := rfl
@[simp] theorem atCycle_firstBoot (k c : Nat) : (s.atCycle k c).firstBoot = s.firstBoot := rfl
@[simp] theorem atCycle_aged (k c : Nat) : (s.atCycle k c).aged = s.aged := rfl
@[simp] theorem atCycle_qpos (k c : Nat) : (s.atCycle k c).qpos = s.qpos := rfl
@[simp] theorem atCycle_dieReset (k c : Nat) : (s.atCycle k c).dieReset = s.dieReset := rfl
@[simp] theorem atCycle_csr (k c : Nat) : (s.atCycle k c).csr = s.csr := rfl
@[simp] theorem atCycle_gated (k c : Nat) : (s.atCycle k c).gated = s.gated := rfl
@[simp] theorem atCycle_shadow (k c : Nat) : (s.atCycle k c).shadow = s.shadow := rfl
@[simp] theorem atCycle_spw (k c : Nat) : (s.atCycle k c).spw = s.spw := rfl
@[simp] theorem atCycle_mbx (k c : Nat) : (s.atCycle k c).mbx = s.mbx := rfl
@[simp] theorem atCycle_rr (k c : Nat) : (s.atCycle k c).rr = s.rr := rfl
@[simp] theorem atCycle_intWin (k c : Nat) : (s.atCycle k c).intWin = s.intWin := rfl
@[simp] theorem atCycle_faults (k c : Nat) : (s.atCycle k c).faults = s.faults := rfl
@[simp] theorem atCycle_ev (k c : Nat) : (s.atCycle k c).ev = s.ev := rfl
@[simp] theorem atCycle_aliveS (k c : Nat) : (s.atCycle k c).aliveS = s.aliveS := rfl
@[simp] theorem atCycle_aliveRounds (k c : Nat) : (s.atCycle k c).aliveRounds = s.aliveRounds := rfl
@[simp] theorem atCycle_resetsAt (k c : Nat) : (s.atCycle k c).resetsAt = s.resetsAt := rfl
@[simp] theorem atCycle_domResets (k c : Nat) : (s.atCycle k c).domResets = s.domResets := rfl
@[simp] theorem atCycle_healthEv (k c : Nat) : (s.atCycle k c).healthEv = s.healthEv := rfl
@[simp] theorem atCycle_healthDom (k c : Nat) : (s.atCycle k c).healthDom = s.healthDom := rfl
@[simp] theorem atCycle_sec (k c : Nat) : (s.atCycle k c).sec = s.sec := rfl
@[simp] theorem atCycle_time (k c : Nat) : (s.atCycle k c).time = s.time := rfl
@[simp] theorem atCycle_links (k c : Nat) : (s.atCycle k c).links = s.links := rfl
@[simp] theorem atCycle_sched (k c : Nat) : (s.atCycle k c).sched = s.sched := rfl
@[simp] theorem atCycle_pow (k c : Nat) : (s.atCycle k c).pow = s.pow := rfl
@[simp] theorem atCycle_grid (k c : Nat) : (s.atCycle k c).grid = s.grid := rfl
@[simp] theorem atCycle_shard (k c : Nat) : (s.atCycle k c).shard = s.shard := rfl
@[simp] theorem atCycle_sides (k c : Nat) : (s.atCycle k c).sides = s.sides := rfl
@[simp] theorem atCycle_att (k c : Nat) : (s.atCycle k c).att = s.att := rfl
@[simp] theorem atCycle_fab (k c : Nat) : (s.atCycle k c).fab = s.fab := rfl
@[simp] theorem atCycle_seqs (k c : Nat) : (s.atCycle k c).seqs = s.seqs := rfl
@[simp] theorem atCycle_mgr (k c : Nat) : (s.atCycle k c).mgr = s.mgr := rfl
@[simp] theorem atCycle_mem (k c : Nat) : (s.atCycle k c).mem = s.mem := rfl
@[simp] theorem atCycle_ue (k c : Nat) : (s.atCycle k c).ue = s.ue := rfl
@[simp] theorem atCycle_sue (k c : Nat) : (s.atCycle k c).sue = s.sue := rfl

/-! ### draw -/

@[simp] theorem draw_pending : s.draw.pending = s.pending := rfl
@[simp] theorem draw_out : s.draw.out = s.out := rfl
@[simp] theorem draw_beat : s.draw.beat = s.beat := rfl
@[simp] theorem draw_cyc : s.draw.cyc = s.cyc := rfl
@[simp] theorem draw_clk : s.draw.clk = s.clk := rfl
@[simp] theorem draw_dieState : s.draw.dieState = s.dieState := rfl
@[simp] theorem draw_left : s.draw.left = s.left := rfl
@[simp] theorem draw_coreUp : s.draw.coreUp = s.coreUp := rfl
@[simp] theorem draw_supply : s.draw.supply = s.supply := rfl
@[simp] theorem draw_firstBoot : s.draw.firstBoot = s.firstBoot := rfl
@[simp] theorem draw_aged : s.draw.aged = s.aged := rfl
@[simp] theorem draw_qpos : s.draw.qpos = s.qpos := rfl
@[simp] theorem draw_dieReset : s.draw.dieReset = s.dieReset := rfl
@[simp] theorem draw_csr : s.draw.csr = s.csr := rfl
@[simp] theorem draw_gated : s.draw.gated = s.gated := rfl
@[simp] theorem draw_shadow : s.draw.shadow = s.shadow := rfl
@[simp] theorem draw_spw : s.draw.spw = s.spw := rfl
@[simp] theorem draw_mbx : s.draw.mbx = s.mbx := rfl
@[simp] theorem draw_rr : s.draw.rr = s.rr := rfl
@[simp] theorem draw_intWin : s.draw.intWin = s.intWin := rfl
@[simp] theorem draw_faults : s.draw.faults = s.faults := rfl
@[simp] theorem draw_ev : s.draw.ev = s.ev := rfl
@[simp] theorem draw_aliveS : s.draw.aliveS = s.aliveS := rfl
@[simp] theorem draw_aliveRounds : s.draw.aliveRounds = s.aliveRounds := rfl
@[simp] theorem draw_resetsAt : s.draw.resetsAt = s.resetsAt := rfl
@[simp] theorem draw_domResets : s.draw.domResets = s.domResets := rfl
@[simp] theorem draw_healthEv : s.draw.healthEv = s.healthEv := rfl
@[simp] theorem draw_healthDom : s.draw.healthDom = s.healthDom := rfl
@[simp] theorem draw_sec : s.draw.sec = s.sec := rfl
@[simp] theorem draw_time : s.draw.time = s.time := rfl
@[simp] theorem draw_links : s.draw.links = s.links := rfl
@[simp] theorem draw_sched : s.draw.sched = s.sched := rfl
@[simp] theorem draw_pow : s.draw.pow = s.pow := rfl
@[simp] theorem draw_grid : s.draw.grid = s.grid := rfl
@[simp] theorem draw_shard : s.draw.shard = s.shard := rfl
@[simp] theorem draw_sides : s.draw.sides = s.sides := rfl
@[simp] theorem draw_att : s.draw.att = s.att := rfl
@[simp] theorem draw_fab : s.draw.fab = s.fab := rfl
@[simp] theorem draw_seqs : s.draw.seqs = s.seqs := rfl
@[simp] theorem draw_mgr : s.draw.mgr = s.mgr := rfl
@[simp] theorem draw_mem : s.draw.mem = s.mem := rfl
@[simp] theorem draw_ue : s.draw.ue = s.ue := rfl
@[simp] theorem draw_sue : s.draw.sue = s.sue := rfl

/-! ### emit -/

@[simp] theorem emit_pending (m : Msg) : (s.emit m).pending = s.pending := rfl
@[simp] theorem emit_free (m : Msg) : (s.emit m).free = s.free := rfl
@[simp] theorem emit_beat (m : Msg) : (s.emit m).beat = s.beat := rfl
@[simp] theorem emit_cyc (m : Msg) : (s.emit m).cyc = s.cyc := rfl
@[simp] theorem emit_clk (m : Msg) : (s.emit m).clk = s.clk := rfl
@[simp] theorem emit_dieState (m : Msg) : (s.emit m).dieState = s.dieState := rfl
@[simp] theorem emit_left (m : Msg) : (s.emit m).left = s.left := rfl
@[simp] theorem emit_coreUp (m : Msg) : (s.emit m).coreUp = s.coreUp := rfl
@[simp] theorem emit_supply (m : Msg) : (s.emit m).supply = s.supply := rfl
@[simp] theorem emit_firstBoot (m : Msg) : (s.emit m).firstBoot = s.firstBoot := rfl
@[simp] theorem emit_aged (m : Msg) : (s.emit m).aged = s.aged := rfl
@[simp] theorem emit_qpos (m : Msg) : (s.emit m).qpos = s.qpos := rfl
@[simp] theorem emit_dieReset (m : Msg) : (s.emit m).dieReset = s.dieReset := rfl
@[simp] theorem emit_csr (m : Msg) : (s.emit m).csr = s.csr := rfl
@[simp] theorem emit_gated (m : Msg) : (s.emit m).gated = s.gated := rfl
@[simp] theorem emit_shadow (m : Msg) : (s.emit m).shadow = s.shadow := rfl
@[simp] theorem emit_spw (m : Msg) : (s.emit m).spw = s.spw := rfl
@[simp] theorem emit_mbx (m : Msg) : (s.emit m).mbx = s.mbx := rfl
@[simp] theorem emit_rr (m : Msg) : (s.emit m).rr = s.rr := rfl
@[simp] theorem emit_intWin (m : Msg) : (s.emit m).intWin = s.intWin := rfl
@[simp] theorem emit_faults (m : Msg) : (s.emit m).faults = s.faults := rfl
@[simp] theorem emit_ev (m : Msg) : (s.emit m).ev = s.ev := rfl
@[simp] theorem emit_aliveS (m : Msg) : (s.emit m).aliveS = s.aliveS := rfl
@[simp] theorem emit_aliveRounds (m : Msg) : (s.emit m).aliveRounds = s.aliveRounds := rfl
@[simp] theorem emit_resetsAt (m : Msg) : (s.emit m).resetsAt = s.resetsAt := rfl
@[simp] theorem emit_domResets (m : Msg) : (s.emit m).domResets = s.domResets := rfl
@[simp] theorem emit_healthEv (m : Msg) : (s.emit m).healthEv = s.healthEv := rfl
@[simp] theorem emit_healthDom (m : Msg) : (s.emit m).healthDom = s.healthDom := rfl
@[simp] theorem emit_sec (m : Msg) : (s.emit m).sec = s.sec := rfl
@[simp] theorem emit_time (m : Msg) : (s.emit m).time = s.time := rfl
@[simp] theorem emit_links (m : Msg) : (s.emit m).links = s.links := rfl
@[simp] theorem emit_sched (m : Msg) : (s.emit m).sched = s.sched := rfl
@[simp] theorem emit_pow (m : Msg) : (s.emit m).pow = s.pow := rfl
@[simp] theorem emit_grid (m : Msg) : (s.emit m).grid = s.grid := rfl
@[simp] theorem emit_shard (m : Msg) : (s.emit m).shard = s.shard := rfl
@[simp] theorem emit_sides (m : Msg) : (s.emit m).sides = s.sides := rfl
@[simp] theorem emit_att (m : Msg) : (s.emit m).att = s.att := rfl
@[simp] theorem emit_fab (m : Msg) : (s.emit m).fab = s.fab := rfl
@[simp] theorem emit_seqs (m : Msg) : (s.emit m).seqs = s.seqs := rfl
@[simp] theorem emit_mgr (m : Msg) : (s.emit m).mgr = s.mgr := rfl
@[simp] theorem emit_mem (m : Msg) : (s.emit m).mem = s.mem := rfl
@[simp] theorem emit_ue (m : Msg) : (s.emit m).ue = s.ue := rfl
@[simp] theorem emit_sue (m : Msg) : (s.emit m).sue = s.sue := rfl

/-! ### updMb -/

@[simp] theorem updMb_pending (m : Nat) (g : Mailbox → Mailbox) : (s.updMb m g).pending = s.pending := rfl
@[simp] theorem updMb_out (m : Nat) (g : Mailbox → Mailbox) : (s.updMb m g).out = s.out := rfl
@[simp] theorem updMb_free (m : Nat) (g : Mailbox → Mailbox) : (s.updMb m g).free = s.free := rfl
@[simp] theorem updMb_beat (m : Nat) (g : Mailbox → Mailbox) : (s.updMb m g).beat = s.beat := rfl
@[simp] theorem updMb_cyc (m : Nat) (g : Mailbox → Mailbox) : (s.updMb m g).cyc = s.cyc := rfl
@[simp] theorem updMb_clk (m : Nat) (g : Mailbox → Mailbox) : (s.updMb m g).clk = s.clk := rfl
@[simp] theorem updMb_dieState (m : Nat) (g : Mailbox → Mailbox) : (s.updMb m g).dieState = s.dieState := rfl
@[simp] theorem updMb_left (m : Nat) (g : Mailbox → Mailbox) : (s.updMb m g).left = s.left := rfl
@[simp] theorem updMb_coreUp (m : Nat) (g : Mailbox → Mailbox) : (s.updMb m g).coreUp = s.coreUp := rfl
@[simp] theorem updMb_supply (m : Nat) (g : Mailbox → Mailbox) : (s.updMb m g).supply = s.supply := rfl
@[simp] theorem updMb_firstBoot (m : Nat) (g : Mailbox → Mailbox) : (s.updMb m g).firstBoot = s.firstBoot := rfl
@[simp] theorem updMb_aged (m : Nat) (g : Mailbox → Mailbox) : (s.updMb m g).aged = s.aged := rfl
@[simp] theorem updMb_qpos (m : Nat) (g : Mailbox → Mailbox) : (s.updMb m g).qpos = s.qpos := rfl
@[simp] theorem updMb_dieReset (m : Nat) (g : Mailbox → Mailbox) : (s.updMb m g).dieReset = s.dieReset := rfl
@[simp] theorem updMb_csr (m : Nat) (g : Mailbox → Mailbox) : (s.updMb m g).csr = s.csr := rfl
@[simp] theorem updMb_gated (m : Nat) (g : Mailbox → Mailbox) : (s.updMb m g).gated = s.gated := rfl
@[simp] theorem updMb_shadow (m : Nat) (g : Mailbox → Mailbox) : (s.updMb m g).shadow = s.shadow := rfl
@[simp] theorem updMb_spw (m : Nat) (g : Mailbox → Mailbox) : (s.updMb m g).spw = s.spw := rfl
@[simp] theorem updMb_rr (m : Nat) (g : Mailbox → Mailbox) : (s.updMb m g).rr = s.rr := rfl
@[simp] theorem updMb_intWin (m : Nat) (g : Mailbox → Mailbox) : (s.updMb m g).intWin = s.intWin := rfl
@[simp] theorem updMb_faults (m : Nat) (g : Mailbox → Mailbox) : (s.updMb m g).faults = s.faults := rfl
@[simp] theorem updMb_ev (m : Nat) (g : Mailbox → Mailbox) : (s.updMb m g).ev = s.ev := rfl
@[simp] theorem updMb_aliveS (m : Nat) (g : Mailbox → Mailbox) : (s.updMb m g).aliveS = s.aliveS := rfl
@[simp] theorem updMb_aliveRounds (m : Nat) (g : Mailbox → Mailbox) : (s.updMb m g).aliveRounds = s.aliveRounds := rfl
@[simp] theorem updMb_resetsAt (m : Nat) (g : Mailbox → Mailbox) : (s.updMb m g).resetsAt = s.resetsAt := rfl
@[simp] theorem updMb_domResets (m : Nat) (g : Mailbox → Mailbox) : (s.updMb m g).domResets = s.domResets := rfl
@[simp] theorem updMb_healthEv (m : Nat) (g : Mailbox → Mailbox) : (s.updMb m g).healthEv = s.healthEv := rfl
@[simp] theorem updMb_healthDom (m : Nat) (g : Mailbox → Mailbox) : (s.updMb m g).healthDom = s.healthDom := rfl
@[simp] theorem updMb_sec (m : Nat) (g : Mailbox → Mailbox) : (s.updMb m g).sec = s.sec := rfl
@[simp] theorem updMb_time (m : Nat) (g : Mailbox → Mailbox) : (s.updMb m g).time = s.time := rfl
@[simp] theorem updMb_links (m : Nat) (g : Mailbox → Mailbox) : (s.updMb m g).links = s.links := rfl
@[simp] theorem updMb_sched (m : Nat) (g : Mailbox → Mailbox) : (s.updMb m g).sched = s.sched := rfl
@[simp] theorem updMb_pow (m : Nat) (g : Mailbox → Mailbox) : (s.updMb m g).pow = s.pow := rfl
@[simp] theorem updMb_grid (m : Nat) (g : Mailbox → Mailbox) : (s.updMb m g).grid = s.grid := rfl
@[simp] theorem updMb_shard (m : Nat) (g : Mailbox → Mailbox) : (s.updMb m g).shard = s.shard := rfl
@[simp] theorem updMb_sides (m : Nat) (g : Mailbox → Mailbox) : (s.updMb m g).sides = s.sides := rfl
@[simp] theorem updMb_att (m : Nat) (g : Mailbox → Mailbox) : (s.updMb m g).att = s.att := rfl
@[simp] theorem updMb_fab (m : Nat) (g : Mailbox → Mailbox) : (s.updMb m g).fab = s.fab := rfl
@[simp] theorem updMb_seqs (m : Nat) (g : Mailbox → Mailbox) : (s.updMb m g).seqs = s.seqs := rfl
@[simp] theorem updMb_mgr (m : Nat) (g : Mailbox → Mailbox) : (s.updMb m g).mgr = s.mgr := rfl
@[simp] theorem updMb_mem (m : Nat) (g : Mailbox → Mailbox) : (s.updMb m g).mem = s.mem := rfl
@[simp] theorem updMb_ue (m : Nat) (g : Mailbox → Mailbox) : (s.updMb m g).ue = s.ue := rfl
@[simp] theorem updMb_sue (m : Nat) (g : Mailbox → Mailbox) : (s.updMb m g).sue = s.sue := rfl

/-! ### updJob -/

@[simp] theorem updJob_pending (m k : Nat) (g : Job → Job) : (s.updJob m k g).pending = s.pending := rfl
@[simp] theorem updJob_out (m k : Nat) (g : Job → Job) : (s.updJob m k g).out = s.out := rfl
@[simp] theorem updJob_free (m k : Nat) (g : Job → Job) : (s.updJob m k g).free = s.free := rfl
@[simp] theorem updJob_beat (m k : Nat) (g : Job → Job) : (s.updJob m k g).beat = s.beat := rfl
@[simp] theorem updJob_cyc (m k : Nat) (g : Job → Job) : (s.updJob m k g).cyc = s.cyc := rfl
@[simp] theorem updJob_clk (m k : Nat) (g : Job → Job) : (s.updJob m k g).clk = s.clk := rfl
@[simp] theorem updJob_dieState (m k : Nat) (g : Job → Job) : (s.updJob m k g).dieState = s.dieState := rfl
@[simp] theorem updJob_left (m k : Nat) (g : Job → Job) : (s.updJob m k g).left = s.left := rfl
@[simp] theorem updJob_coreUp (m k : Nat) (g : Job → Job) : (s.updJob m k g).coreUp = s.coreUp := rfl
@[simp] theorem updJob_supply (m k : Nat) (g : Job → Job) : (s.updJob m k g).supply = s.supply := rfl
@[simp] theorem updJob_firstBoot (m k : Nat) (g : Job → Job) : (s.updJob m k g).firstBoot = s.firstBoot := rfl
@[simp] theorem updJob_aged (m k : Nat) (g : Job → Job) : (s.updJob m k g).aged = s.aged := rfl
@[simp] theorem updJob_qpos (m k : Nat) (g : Job → Job) : (s.updJob m k g).qpos = s.qpos := rfl
@[simp] theorem updJob_dieReset (m k : Nat) (g : Job → Job) : (s.updJob m k g).dieReset = s.dieReset := rfl
@[simp] theorem updJob_csr (m k : Nat) (g : Job → Job) : (s.updJob m k g).csr = s.csr := rfl
@[simp] theorem updJob_gated (m k : Nat) (g : Job → Job) : (s.updJob m k g).gated = s.gated := rfl
@[simp] theorem updJob_shadow (m k : Nat) (g : Job → Job) : (s.updJob m k g).shadow = s.shadow := rfl
@[simp] theorem updJob_spw (m k : Nat) (g : Job → Job) : (s.updJob m k g).spw = s.spw := rfl
@[simp] theorem updJob_rr (m k : Nat) (g : Job → Job) : (s.updJob m k g).rr = s.rr := rfl
@[simp] theorem updJob_intWin (m k : Nat) (g : Job → Job) : (s.updJob m k g).intWin = s.intWin := rfl
@[simp] theorem updJob_faults (m k : Nat) (g : Job → Job) : (s.updJob m k g).faults = s.faults := rfl
@[simp] theorem updJob_ev (m k : Nat) (g : Job → Job) : (s.updJob m k g).ev = s.ev := rfl
@[simp] theorem updJob_aliveS (m k : Nat) (g : Job → Job) : (s.updJob m k g).aliveS = s.aliveS := rfl
@[simp] theorem updJob_aliveRounds (m k : Nat) (g : Job → Job) : (s.updJob m k g).aliveRounds = s.aliveRounds := rfl
@[simp] theorem updJob_resetsAt (m k : Nat) (g : Job → Job) : (s.updJob m k g).resetsAt = s.resetsAt := rfl
@[simp] theorem updJob_domResets (m k : Nat) (g : Job → Job) : (s.updJob m k g).domResets = s.domResets := rfl
@[simp] theorem updJob_healthEv (m k : Nat) (g : Job → Job) : (s.updJob m k g).healthEv = s.healthEv := rfl
@[simp] theorem updJob_healthDom (m k : Nat) (g : Job → Job) : (s.updJob m k g).healthDom = s.healthDom := rfl
@[simp] theorem updJob_sec (m k : Nat) (g : Job → Job) : (s.updJob m k g).sec = s.sec := rfl
@[simp] theorem updJob_time (m k : Nat) (g : Job → Job) : (s.updJob m k g).time = s.time := rfl
@[simp] theorem updJob_links (m k : Nat) (g : Job → Job) : (s.updJob m k g).links = s.links := rfl
@[simp] theorem updJob_sched (m k : Nat) (g : Job → Job) : (s.updJob m k g).sched = s.sched := rfl
@[simp] theorem updJob_pow (m k : Nat) (g : Job → Job) : (s.updJob m k g).pow = s.pow := rfl
@[simp] theorem updJob_grid (m k : Nat) (g : Job → Job) : (s.updJob m k g).grid = s.grid := rfl
@[simp] theorem updJob_shard (m k : Nat) (g : Job → Job) : (s.updJob m k g).shard = s.shard := rfl
@[simp] theorem updJob_sides (m k : Nat) (g : Job → Job) : (s.updJob m k g).sides = s.sides := rfl
@[simp] theorem updJob_att (m k : Nat) (g : Job → Job) : (s.updJob m k g).att = s.att := rfl
@[simp] theorem updJob_fab (m k : Nat) (g : Job → Job) : (s.updJob m k g).fab = s.fab := rfl
@[simp] theorem updJob_seqs (m k : Nat) (g : Job → Job) : (s.updJob m k g).seqs = s.seqs := rfl
@[simp] theorem updJob_mgr (m k : Nat) (g : Job → Job) : (s.updJob m k g).mgr = s.mgr := rfl
@[simp] theorem updJob_mem (m k : Nat) (g : Job → Job) : (s.updJob m k g).mem = s.mem := rfl
@[simp] theorem updJob_ue (m k : Nat) (g : Job → Job) : (s.updJob m k g).ue = s.ue := rfl
@[simp] theorem updJob_sue (m k : Nat) (g : Job → Job) : (s.updJob m k g).sue = s.sue := rfl

/-! ### updLnk -/

@[simp] theorem updLnk_pending (n : Nat) (g : Link → Link) : (s.updLnk n g).pending = s.pending := rfl
@[simp] theorem updLnk_out (n : Nat) (g : Link → Link) : (s.updLnk n g).out = s.out := rfl
@[simp] theorem updLnk_free (n : Nat) (g : Link → Link) : (s.updLnk n g).free = s.free := rfl
@[simp] theorem updLnk_beat (n : Nat) (g : Link → Link) : (s.updLnk n g).beat = s.beat := rfl
@[simp] theorem updLnk_cyc (n : Nat) (g : Link → Link) : (s.updLnk n g).cyc = s.cyc := rfl
@[simp] theorem updLnk_clk (n : Nat) (g : Link → Link) : (s.updLnk n g).clk = s.clk := rfl
@[simp] theorem updLnk_dieState (n : Nat) (g : Link → Link) : (s.updLnk n g).dieState = s.dieState := rfl
@[simp] theorem updLnk_left (n : Nat) (g : Link → Link) : (s.updLnk n g).left = s.left := rfl
@[simp] theorem updLnk_coreUp (n : Nat) (g : Link → Link) : (s.updLnk n g).coreUp = s.coreUp := rfl
@[simp] theorem updLnk_supply (n : Nat) (g : Link → Link) : (s.updLnk n g).supply = s.supply := rfl
@[simp] theorem updLnk_firstBoot (n : Nat) (g : Link → Link) : (s.updLnk n g).firstBoot = s.firstBoot := rfl
@[simp] theorem updLnk_aged (n : Nat) (g : Link → Link) : (s.updLnk n g).aged = s.aged := rfl
@[simp] theorem updLnk_qpos (n : Nat) (g : Link → Link) : (s.updLnk n g).qpos = s.qpos := rfl
@[simp] theorem updLnk_dieReset (n : Nat) (g : Link → Link) : (s.updLnk n g).dieReset = s.dieReset := rfl
@[simp] theorem updLnk_csr (n : Nat) (g : Link → Link) : (s.updLnk n g).csr = s.csr := rfl
@[simp] theorem updLnk_gated (n : Nat) (g : Link → Link) : (s.updLnk n g).gated = s.gated := rfl
@[simp] theorem updLnk_shadow (n : Nat) (g : Link → Link) : (s.updLnk n g).shadow = s.shadow := rfl
@[simp] theorem updLnk_spw (n : Nat) (g : Link → Link) : (s.updLnk n g).spw = s.spw := rfl
@[simp] theorem updLnk_mbx (n : Nat) (g : Link → Link) : (s.updLnk n g).mbx = s.mbx := rfl
@[simp] theorem updLnk_rr (n : Nat) (g : Link → Link) : (s.updLnk n g).rr = s.rr := rfl
@[simp] theorem updLnk_intWin (n : Nat) (g : Link → Link) : (s.updLnk n g).intWin = s.intWin := rfl
@[simp] theorem updLnk_faults (n : Nat) (g : Link → Link) : (s.updLnk n g).faults = s.faults := rfl
@[simp] theorem updLnk_ev (n : Nat) (g : Link → Link) : (s.updLnk n g).ev = s.ev := rfl
@[simp] theorem updLnk_aliveS (n : Nat) (g : Link → Link) : (s.updLnk n g).aliveS = s.aliveS := rfl
@[simp] theorem updLnk_aliveRounds (n : Nat) (g : Link → Link) : (s.updLnk n g).aliveRounds = s.aliveRounds := rfl
@[simp] theorem updLnk_resetsAt (n : Nat) (g : Link → Link) : (s.updLnk n g).resetsAt = s.resetsAt := rfl
@[simp] theorem updLnk_domResets (n : Nat) (g : Link → Link) : (s.updLnk n g).domResets = s.domResets := rfl
@[simp] theorem updLnk_healthEv (n : Nat) (g : Link → Link) : (s.updLnk n g).healthEv = s.healthEv := rfl
@[simp] theorem updLnk_healthDom (n : Nat) (g : Link → Link) : (s.updLnk n g).healthDom = s.healthDom := rfl
@[simp] theorem updLnk_sec (n : Nat) (g : Link → Link) : (s.updLnk n g).sec = s.sec := rfl
@[simp] theorem updLnk_time (n : Nat) (g : Link → Link) : (s.updLnk n g).time = s.time := rfl
@[simp] theorem updLnk_sched (n : Nat) (g : Link → Link) : (s.updLnk n g).sched = s.sched := rfl
@[simp] theorem updLnk_pow (n : Nat) (g : Link → Link) : (s.updLnk n g).pow = s.pow := rfl
@[simp] theorem updLnk_grid (n : Nat) (g : Link → Link) : (s.updLnk n g).grid = s.grid := rfl
@[simp] theorem updLnk_shard (n : Nat) (g : Link → Link) : (s.updLnk n g).shard = s.shard := rfl
@[simp] theorem updLnk_sides (n : Nat) (g : Link → Link) : (s.updLnk n g).sides = s.sides := rfl
@[simp] theorem updLnk_att (n : Nat) (g : Link → Link) : (s.updLnk n g).att = s.att := rfl
@[simp] theorem updLnk_fab (n : Nat) (g : Link → Link) : (s.updLnk n g).fab = s.fab := rfl
@[simp] theorem updLnk_seqs (n : Nat) (g : Link → Link) : (s.updLnk n g).seqs = s.seqs := rfl
@[simp] theorem updLnk_mgr (n : Nat) (g : Link → Link) : (s.updLnk n g).mgr = s.mgr := rfl
@[simp] theorem updLnk_mem (n : Nat) (g : Link → Link) : (s.updLnk n g).mem = s.mem := rfl
@[simp] theorem updLnk_ue (n : Nat) (g : Link → Link) : (s.updLnk n g).ue = s.ue := rfl
@[simp] theorem updLnk_sue (n : Nat) (g : Link → Link) : (s.updLnk n g).sue = s.sue := rfl

/-! ### updTile -/

@[simp] theorem updTile_pending (t : Nat) (g : Tile → Tile) : (s.updTile t g).pending = s.pending := rfl
@[simp] theorem updTile_out (t : Nat) (g : Tile → Tile) : (s.updTile t g).out = s.out := rfl
@[simp] theorem updTile_free (t : Nat) (g : Tile → Tile) : (s.updTile t g).free = s.free := rfl
@[simp] theorem updTile_beat (t : Nat) (g : Tile → Tile) : (s.updTile t g).beat = s.beat := rfl
@[simp] theorem updTile_cyc (t : Nat) (g : Tile → Tile) : (s.updTile t g).cyc = s.cyc := rfl
@[simp] theorem updTile_clk (t : Nat) (g : Tile → Tile) : (s.updTile t g).clk = s.clk := rfl
@[simp] theorem updTile_dieState (t : Nat) (g : Tile → Tile) : (s.updTile t g).dieState = s.dieState := rfl
@[simp] theorem updTile_left (t : Nat) (g : Tile → Tile) : (s.updTile t g).left = s.left := rfl
@[simp] theorem updTile_coreUp (t : Nat) (g : Tile → Tile) : (s.updTile t g).coreUp = s.coreUp := rfl
@[simp] theorem updTile_supply (t : Nat) (g : Tile → Tile) : (s.updTile t g).supply = s.supply := rfl
@[simp] theorem updTile_firstBoot (t : Nat) (g : Tile → Tile) : (s.updTile t g).firstBoot = s.firstBoot := rfl
@[simp] theorem updTile_aged (t : Nat) (g : Tile → Tile) : (s.updTile t g).aged = s.aged := rfl
@[simp] theorem updTile_qpos (t : Nat) (g : Tile → Tile) : (s.updTile t g).qpos = s.qpos := rfl
@[simp] theorem updTile_dieReset (t : Nat) (g : Tile → Tile) : (s.updTile t g).dieReset = s.dieReset := rfl
@[simp] theorem updTile_csr (t : Nat) (g : Tile → Tile) : (s.updTile t g).csr = s.csr := rfl
@[simp] theorem updTile_gated (t : Nat) (g : Tile → Tile) : (s.updTile t g).gated = s.gated := rfl
@[simp] theorem updTile_shadow (t : Nat) (g : Tile → Tile) : (s.updTile t g).shadow = s.shadow := rfl
@[simp] theorem updTile_spw (t : Nat) (g : Tile → Tile) : (s.updTile t g).spw = s.spw := rfl
@[simp] theorem updTile_mbx (t : Nat) (g : Tile → Tile) : (s.updTile t g).mbx = s.mbx := rfl
@[simp] theorem updTile_rr (t : Nat) (g : Tile → Tile) : (s.updTile t g).rr = s.rr := rfl
@[simp] theorem updTile_intWin (t : Nat) (g : Tile → Tile) : (s.updTile t g).intWin = s.intWin := rfl
@[simp] theorem updTile_faults (t : Nat) (g : Tile → Tile) : (s.updTile t g).faults = s.faults := rfl
@[simp] theorem updTile_ev (t : Nat) (g : Tile → Tile) : (s.updTile t g).ev = s.ev := rfl
@[simp] theorem updTile_aliveS (t : Nat) (g : Tile → Tile) : (s.updTile t g).aliveS = s.aliveS := rfl
@[simp] theorem updTile_aliveRounds (t : Nat) (g : Tile → Tile) : (s.updTile t g).aliveRounds = s.aliveRounds := rfl
@[simp] theorem updTile_resetsAt (t : Nat) (g : Tile → Tile) : (s.updTile t g).resetsAt = s.resetsAt := rfl
@[simp] theorem updTile_domResets (t : Nat) (g : Tile → Tile) : (s.updTile t g).domResets = s.domResets := rfl
@[simp] theorem updTile_healthEv (t : Nat) (g : Tile → Tile) : (s.updTile t g).healthEv = s.healthEv := rfl
@[simp] theorem updTile_healthDom (t : Nat) (g : Tile → Tile) : (s.updTile t g).healthDom = s.healthDom := rfl
@[simp] theorem updTile_sec (t : Nat) (g : Tile → Tile) : (s.updTile t g).sec = s.sec := rfl
@[simp] theorem updTile_time (t : Nat) (g : Tile → Tile) : (s.updTile t g).time = s.time := rfl
@[simp] theorem updTile_links (t : Nat) (g : Tile → Tile) : (s.updTile t g).links = s.links := rfl
@[simp] theorem updTile_sched (t : Nat) (g : Tile → Tile) : (s.updTile t g).sched = s.sched := rfl
@[simp] theorem updTile_pow (t : Nat) (g : Tile → Tile) : (s.updTile t g).pow = s.pow := rfl
@[simp] theorem updTile_shard (t : Nat) (g : Tile → Tile) : (s.updTile t g).shard = s.shard := rfl
@[simp] theorem updTile_sides (t : Nat) (g : Tile → Tile) : (s.updTile t g).sides = s.sides := rfl
@[simp] theorem updTile_att (t : Nat) (g : Tile → Tile) : (s.updTile t g).att = s.att := rfl
@[simp] theorem updTile_fab (t : Nat) (g : Tile → Tile) : (s.updTile t g).fab = s.fab := rfl
@[simp] theorem updTile_seqs (t : Nat) (g : Tile → Tile) : (s.updTile t g).seqs = s.seqs := rfl
@[simp] theorem updTile_mgr (t : Nat) (g : Tile → Tile) : (s.updTile t g).mgr = s.mgr := rfl
@[simp] theorem updTile_mem (t : Nat) (g : Tile → Tile) : (s.updTile t g).mem = s.mem := rfl
@[simp] theorem updTile_ue (t : Nat) (g : Tile → Tile) : (s.updTile t g).ue = s.ue := rfl
@[simp] theorem updTile_sue (t : Nat) (g : Tile → Tile) : (s.updTile t g).sue = s.sue := rfl

/-! ### updSide -/

@[simp] theorem updSide_pending (n : Nat) (g : Side → Side) : (s.updSide n g).pending = s.pending := rfl
@[simp] theorem updSide_out (n : Nat) (g : Side → Side) : (s.updSide n g).out = s.out := rfl
@[simp] theorem updSide_free (n : Nat) (g : Side → Side) : (s.updSide n g).free = s.free := rfl
@[simp] theorem updSide_beat (n : Nat) (g : Side → Side) : (s.updSide n g).beat = s.beat := rfl
@[simp] theorem updSide_cyc (n : Nat) (g : Side → Side) : (s.updSide n g).cyc = s.cyc := rfl
@[simp] theorem updSide_clk (n : Nat) (g : Side → Side) : (s.updSide n g).clk = s.clk := rfl
@[simp] theorem updSide_dieState (n : Nat) (g : Side → Side) : (s.updSide n g).dieState = s.dieState := rfl
@[simp] theorem updSide_left (n : Nat) (g : Side → Side) : (s.updSide n g).left = s.left := rfl
@[simp] theorem updSide_coreUp (n : Nat) (g : Side → Side) : (s.updSide n g).coreUp = s.coreUp := rfl
@[simp] theorem updSide_supply (n : Nat) (g : Side → Side) : (s.updSide n g).supply = s.supply := rfl
@[simp] theorem updSide_firstBoot (n : Nat) (g : Side → Side) : (s.updSide n g).firstBoot = s.firstBoot := rfl
@[simp] theorem updSide_aged (n : Nat) (g : Side → Side) : (s.updSide n g).aged = s.aged := rfl
@[simp] theorem updSide_qpos (n : Nat) (g : Side → Side) : (s.updSide n g).qpos = s.qpos := rfl
@[simp] theorem updSide_dieReset (n : Nat) (g : Side → Side) : (s.updSide n g).dieReset = s.dieReset := rfl
@[simp] theorem updSide_csr (n : Nat) (g : Side → Side) : (s.updSide n g).csr = s.csr := rfl
@[simp] theorem updSide_gated (n : Nat) (g : Side → Side) : (s.updSide n g).gated = s.gated := rfl
@[simp] theorem updSide_shadow (n : Nat) (g : Side → Side) : (s.updSide n g).shadow = s.shadow := rfl
@[simp] theorem updSide_spw (n : Nat) (g : Side → Side) : (s.updSide n g).spw = s.spw := rfl
@[simp] theorem updSide_mbx (n : Nat) (g : Side → Side) : (s.updSide n g).mbx = s.mbx := rfl
@[simp] theorem updSide_rr (n : Nat) (g : Side → Side) : (s.updSide n g).rr = s.rr := rfl
@[simp] theorem updSide_intWin (n : Nat) (g : Side → Side) : (s.updSide n g).intWin = s.intWin := rfl
@[simp] theorem updSide_faults (n : Nat) (g : Side → Side) : (s.updSide n g).faults = s.faults := rfl
@[simp] theorem updSide_ev (n : Nat) (g : Side → Side) : (s.updSide n g).ev = s.ev := rfl
@[simp] theorem updSide_aliveS (n : Nat) (g : Side → Side) : (s.updSide n g).aliveS = s.aliveS := rfl
@[simp] theorem updSide_aliveRounds (n : Nat) (g : Side → Side) : (s.updSide n g).aliveRounds = s.aliveRounds := rfl
@[simp] theorem updSide_resetsAt (n : Nat) (g : Side → Side) : (s.updSide n g).resetsAt = s.resetsAt := rfl
@[simp] theorem updSide_domResets (n : Nat) (g : Side → Side) : (s.updSide n g).domResets = s.domResets := rfl
@[simp] theorem updSide_healthEv (n : Nat) (g : Side → Side) : (s.updSide n g).healthEv = s.healthEv := rfl
@[simp] theorem updSide_healthDom (n : Nat) (g : Side → Side) : (s.updSide n g).healthDom = s.healthDom := rfl
@[simp] theorem updSide_sec (n : Nat) (g : Side → Side) : (s.updSide n g).sec = s.sec := rfl
@[simp] theorem updSide_time (n : Nat) (g : Side → Side) : (s.updSide n g).time = s.time := rfl
@[simp] theorem updSide_links (n : Nat) (g : Side → Side) : (s.updSide n g).links = s.links := rfl
@[simp] theorem updSide_sched (n : Nat) (g : Side → Side) : (s.updSide n g).sched = s.sched := rfl
@[simp] theorem updSide_pow (n : Nat) (g : Side → Side) : (s.updSide n g).pow = s.pow := rfl
@[simp] theorem updSide_grid (n : Nat) (g : Side → Side) : (s.updSide n g).grid = s.grid := rfl
@[simp] theorem updSide_shard (n : Nat) (g : Side → Side) : (s.updSide n g).shard = s.shard := rfl
@[simp] theorem updSide_att (n : Nat) (g : Side → Side) : (s.updSide n g).att = s.att := rfl
@[simp] theorem updSide_fab (n : Nat) (g : Side → Side) : (s.updSide n g).fab = s.fab := rfl
@[simp] theorem updSide_seqs (n : Nat) (g : Side → Side) : (s.updSide n g).seqs = s.seqs := rfl
@[simp] theorem updSide_mgr (n : Nat) (g : Side → Side) : (s.updSide n g).mgr = s.mgr := rfl
@[simp] theorem updSide_mem (n : Nat) (g : Side → Side) : (s.updSide n g).mem = s.mem := rfl
@[simp] theorem updSide_ue (n : Nat) (g : Side → Side) : (s.updSide n g).ue = s.ue := rfl
@[simp] theorem updSide_sue (n : Nat) (g : Side → Side) : (s.updSide n g).sue = s.sue := rfl

/-! ### updSeq -/

@[simp] theorem updSeq_pending (i : Nat) (g : SeqE → SeqE) : (s.updSeq i g).pending = s.pending := rfl
@[simp] theorem updSeq_out (i : Nat) (g : SeqE → SeqE) : (s.updSeq i g).out = s.out := rfl
@[simp] theorem updSeq_free (i : Nat) (g : SeqE → SeqE) : (s.updSeq i g).free = s.free := rfl
@[simp] theorem updSeq_beat (i : Nat) (g : SeqE → SeqE) : (s.updSeq i g).beat = s.beat := rfl
@[simp] theorem updSeq_cyc (i : Nat) (g : SeqE → SeqE) : (s.updSeq i g).cyc = s.cyc := rfl
@[simp] theorem updSeq_clk (i : Nat) (g : SeqE → SeqE) : (s.updSeq i g).clk = s.clk := rfl
@[simp] theorem updSeq_dieState (i : Nat) (g : SeqE → SeqE) : (s.updSeq i g).dieState = s.dieState := rfl
@[simp] theorem updSeq_left (i : Nat) (g : SeqE → SeqE) : (s.updSeq i g).left = s.left := rfl
@[simp] theorem updSeq_coreUp (i : Nat) (g : SeqE → SeqE) : (s.updSeq i g).coreUp = s.coreUp := rfl
@[simp] theorem updSeq_supply (i : Nat) (g : SeqE → SeqE) : (s.updSeq i g).supply = s.supply := rfl
@[simp] theorem updSeq_firstBoot (i : Nat) (g : SeqE → SeqE) : (s.updSeq i g).firstBoot = s.firstBoot := rfl
@[simp] theorem updSeq_aged (i : Nat) (g : SeqE → SeqE) : (s.updSeq i g).aged = s.aged := rfl
@[simp] theorem updSeq_qpos (i : Nat) (g : SeqE → SeqE) : (s.updSeq i g).qpos = s.qpos := rfl
@[simp] theorem updSeq_dieReset (i : Nat) (g : SeqE → SeqE) : (s.updSeq i g).dieReset = s.dieReset := rfl
@[simp] theorem updSeq_csr (i : Nat) (g : SeqE → SeqE) : (s.updSeq i g).csr = s.csr := rfl
@[simp] theorem updSeq_gated (i : Nat) (g : SeqE → SeqE) : (s.updSeq i g).gated = s.gated := rfl
@[simp] theorem updSeq_shadow (i : Nat) (g : SeqE → SeqE) : (s.updSeq i g).shadow = s.shadow := rfl
@[simp] theorem updSeq_spw (i : Nat) (g : SeqE → SeqE) : (s.updSeq i g).spw = s.spw := rfl
@[simp] theorem updSeq_mbx (i : Nat) (g : SeqE → SeqE) : (s.updSeq i g).mbx = s.mbx := rfl
@[simp] theorem updSeq_rr (i : Nat) (g : SeqE → SeqE) : (s.updSeq i g).rr = s.rr := rfl
@[simp] theorem updSeq_intWin (i : Nat) (g : SeqE → SeqE) : (s.updSeq i g).intWin = s.intWin := rfl
@[simp] theorem updSeq_faults (i : Nat) (g : SeqE → SeqE) : (s.updSeq i g).faults = s.faults := rfl
@[simp] theorem updSeq_ev (i : Nat) (g : SeqE → SeqE) : (s.updSeq i g).ev = s.ev := rfl
@[simp] theorem updSeq_aliveS (i : Nat) (g : SeqE → SeqE) : (s.updSeq i g).aliveS = s.aliveS := rfl
@[simp] theorem updSeq_aliveRounds (i : Nat) (g : SeqE → SeqE) : (s.updSeq i g).aliveRounds = s.aliveRounds := rfl
@[simp] theorem updSeq_resetsAt (i : Nat) (g : SeqE → SeqE) : (s.updSeq i g).resetsAt = s.resetsAt := rfl
@[simp] theorem updSeq_domResets (i : Nat) (g : SeqE → SeqE) : (s.updSeq i g).domResets = s.domResets := rfl
@[simp] theorem updSeq_healthEv (i : Nat) (g : SeqE → SeqE) : (s.updSeq i g).healthEv = s.healthEv := rfl
@[simp] theorem updSeq_healthDom (i : Nat) (g : SeqE → SeqE) : (s.updSeq i g).healthDom = s.healthDom := rfl
@[simp] theorem updSeq_sec (i : Nat) (g : SeqE → SeqE) : (s.updSeq i g).sec = s.sec := rfl
@[simp] theorem updSeq_time (i : Nat) (g : SeqE → SeqE) : (s.updSeq i g).time = s.time := rfl
@[simp] theorem updSeq_links (i : Nat) (g : SeqE → SeqE) : (s.updSeq i g).links = s.links := rfl
@[simp] theorem updSeq_sched (i : Nat) (g : SeqE → SeqE) : (s.updSeq i g).sched = s.sched := rfl
@[simp] theorem updSeq_pow (i : Nat) (g : SeqE → SeqE) : (s.updSeq i g).pow = s.pow := rfl
@[simp] theorem updSeq_grid (i : Nat) (g : SeqE → SeqE) : (s.updSeq i g).grid = s.grid := rfl
@[simp] theorem updSeq_shard (i : Nat) (g : SeqE → SeqE) : (s.updSeq i g).shard = s.shard := rfl
@[simp] theorem updSeq_sides (i : Nat) (g : SeqE → SeqE) : (s.updSeq i g).sides = s.sides := rfl
@[simp] theorem updSeq_att (i : Nat) (g : SeqE → SeqE) : (s.updSeq i g).att = s.att := rfl
@[simp] theorem updSeq_fab (i : Nat) (g : SeqE → SeqE) : (s.updSeq i g).fab = s.fab := rfl
@[simp] theorem updSeq_mgr (i : Nat) (g : SeqE → SeqE) : (s.updSeq i g).mgr = s.mgr := rfl
@[simp] theorem updSeq_mem (i : Nat) (g : SeqE → SeqE) : (s.updSeq i g).mem = s.mem := rfl
@[simp] theorem updSeq_ue (i : Nat) (g : SeqE → SeqE) : (s.updSeq i g).ue = s.ue := rfl
@[simp] theorem updSeq_sue (i : Nat) (g : SeqE → SeqE) : (s.updSeq i g).sue = s.sue := rfl

/-! ### setPos -/

@[simp] theorem setPos_pending (f v : Nat) (p : Option Pos) : (s.setPos f v p).pending = s.pending := rfl
@[simp] theorem setPos_out (f v : Nat) (p : Option Pos) : (s.setPos f v p).out = s.out := rfl
@[simp] theorem setPos_free (f v : Nat) (p : Option Pos) : (s.setPos f v p).free = s.free := rfl
@[simp] theorem setPos_beat (f v : Nat) (p : Option Pos) : (s.setPos f v p).beat = s.beat := rfl
@[simp] theorem setPos_cyc (f v : Nat) (p : Option Pos) : (s.setPos f v p).cyc = s.cyc := rfl
@[simp] theorem setPos_clk (f v : Nat) (p : Option Pos) : (s.setPos f v p).clk = s.clk := rfl
@[simp] theorem setPos_dieState (f v : Nat) (p : Option Pos) : (s.setPos f v p).dieState = s.dieState := rfl
@[simp] theorem setPos_left (f v : Nat) (p : Option Pos) : (s.setPos f v p).left = s.left := rfl
@[simp] theorem setPos_coreUp (f v : Nat) (p : Option Pos) : (s.setPos f v p).coreUp = s.coreUp := rfl
@[simp] theorem setPos_supply (f v : Nat) (p : Option Pos) : (s.setPos f v p).supply = s.supply := rfl
@[simp] theorem setPos_firstBoot (f v : Nat) (p : Option Pos) : (s.setPos f v p).firstBoot = s.firstBoot := rfl
@[simp] theorem setPos_aged (f v : Nat) (p : Option Pos) : (s.setPos f v p).aged = s.aged := rfl
@[simp] theorem setPos_qpos (f v : Nat) (p : Option Pos) : (s.setPos f v p).qpos = s.qpos := rfl
@[simp] theorem setPos_dieReset (f v : Nat) (p : Option Pos) : (s.setPos f v p).dieReset = s.dieReset := rfl
@[simp] theorem setPos_csr (f v : Nat) (p : Option Pos) : (s.setPos f v p).csr = s.csr := rfl
@[simp] theorem setPos_gated (f v : Nat) (p : Option Pos) : (s.setPos f v p).gated = s.gated := rfl
@[simp] theorem setPos_shadow (f v : Nat) (p : Option Pos) : (s.setPos f v p).shadow = s.shadow := rfl
@[simp] theorem setPos_spw (f v : Nat) (p : Option Pos) : (s.setPos f v p).spw = s.spw := rfl
@[simp] theorem setPos_mbx (f v : Nat) (p : Option Pos) : (s.setPos f v p).mbx = s.mbx := rfl
@[simp] theorem setPos_rr (f v : Nat) (p : Option Pos) : (s.setPos f v p).rr = s.rr := rfl
@[simp] theorem setPos_intWin (f v : Nat) (p : Option Pos) : (s.setPos f v p).intWin = s.intWin := rfl
@[simp] theorem setPos_faults (f v : Nat) (p : Option Pos) : (s.setPos f v p).faults = s.faults := rfl
@[simp] theorem setPos_ev (f v : Nat) (p : Option Pos) : (s.setPos f v p).ev = s.ev := rfl
@[simp] theorem setPos_aliveS (f v : Nat) (p : Option Pos) : (s.setPos f v p).aliveS = s.aliveS := rfl
@[simp] theorem setPos_aliveRounds (f v : Nat) (p : Option Pos) : (s.setPos f v p).aliveRounds = s.aliveRounds := rfl
@[simp] theorem setPos_resetsAt (f v : Nat) (p : Option Pos) : (s.setPos f v p).resetsAt = s.resetsAt := rfl
@[simp] theorem setPos_domResets (f v : Nat) (p : Option Pos) : (s.setPos f v p).domResets = s.domResets := rfl
@[simp] theorem setPos_healthEv (f v : Nat) (p : Option Pos) : (s.setPos f v p).healthEv = s.healthEv := rfl
@[simp] theorem setPos_healthDom (f v : Nat) (p : Option Pos) : (s.setPos f v p).healthDom = s.healthDom := rfl
@[simp] theorem setPos_sec (f v : Nat) (p : Option Pos) : (s.setPos f v p).sec = s.sec := rfl
@[simp] theorem setPos_time (f v : Nat) (p : Option Pos) : (s.setPos f v p).time = s.time := rfl
@[simp] theorem setPos_links (f v : Nat) (p : Option Pos) : (s.setPos f v p).links = s.links := rfl
@[simp] theorem setPos_pow (f v : Nat) (p : Option Pos) : (s.setPos f v p).pow = s.pow := rfl
@[simp] theorem setPos_grid (f v : Nat) (p : Option Pos) : (s.setPos f v p).grid = s.grid := rfl
@[simp] theorem setPos_shard (f v : Nat) (p : Option Pos) : (s.setPos f v p).shard = s.shard := rfl
@[simp] theorem setPos_sides (f v : Nat) (p : Option Pos) : (s.setPos f v p).sides = s.sides := rfl
@[simp] theorem setPos_att (f v : Nat) (p : Option Pos) : (s.setPos f v p).att = s.att := rfl
@[simp] theorem setPos_fab (f v : Nat) (p : Option Pos) : (s.setPos f v p).fab = s.fab := rfl
@[simp] theorem setPos_seqs (f v : Nat) (p : Option Pos) : (s.setPos f v p).seqs = s.seqs := rfl
@[simp] theorem setPos_mgr (f v : Nat) (p : Option Pos) : (s.setPos f v p).mgr = s.mgr := rfl
@[simp] theorem setPos_mem (f v : Nat) (p : Option Pos) : (s.setPos f v p).mem = s.mem := rfl
@[simp] theorem setPos_ue (f v : Nat) (p : Option Pos) : (s.setPos f v p).ue = s.ue := rfl
@[simp] theorem setPos_sue (f v : Nat) (p : Option Pos) : (s.setPos f v p).sue = s.sue := rfl

/-! ### write -/

@[simp] theorem write_pending (a : Nat) (b : List Byte) : (s.write a b).pending = s.pending := rfl
@[simp] theorem write_out (a : Nat) (b : List Byte) : (s.write a b).out = s.out := rfl
@[simp] theorem write_free (a : Nat) (b : List Byte) : (s.write a b).free = s.free := rfl
@[simp] theorem write_beat (a : Nat) (b : List Byte) : (s.write a b).beat = s.beat := rfl
@[simp] theorem write_cyc (a : Nat) (b : List Byte) : (s.write a b).cyc = s.cyc := rfl
@[simp] theorem write_clk (a : Nat) (b : List Byte) : (s.write a b).clk = s.clk := rfl
@[simp] theorem write_dieState (a : Nat) (b : List Byte) : (s.write a b).dieState = s.dieState := rfl
@[simp] theorem write_left (a : Nat) (b : List Byte) : (s.write a b).left = s.left := rfl
@[simp] theorem write_coreUp (a : Nat) (b : List Byte) : (s.write a b).coreUp = s.coreUp := rfl
@[simp] theorem write_supply (a : Nat) (b : List Byte) : (s.write a b).supply = s.supply := rfl
@[simp] theorem write_firstBoot (a : Nat) (b : List Byte) : (s.write a b).firstBoot = s.firstBoot := rfl
@[simp] theorem write_aged (a : Nat) (b : List Byte) : (s.write a b).aged = s.aged := rfl
@[simp] theorem write_qpos (a : Nat) (b : List Byte) : (s.write a b).qpos = s.qpos := rfl
@[simp] theorem write_dieReset (a : Nat) (b : List Byte) : (s.write a b).dieReset = s.dieReset := rfl
@[simp] theorem write_csr (a : Nat) (b : List Byte) : (s.write a b).csr = s.csr := rfl
@[simp] theorem write_gated (a : Nat) (b : List Byte) : (s.write a b).gated = s.gated := rfl
@[simp] theorem write_shadow (a : Nat) (b : List Byte) : (s.write a b).shadow = s.shadow := rfl
@[simp] theorem write_spw (a : Nat) (b : List Byte) : (s.write a b).spw = s.spw := rfl
@[simp] theorem write_mbx (a : Nat) (b : List Byte) : (s.write a b).mbx = s.mbx := rfl
@[simp] theorem write_rr (a : Nat) (b : List Byte) : (s.write a b).rr = s.rr := rfl
@[simp] theorem write_intWin (a : Nat) (b : List Byte) : (s.write a b).intWin = s.intWin := rfl
@[simp] theorem write_faults (a : Nat) (b : List Byte) : (s.write a b).faults = s.faults := rfl
@[simp] theorem write_ev (a : Nat) (b : List Byte) : (s.write a b).ev = s.ev := rfl
@[simp] theorem write_aliveS (a : Nat) (b : List Byte) : (s.write a b).aliveS = s.aliveS := rfl
@[simp] theorem write_aliveRounds (a : Nat) (b : List Byte) : (s.write a b).aliveRounds = s.aliveRounds := rfl
@[simp] theorem write_resetsAt (a : Nat) (b : List Byte) : (s.write a b).resetsAt = s.resetsAt := rfl
@[simp] theorem write_domResets (a : Nat) (b : List Byte) : (s.write a b).domResets = s.domResets := rfl
@[simp] theorem write_healthEv (a : Nat) (b : List Byte) : (s.write a b).healthEv = s.healthEv := rfl
@[simp] theorem write_healthDom (a : Nat) (b : List Byte) : (s.write a b).healthDom = s.healthDom := rfl
@[simp] theorem write_sec (a : Nat) (b : List Byte) : (s.write a b).sec = s.sec := rfl
@[simp] theorem write_time (a : Nat) (b : List Byte) : (s.write a b).time = s.time := rfl
@[simp] theorem write_links (a : Nat) (b : List Byte) : (s.write a b).links = s.links := rfl
@[simp] theorem write_sched (a : Nat) (b : List Byte) : (s.write a b).sched = s.sched := rfl
@[simp] theorem write_pow (a : Nat) (b : List Byte) : (s.write a b).pow = s.pow := rfl
@[simp] theorem write_grid (a : Nat) (b : List Byte) : (s.write a b).grid = s.grid := rfl
@[simp] theorem write_shard (a : Nat) (b : List Byte) : (s.write a b).shard = s.shard := rfl
@[simp] theorem write_sides (a : Nat) (b : List Byte) : (s.write a b).sides = s.sides := rfl
@[simp] theorem write_att (a : Nat) (b : List Byte) : (s.write a b).att = s.att := rfl
@[simp] theorem write_fab (a : Nat) (b : List Byte) : (s.write a b).fab = s.fab := rfl
@[simp] theorem write_seqs (a : Nat) (b : List Byte) : (s.write a b).seqs = s.seqs := rfl
@[simp] theorem write_mgr (a : Nat) (b : List Byte) : (s.write a b).mgr = s.mgr := rfl

/-! ### setSram -/

@[simp] theorem setSram_pending (f o : Nat) (b : List Byte) : (s.setSram f o b).pending = s.pending := rfl
@[simp] theorem setSram_out (f o : Nat) (b : List Byte) : (s.setSram f o b).out = s.out := rfl
@[simp] theorem setSram_free (f o : Nat) (b : List Byte) : (s.setSram f o b).free = s.free := rfl
@[simp] theorem setSram_beat (f o : Nat) (b : List Byte) : (s.setSram f o b).beat = s.beat := rfl
@[simp] theorem setSram_cyc (f o : Nat) (b : List Byte) : (s.setSram f o b).cyc = s.cyc := rfl
@[simp] theorem setSram_clk (f o : Nat) (b : List Byte) : (s.setSram f o b).clk = s.clk := rfl
@[simp] theorem setSram_dieState (f o : Nat) (b : List Byte) : (s.setSram f o b).dieState = s.dieState := rfl
@[simp] theorem setSram_left (f o : Nat) (b : List Byte) : (s.setSram f o b).left = s.left := rfl
@[simp] theorem setSram_coreUp (f o : Nat) (b : List Byte) : (s.setSram f o b).coreUp = s.coreUp := rfl
@[simp] theorem setSram_supply (f o : Nat) (b : List Byte) : (s.setSram f o b).supply = s.supply := rfl
@[simp] theorem setSram_firstBoot (f o : Nat) (b : List Byte) : (s.setSram f o b).firstBoot = s.firstBoot := rfl
@[simp] theorem setSram_aged (f o : Nat) (b : List Byte) : (s.setSram f o b).aged = s.aged := rfl
@[simp] theorem setSram_qpos (f o : Nat) (b : List Byte) : (s.setSram f o b).qpos = s.qpos := rfl
@[simp] theorem setSram_dieReset (f o : Nat) (b : List Byte) : (s.setSram f o b).dieReset = s.dieReset := rfl
@[simp] theorem setSram_csr (f o : Nat) (b : List Byte) : (s.setSram f o b).csr = s.csr := rfl
@[simp] theorem setSram_gated (f o : Nat) (b : List Byte) : (s.setSram f o b).gated = s.gated := rfl
@[simp] theorem setSram_shadow (f o : Nat) (b : List Byte) : (s.setSram f o b).shadow = s.shadow := rfl
@[simp] theorem setSram_spw (f o : Nat) (b : List Byte) : (s.setSram f o b).spw = s.spw := rfl
@[simp] theorem setSram_mbx (f o : Nat) (b : List Byte) : (s.setSram f o b).mbx = s.mbx := rfl
@[simp] theorem setSram_rr (f o : Nat) (b : List Byte) : (s.setSram f o b).rr = s.rr := rfl
@[simp] theorem setSram_intWin (f o : Nat) (b : List Byte) : (s.setSram f o b).intWin = s.intWin := rfl
@[simp] theorem setSram_faults (f o : Nat) (b : List Byte) : (s.setSram f o b).faults = s.faults := rfl
@[simp] theorem setSram_ev (f o : Nat) (b : List Byte) : (s.setSram f o b).ev = s.ev := rfl
@[simp] theorem setSram_aliveS (f o : Nat) (b : List Byte) : (s.setSram f o b).aliveS = s.aliveS := rfl
@[simp] theorem setSram_aliveRounds (f o : Nat) (b : List Byte) : (s.setSram f o b).aliveRounds = s.aliveRounds := rfl
@[simp] theorem setSram_resetsAt (f o : Nat) (b : List Byte) : (s.setSram f o b).resetsAt = s.resetsAt := rfl
@[simp] theorem setSram_domResets (f o : Nat) (b : List Byte) : (s.setSram f o b).domResets = s.domResets := rfl
@[simp] theorem setSram_healthEv (f o : Nat) (b : List Byte) : (s.setSram f o b).healthEv = s.healthEv := rfl
@[simp] theorem setSram_healthDom (f o : Nat) (b : List Byte) : (s.setSram f o b).healthDom = s.healthDom := rfl
@[simp] theorem setSram_sec (f o : Nat) (b : List Byte) : (s.setSram f o b).sec = s.sec := rfl
@[simp] theorem setSram_time (f o : Nat) (b : List Byte) : (s.setSram f o b).time = s.time := rfl
@[simp] theorem setSram_links (f o : Nat) (b : List Byte) : (s.setSram f o b).links = s.links := rfl
@[simp] theorem setSram_sched (f o : Nat) (b : List Byte) : (s.setSram f o b).sched = s.sched := rfl
@[simp] theorem setSram_pow (f o : Nat) (b : List Byte) : (s.setSram f o b).pow = s.pow := rfl
@[simp] theorem setSram_grid (f o : Nat) (b : List Byte) : (s.setSram f o b).grid = s.grid := rfl
@[simp] theorem setSram_shard (f o : Nat) (b : List Byte) : (s.setSram f o b).shard = s.shard := rfl
@[simp] theorem setSram_sides (f o : Nat) (b : List Byte) : (s.setSram f o b).sides = s.sides := rfl
@[simp] theorem setSram_att (f o : Nat) (b : List Byte) : (s.setSram f o b).att = s.att := rfl
@[simp] theorem setSram_fab (f o : Nat) (b : List Byte) : (s.setSram f o b).fab = s.fab := rfl
@[simp] theorem setSram_seqs (f o : Nat) (b : List Byte) : (s.setSram f o b).seqs = s.seqs := rfl
@[simp] theorem setSram_mgr (f o : Nat) (b : List Byte) : (s.setSram f o b).mgr = s.mgr := rfl

end Sys2Proof.Machine
end

