-- ==== Sys2Proof/Tests/Slice0.lean ====
section
/-! SUPPORT. Tests of the model: each check of WellFormed refuses an ill-formed term, worked examples of the spec, and for every
statement with hypotheses a concrete state and operands that meet them. Expected values come from the spec or from a hand
calculation. -/

namespace Sys2Proof.Machine.Tests

/-! ### Well-formedness -/

theorem test_wf_refuses_numbers :
    (Instr.echo 8).wf = false ∧ (Instr.mbxGo 8 none).wf = false ∧ (Instr.mbxGo 7 (some (2 ^ 18))).wf = false ∧
    (Instr.mbxCmdWrite 0 250 (List.replicate 8 0) none).wf = false ∧ (Instr.jobAck 0 65536 none).wf = false ∧
    (Instr.configWrite 2 0).wf = false ∧ (Instr.readClear (2 ^ 26)).wf = false ∧ (Instr.u4Rd 65536 8 0).wf = false ∧
    (Instr.u4Wr 0 (2 ^ 46) []).wf = false ∧ (Instr.intWindowEnd 14).wf = false ∧ (Instr.resetNRelease 4).wf = false ∧
    (Instr.sensorFastRead 48 none).wf = false ∧ (Instr.brownout 4096 0).wf = false ∧ (Instr.timingMonitorLow 80 0).wf = false := by decide

theorem test_wf_refuses_places :
    (Instr.tileDrive 8192 0 []).wf = false ∧ (Instr.tileDrive 0 64 []).wf = false ∧ (Instr.fieldScan 64 0 0).wf = false ∧
    (Instr.fieldScan 0 0 256).wf = false ∧ (Instr.tqChange 0 64).wf = false ∧ (Instr.departure 12 0).wf = false ∧
    (Instr.beatAckTimeout 0 3).wf = false ∧ (Instr.pdelayReqSend 8).wf = false ∧ (Instr.pcsAligned 13 0 0).wf = false ∧
    (Instr.pcsAligned 0 16 0).wf = false ∧ (Instr.laneFail 0 4).wf = false ∧ (Instr.ucieRepairFail 7).wf = false ∧
    (Instr.copyComplete 0 65536).wf = false ∧ (Instr.managerAlive (2 ^ 18) 0 0).wf = false ∧ (Instr.shedReport 0 41 0 0).wf = false := by decide

theorem test_wf_refuses_events :
    (Instr.budgetReq 0 (2 ^ 20) 0 0).wf = false ∧ (Instr.dirBind 16384).wf = false ∧ (Instr.progWaveTimeout ⟨[8192], []⟩).wf = false ∧
    (Instr.roceNak 6 0).wf = false ∧ (Instr.patrolScrub 2 0 0).wf = false ∧ (Instr.patrolScrub 0 0 3).wf = false ∧
    (Instr.domainPowerReady 80).wf = false ∧ (Instr.domainResetRelease 0x80).wf = false ∧ (Instr.coreFatal 3 0).wf = false ∧
    (Instr.routerLost 0 2).wf = false ∧ (Instr.managerAlive 0 0 0).wf = true ∧ (Instr.echo 7).wf = true ∧
    (Instr.tileDrive 8191 63 []).wf = true := by decide

/-! ### The smallest states -/

/-- A die in state `d` with every domain powered. -/
def on (d : DieState) : State := { State.reset with dieState := d, pow := { State.reset.pow with pdOn := 2 ^ 80 - 1 } }

/-- A command area: header of Table 14.5 and arguments. -/
def area (op : Nat) (args : List Byte) : List Byte :=
  leBytes 2 op ++ leBytes 1 1 ++ leBytes 1 0 ++ leBytes 4 0xC41 ++ leBytes 2 args.length ++ leBytes 6 0 ++ args

/-- The command submitted in mailbox `m`. -/
def waits (s : State) (m op : Nat) (args : List Byte) : State :=
  s.updMb m (fun b => { b with state := .running, cmd := area op args })

/-- What `State.accepts` says, as a computation. -/
def takes (s : State) (m op : Nat) : Bool :=
  nextMailbox s == some m && !badHeader (s.hdr m) && (s.hdr m).opcode == op &&
    commonStatus s m (s.hdr m) == 0 && argLenOk (s.hdr m)

theorem takes_accepts {s : State} {m op : Nat} (h : takes s m op = true) : s.accepts m op := by
  simp only [takes, Bool.and_eq_true, beq_iff_eq, Bool.not_eq_true'] at h
  obtain ⟨⟨⟨⟨h1, h5⟩, h6⟩, h7⟩, h8⟩ := h
  exact ⟨h1, h5, h6, h7, h8⟩

theorem waits_waiting {s : State} {m : Nat} (h : nextMailbox s = some m) : s.waiting m := h

/-- Arguments as fields of a length and a value. -/
def fields : List (Nat × Nat) → List Byte
  | [] => []
  | (n, v) :: l => leBytes n v ++ fields l

/-! ### Mailbox commands: accepted with their further conditions -/

/-- Command `op` with arguments `a` in mailbox 0 of a die in state `d`, with its first job slot FREE. -/
def cmd (d : DieState) (op : Nat) (a : List Byte) : State := waits (on d) 0 op a

theorem test_meets_ReadCommandsComplete :
    (cmd .identified 0x0001 (fields [(8, 5)])).accepts 0 0x0001 ∧ (cmd .thermalShutdown 0x0002 []).accepts 0 0x0002 ∧
    (cmd .identified 0x0003 []).accepts 0 0x0003 ∧ (cmd .identified 0x010C []).accepts 0 0x010C ∧
    (let s := cmd .identified 0x0405 (fields [(2, 16383), (2, 0)]); s.accepts 0 0x0405 ∧ fieldAt (s.args 0) 0 2 = 16383 ∧ fieldAt (s.args 0) 2 2 = 0) ∧
    (let s := cmd .identified 0x0505 (fields [(8, 0), (1, 31), (1, 3), (6, 0)]); s.accepts 0 0x0505 ∧ fieldAt (s.args 0) 10 6 = 0 ∧
      fieldAt (s.args 0) 8 1 = 31 ∧ fieldAt (s.args 0) 9 1 = 3 ∧ fieldAt (s.args 0) 0 8 = 0) ∧
    (let s := cmd .identified 0x0505 (fields [(8, 2 ^ 33), (1, 0), (1, 32), (6, 0)]); s.accepts 0 0x0505 ∧ fieldAt (s.args 0) 10 6 = 0 ∧
      fieldAt (s.args 0) 9 1 = 32 ∧ fieldAt (s.args 0) 0 8 ≠ 0 ∧ wbufOk s (fieldAt (s.args 0) 0 8) (64 * fieldAt (s.args 0) 9 1) = true) ∧
    (let s := cmd .identified 0x0506 (fields [(8, 0), (2, 1023), (2, 3), (4, 0)]); s.accepts 0 0x0506 ∧ fieldAt (s.args 0) 12 4 = 0 ∧
      fieldAt (s.args 0) 8 2 = 1023 ∧ fieldAt (s.args 0) 10 2 = 3 ∧ fieldAt (s.args 0) 0 8 = 0) ∧
    (let s := cmd .identified 0x0506 (fields [(8, 2 ^ 33), (2, 0), (2, 1024), (4, 0)]); s.accepts 0 0x0506 ∧ fieldAt (s.args 0) 12 4 = 0 ∧
      fieldAt (s.args 0) 10 2 = 1024 ∧ wbufOk s (fieldAt (s.args 0) 0 8) (64 * fieldAt (s.args 0) 10 2) = true) ∧
    (let s := cmd .identified 0x0202 (fields [(8, 2 ^ 33)]); s.accepts 0 0x0202 ∧ wbufOk s (fieldAt (s.args 0) 0 8) 10384 = true) := by
  and_intros <;> first | decide | exact waits_waiting (by decide)

/-- The last clause of each pair lies at the boundary of its range: 2^18, rack 488, position 1. -/
theorem test_meets_SetDieIdAssignsOrRefuses :
    (cmd .identified 0x0101 (fields [(4, 2 ^ 18)])).accepts 0 0x0101 ∧ (cmd .identified 0x0101 (fields [(4, 487 * 256 + 4)])).accepts 0 0x0101 ∧
    dieValid (487 * 256 + 4) = true ∧ (487 * 256 + 4) % 4 = (on .identified).qpos ∧ dieValid (488 * 256) = false ∧ 488 * 256 < 2 ^ 18 ∧
    dieValid 1 = true ∧ 1 % 4 ≠ (on .identified).qpos ∧ fieldAt (fields [(4, 2 ^ 18)]) 0 4 = 2 ^ 18 := by
  and_intros <;> first | decide | exact waits_waiting (by decide)

/-- A state with manager register fields set. -/
def mgr (s : State) : State := (s.setFld Reg.secRole_manager 1).setFld Reg.secRole_role 1

theorem test_meets_SettingCommandsComplete :
    (let s := cmd .identified 0x0102 (fields [(1, 0), (3, 0)]); s.accepts 0 0x0102 ∧ fieldAt (s.args 0) 0 1 = 0 ∧ fieldAt (s.args 0) 1 3 = 0) ∧
    (let s := { cmd .identified 0x0102 (fields [(1, 2), (3, 0)]) with sec := { State.reset.sec with fuses := { roleMgr := true } } };
      s.accepts 0 0x0102 ∧ fieldAt (s.args 0) 0 1 = 2 ∧ fieldAt (s.args 0) 1 3 = 0 ∧ s.sec.fuses.roleMgr = true) ∧
    (let s := cmd .identified 0x0103 (fields [(8, 5)]); s.accepts 0 0x0103 ∧ s.time.state = .free) ∧
    (let s := ({ cmd .identified 0x0105 [] with sec := { State.reset.sec with dieId := some 4 } }.setFld Reg.spwStatus_refValid 1).setFld Reg.spwStatus_match 1;
      s.accepts 0 0x0105 ∧ missing s = 0) ∧
    (let s := cmd .configured 0x0109 (fields [(2, 4095), (2, 0)]); s.accepts 0 0x0109 ∧ fieldAt (s.args 0) 0 2 = 4095 ∧ fieldAt (s.args 0) 2 2 = 0) ∧
    (let s := cmd .configured 0x0204 (fields [(1, 2), (7, 0), (8, 2 ^ 33), (8, 0x23FFFFFFC0)]);
      s.accepts 0 0x0204 ∧ protectArgs (s.args 0) s = false ∧ protectClash (s.args 0) s = none) ∧
    (let s := cmd .configured 0x0205 (fields [(1, 15), (3, 0)]); s.accepts 0 0x0205 ∧ fieldAt (s.args 0) 1 3 = 0 ∧ fieldAt (s.args 0) 0 1 = 15) ∧
    (let s := cmd .loaded 0x0207 (fields [(1, 15), (3, 0)]); s.accepts 0 0x0207 ∧ fieldAt (s.args 0) 1 3 = 0 ∧ fieldAt (s.args 0) 0 1 = 15) ∧
    (let s := { cmd .loaded 0x030D (fields [(2, 1), (2, 0)]) with grid := { State.reset.grid with adapters := [
        { handle := 1, tenant := 0, wmax := 0, hmax := 0, dmax := 0, image := [], resident := true }] } };
      s.accepts 0 0x030D ∧ fieldAt (s.args 0) 0 2 ≠ 0 ∧ fieldAt (s.args 0) 2 2 = 0 ∧ (s.adapter (fieldAt (s.args 0) 0 2)).isSome = true) ∧
    (let s := cmd .configured 0x0502 (fields [(4, 780)]); s.accepts 0 0x0502 ∧ fieldAt (s.args 0) 0 4 = 780) ∧
    (let s := mgr (cmd .configured 0x0407 (fields [(4, 2 ^ 20 - 1), (4, 1), (8, 2 ^ 40)]));
      s.accepts 0 0x0407 ∧ bsTenant (s.args 0) < 2 ^ 20 ∧ bsBurst (s.args 0) = 2 ^ 40 ∧ budgetRefused (s.args 0) s = none) := by
  and_intros <;> first | decide | exact waits_waiting (by decide)

/-- KEY_SLOT_WRITE: everything but the unwrapping, which no one can evaluate (`Config.unwrap` has no body). -/
theorem test_meets_KeySlotWrite :
    let s := cmd .configured 0x0108 (fields [(2, 4095), (2, 0), (4, 2 ^ 20 - 1), (4, 1), (96, 0)])
    s.accepts 0 0x0108 ∧ kwSlot (s.args 0) = 4095 ∧ fieldAt (s.args 0) 2 2 = 0 ∧ kwTenant (s.args 0) < 2 ^ 20 ∧ kwKeyId (s.args 0) ≠ 0 ∧
      s.keySlot (kwSlot (s.args 0)) = none := by
  and_intros <;> first | decide | exact waits_waiting (by decide)

theorem test_meets_BudgetsStayBounded :
    bsRate (fields [(4, 1), (4, 1), (8, 0)]) ≠ 0 ∧
    (let x : TenantRate := { tenant := 1, rate := 1, burst := 8, level := 3, at0 := 0 }
     let s : State := { State.reset with seqs := { State.reset.seqs with tenants := [x] } }
     s.seqs.tenants.find? (fun x => x.tenant == 1) = some x ∧ (x.settle s.ns).answered.find? (fun e => e.1 == 0 && e.2.1 == 0) = none) := by decide

theorem test_meets_JobStartsInLowestFreeSlot :
    (0 : Nat) < 8 ∧ State.reset.mbx.length = 8 ∧ (State.reset.mb 0).jobs.length = 8 ∧ freeSlot State.reset 0 = some 0 ∧ ([] : List Byte).length ≤ 232 := by decide

theorem test_meets_ResponseLayout : 7 < State.reset.mbx.length ∧ (leBytes 232 0).length = 232 ∧ (255 : Nat) < 256 := ⟨by decide, by rfl, by decide⟩

theorem test_meets_RejoinMovesLostToAcquiring :
    (let s := { cmd .outOfStep 0x0201 [] with time := { State.reset.time with state := .lost } };
      s.accepts 0 0x0201 ∧ freeSlot s 0 = some 0 ∧ s.time.state = .lost) ∧
    (let s := cmd .outOfStep 0x0201 []; s.accepts 0 0x0201 ∧ freeSlot s 0 = some 0 ∧ s.time.state ≠ .lost) := by
  and_intros <;> first | decide | exact waits_waiting (by decide)

theorem test_meets_BootAndFabricCommandsComplete :
    (let s := cmd .configured 0x0104 []; s.accepts 0 0x0104 ∧ freeSlot s 0 = some 0) ∧
    (let s := cmd .configured 0x0106 (fields [(8, 64), (4, 262144), (4, 0)]);
      s.accepts 0 0x0106 ∧ freeSlot s 0 = some 0 ∧ mapArgs (s.args 0) = false ∧ bufOk s (mapBuf (s.args 0)) (mapLen (s.args 0)) = true) ∧
    (let s := mgr (cmd .configured 0x0107 (fields [(8, 2 ^ 33), (4, 64), (4, 0)]));
      s.accepts 0 0x0107 ∧ freeSlot s 0 = some 0 ∧ mapArgs (s.args 0) = false ∧ wbufOk s (mapBuf (s.args 0)) (mapLen (s.args 0) + sigLen) = true ∧
        s.mayPublish = true) ∧
    (let s := cmd .identified 0x010A (fields [(8, 64), (4, 262144), (4, 0)]);
      s.accepts 0 0x010A ∧ freeSlot s 0 = some 0 ∧ fieldAt (s.args 0) 8 4 = 262144 ∧ fieldAt (s.args 0) 12 4 = 0 ∧
        bufOk s (fieldAt (s.args 0) 0 8) (fieldAt (s.args 0) 8 4) = true) ∧
    (let s := cmd .configured 0x010B (fields [(32, 0), (8, 2 ^ 33)]);
      s.accepts 0 0x010B ∧ freeSlot s 0 = some 0 ∧ wbufOk s (fieldAt (s.args 0) 32 8) 24576 = true) ∧
    (let s := mgr (cmd .configured 0x010D (fields [(8, 64), (8, 2 ^ 33)]));
      s.accepts 0 0x010D ∧ freeSlot s 0 = some 0 ∧ bufOk s (fieldAt (s.args 0) 0 8) endorseLen = true ∧
        wbufOk s (fieldAt (s.args 0) 8 8) 262144 = true ∧ s.fld Reg.secRole_manager = 1) ∧
    (let s := cmd .loaded 0x0203 (fields [(1, 1), (3, 0), (4, 4096), (8, 0), (8, 0), (8, 0), (8, 2 ^ 33)]);
      s.accepts 0 0x0203 ∧ freeSlot s 0 = some 0 ∧ remoteArgs (s.args 0) s = false) ∧
    (let s := { cmd .loaded 0x0206 (fields [(2, 0), (2, 1), (1, 0), (1, 0), (2, 0), (8, 64), (4, 80), (12, 0)]) with
        mem := [(14, 1), (16, 128), (24, 1), (129, 1)]
        sec := { State.reset.sec with keySlots := [(0, some { tenant := 0, keyId := 0, key1 := 1, key2 := 2 })] } }.setFld Reg.dirBase_base 0;
      s.accepts 0 0x0206 ∧ openRefused (s.args 0) s = none ∧ openArgs (s.args 0) s = false) := by
  and_intros <;> first | decide | exact waits_waiting (by decide)

theorem test_meets_BadPatchLeavesStoreUnchanged : State.reset.ueIn (fieldAt [] 0 8) (fieldAt [] 8 4) = false := by decide

/-- A byte string in memory at `a`. -/
def withBytes (s : State) (a : Nat) (b : List Byte) : State := s.write a b

/-- The active slot holds a shard. -/
def shard (s : State) : State := s.setFld Reg.shardStatus_activeValid 1

theorem test_meets_ShardCommands :
    (let s := withBytes (cmd .joined 0x0301 (fields [(8, 64), (1, 1), (7, 0)])) 64 (fields [(1, 5), (1, 4)]);
      s.accepts 0 0x0301 ∧ freeSlot s 0 = some 0 ∧ s.swapState = 0 ∧ fetchArgs (s.args 0) s = false ∧ s.shard.fetch = none ∧
        s.ueIn (sfBuf (s.args 0)) (64 * sfCount (s.args 0)) = false) ∧
    (let s := withBytes (cmd .joined 0x0304 (fields [(8, 64), (1, 1), (7, 0)])) 64 (fields [(1, 0), (1, 6)]);
      s.accepts 0 0x0304 ∧ freeSlot s 0 = some 0 ∧ fetchArgs (s.args 0) s = false ∧ s.shard.fetch = none ∧
        s.ueIn (sfBuf (s.args 0)) (64 * sfCount (s.args 0)) = false) ∧
    (let s := (cmd .joined 0x0302 []).setFld Reg.shardStatus_stageValid 1; s.accepts 0 0x0302 ∧ s.fld Reg.shardStatus_stageValid = 1) ∧
    (let s := shard (cmd .joined 0x0303 (fields [(1, 1), (3, 0)]));
      s.accepts 0 0x0303 ∧ freeSlot s 0 = some 0 ∧ fieldAt (s.args 0) 0 1 = 1 ∧ fieldAt (s.args 0) 1 3 = 0 ∧ s.fld Reg.shardStatus_activeValid = 1) ∧
    (let s := shard (cmd .joined 0x0305 (fields [(8, 64), (4, 64), (4, 2 ^ 31)]));
      s.accepts 0 0x0305 ∧ freeSlot s 0 = some 0 ∧ s.swapState = 0 ∧ siVocab (s.args 0) = 2 ^ 31 ∧ bufOk s (siBuf (s.args 0)) 64 = true ∧
        s.fld Reg.shardStatus_activeValid = 1) ∧
    (let s := cmd .loaded 0x030C (fields [(8, 64), (4, 64), (2, 1), (2, 0), (4, 2 ^ 20 - 1), (44, 0)]);
      s.accepts 0 0x030C ∧ freeSlot s 0 = some 0 ∧ alLen (s.args 0) = 64 ∧ alHandle (s.args 0) ≠ 0 ∧ fieldAt (s.args 0) 14 2 = 0 ∧
        alTenant (s.args 0) < 2 ^ 20 ∧ bufOk s (alBuf (s.args 0)) (alLen (s.args 0)) = true ∧ s.grid.adapters = []) ∧
    (let s := withBytes (shard (cmd .loaded 0x030E (fields [(2, 0), (1, 8), (1, 2), (4, 0), (8, 512), (8, 2 ^ 33)]))) 268 [1];
      s.accepts 0 0x030E ∧ freeSlot s 0 = some 0 ∧ refArgs (s.args 0) s = false ∧ s.fld Reg.shardStatus_activeValid = 1 ∧
        s.usable (fieldAt (s.args 0) 0 2) = true ∧ s.objBad (fieldAt (s.args 0) 0 2) = false) := by
  and_intros <;> first | decide | exact waits_waiting (by decide)

theorem test_meets_ServingCommands :
    (let s := { cmd .loaded 0x0306 (fields [(8, 64)]) with time := { State.reset.time with state := .locked } };
      s.accepts 0 0x0306 ∧ freeSlot s 0 = some 0 ∧ beatArg (s.args 0) < 2 ^ 53 ∧ s.beat + 64 = beatArg (s.args 0) ∧ s.time.state = .locked) ∧
    (let s := { cmd .loaded 0x0306 (fields [(8, 2 ^ 24)]) with time := { State.reset.time with state := .root } };
      s.accepts 0 0x0306 ∧ beatArg (s.args 0) = s.beat + 2 ^ 24 ∧ s.time.state = .root) ∧
    (let s := cmd .serving 0x0307 (fields [(1, 1), (3, 0)]); s.accepts 0 0x0307 ∧ freeSlot s 0 = some 0 ∧ fieldAt (s.args 0) 0 1 = 1 ∧ fieldAt (s.args 0) 1 3 = 0) ∧
    (let s := (cmd .loaded 0x030B []).setFld Reg.shardStatus_swapState 3; s.accepts 0 0x030B ∧ freeSlot s 0 = some 0 ∧ s.swapState = 3) := by
  and_intros <;> first | decide | exact waits_waiting (by decide)

/-- Memory with nothing listed reads 0. -/
theorem hbm_empty {s : State} (h : s.mem = []) (a n : Nat) : s.hbm a n = 0 := by
  have : ∀ n a, leNat (rdBytes [] a n) = 0 := by
    intro n
    induction n with
    | zero => intro a; rfl
    | succ n ih => intro a; simp only [rdBytes, leNat, ih]; rfl
  unfold State.hbm State.read
  rw [h]
  exact this n a

/-- The unit of a present tile is one of the die's units. -/
theorem tileUnit_mem {s : State} {t : Nat} (h : t < 8192) (hp : s.tilePresent s.activeBase t = true) :
    s.tileUnits.contains (s.tileUnit s.activeBase t) = true := by
  have keep : ∀ (l : List Nat) (a : List Nat) (u : Nat), u ∈ a ∨ u ∈ l → u ∈ l.foldl (fun l u => if l.contains u then l else l ++ [u]) a := by
    intro l
    induction l with
    | nil => intro a u hu; simpa using hu
    | cons x l ih =>
      intro a u hu
      refine ih _ _ ?_
      by_cases hx : u = x
      · left; dsimp only; split <;> simp_all
      · rcases hu with hu | hu
        · left; dsimp only; split <;> simp [hu]
        · right; simpa [hx] using hu
  unfold State.tileUnits
  rw [List.contains_iff_mem]
  refine keep _ _ _ (Or.inr ?_)
  exact List.mem_map_of_mem (List.mem_filter.mpr ⟨List.mem_range.mpr h, hp⟩)

/-- SWAP_STAGE: two empty shards; the staged one has generation 0, the model's is 5. -/
theorem test_meets_SwapStage :
    let s := ((cmd .loaded 0x0308 []).setFld Reg.shardStatus_stageValid 1).setFld Reg.modelGenCur_gen 5
    s.accepts 0 0x0308 ∧ freeSlot s 0 = some 0 ∧ s.swapState = 0 ∧ s.fld Reg.shardStatus_stageValid ≠ 0 ∧ swapFits s = true := by
  intro s
  refine ⟨takes_accepts (by decide), by decide, by decide, by decide, ?_⟩
  have h : s.mem = [] := rfl
  have g : (0 : Nat) ≠ s.modelGen := by decide
  have g' : (0 != s.modelGen) = true := by simpa using g
  simp [swapFits, State.shardGen, State.tilePresent, State.tileUnit, State.shardSections, hbm_empty h, g', hasBit]

theorem test_meets_UnitRewrite :
    let s := ({ cmd .loaded 0x0309 (fields [(4, 7)]) with mem := [(264, 7), (268, 1)] }.setFld Reg.shardStatus_swapState 3).setFld Reg.modelGenNext_gen 1
    s.accepts 0 0x0309 ∧ freeSlot s 0 = some 0 ∧ s.swapState = 3 ∧ s.tileUnits.contains 7 = true ∧ fieldAt (s.args 0) 0 4 = 7 ∧
      s.unitGen 7 ≠ s.fld Reg.modelGenNext_gen := by
  intro s
  refine ⟨takes_accepts (by decide), by decide, by decide, ?_, by decide, by decide⟩
  have h : s.tileUnit s.activeBase 0 = 7 := by decide
  rw [← h]
  exact tileUnit_mem (by decide) (by decide)

theorem test_meets_CommitPrepare :
    let s := ((cmd .loaded 0x030A (fields [(8, 64)])).setFld Reg.shardStatus_swapState 3).setFld Reg.modelGenCur_gen 5
    s.accepts 0 0x030A ∧ freeSlot s 0 = some 0 ∧ s.swapState = 3 ∧ beatArg (s.args 0) = s.beat + 64 ∧ (∀ u ∈ s.tileUnits, s.unitGen u ≠ s.modelGen) := by
  intro s
  refine ⟨takes_accepts (by decide), by decide, by decide, by decide, fun u _ => ?_⟩
  have h : s.unitGen u = 0 := rfl
  rw [h]
  decide

/-- A live sequence in entry 0. -/
def oneSeq (s : State) (e : SeqE) : State := { s with seqs := { s.seqs with table := [(0, e)] } }

theorem test_meets_SequenceCommandsComplete :
    (let s := { cmd .serving 0x0401 (fields [(8, 0), (4, 1), (4, 2 ^ 20 - 1), (8, 0), (8, 2 ^ 33), (4, 0xFFFFFFFF), (4, 0)]) with
        sched := { State.reset.sched with vocab := 1 } }.setFld Reg.kvTokens_tokens (2 ^ 20 + 512);
      s.accepts 0 0x0401 ∧ freeSlot s 0 = some 0 ∧ submitArgs (s.args 0) s = false ∧ submitRefused (s.args 0) s = none) ∧
    (let s := oneSeq (cmd .serving 0x0402 (fields [(4, 0), (2, 1), (2, 0)])) { gen := 1, st := 1 };
      s.accepts 0 0x0402 ∧ freeSlot s 0 = some 0 ∧ fieldAt (s.args 0) 6 2 = 0 ∧ seqRefused (s.args 0) s = none) ∧
    (let s := oneSeq (cmd .serving 0x0403 (fields [(4, 0), (2, 1), (1, 1), (1, 0)])) { gen := 1, st := 2 };
      s.accepts 0 0x0403 ∧ freeSlot s 0 = some 0 ∧ fieldAt (s.args 0) 6 1 = 1 ∧ fieldAt (s.args 0) 7 1 = 0 ∧ seqRefused (s.args 0) s = none) ∧
    (let s := oneSeq (cmd .serving 0x0404 (fields [(4, 0), (2, 1), (2, 0)])) { gen := 1, st := 3, pHost := true };
      s.accepts 0 0x0404 ∧ freeSlot s 0 = some 0 ∧ fieldAt (s.args 0) 6 2 = 0 ∧ seqRefused (s.args 0) s = none ∧ (s.seq 0).pHost = true) ∧
    (let s := oneSeq (cmd .serving 0x0404 (fields [(4, 0), (2, 1), (2, 0)])) { gen := 1, st := 2 };
      s.accepts 0 0x0404 ∧ freeSlot s 0 = some 0 ∧ fieldAt (s.args 0) 6 2 = 0 ∧ seqRefused (s.args 0) s = none ∧ (s.seq 0).pHost = false) ∧
    (let s := cmd .serving 0x0406 []; s.accepts 0 0x0406 ∧ freeSlot s 0 = some 0 ∧ ∀ j ∈ s.jobsOf 0x0406, j.1 ≠ 0) := by
  refine ⟨⟨takes_accepts (by decide), by decide, by decide, by decide +kernel⟩, ?_⟩
  and_intros <;> first | decide | exact waits_waiting (by decide)

theorem test_meets_PowerAndServiceCommandsComplete :
    (let s := cmd .configured 0x0501 (fields [(8, 1), (1, 0), (3, 0)]);
      s.accepts 0 0x0501 ∧ freeSlot s 0 = some 0 ∧ fieldPowerArgs (s.args 0) s = false ∧ fieldBusy (s.args 0) s = none) ∧
    (let s := (cmd .thermalShutdown 0x0503 []).setFld Reg.tempNow_temp 339; s.accepts 0 0x0503 ∧ s.tempNow = 339) ∧
    (let s := cmd .configured 0x0504 (fields [(2, 0xFF), (2, 0)]);
      s.accepts 0 0x0504 ∧ fieldAt (s.args 0) 2 2 = 0 ∧ s.domResets = [] ∧ drDomain (s.args 0) = 0xFF) ∧
    (let s := cmd .configured 0x0504 (fields [(2, 0), (2, 0)]);
      s.accepts 0 0x0504 ∧ freeSlot s 0 = some 0 ∧ fieldAt (s.args 0) 2 2 = 0 ∧ s.domResets = [] ∧ drDomain (s.args 0) ≠ 0xFF ∧
        domainCode (drDomain (s.args 0)) = true ∧ s.retiredDom (drDomain (s.args 0)) = false) ∧
    (let s := cmd .outOfService 0x0507 (fields [(4, 0x5356434C)]); s.accepts 0 0x0507 ∧ fieldAt (s.args 0) 0 4 = 0x5356434C) := by
  and_intros <;> first | decide | exact waits_waiting (by decide)

/-- A mailbox command that no one has submitted a good header for, on each clause of the shared refusals. -/
theorem test_meets_CommonRefusalsHaveNoSideEffect :
    (let s := cmd .joined 0x0101 (fields [(4, 4)]);
      mailboxOf (.setDieId 0) = some (0, 0x0101) ∧ (s.mb 0).state = .running ∧ s.coreUp = true ∧ badHeader (s.hdr 0) = false ∧
        (s.hdr 0).opcode = 0x0101 ∧ commonStatus s 0 (s.hdr 0) = 5) ∧
    (let s := waits (on .identified) 7 0x0101 (fields [(4, 4)]);
      mailboxOf (.setDieId 7) = some (7, 0x0101) ∧ (s.mb 7).state = .running ∧ badHeader (s.hdr 7) = false ∧
        (s.hdr 7).opcode = 0x0101 ∧ commonStatus s 7 (s.hdr 7) = 4 ∧ MClass.plat.accepts 7 = false ∧ (cmdSpec 0x0101).map (fun k => k.cls) = some .plat) := by
  decide

theorem test_meets_NothingIsTakenWithoutCommandOrCore :
    ({ State.reset with coreUp := false }).coreUp = false ∧ (on .off).dieState = .off ∧ State.reset.dieState = .romBoot ∧
    ((on .joined).mb 0).state ≠ .running ∧ nextMailbox (waits (cmd .identified 0x0001 (fields [(8, 5)])) 7 1 []) ≠ some 7 := by decide

/-! ### Host, time, links -/

/-- A state whose CSR offset is an RW register: the host reaches it. -/
theorem test_meets_HostWritesReachTheRegister :
    (on .joined).dieState ≠ .off ∧ isMbx7 0x10018 = false ∧ 0x10018 % 4 = 0 ∧ csrReserved 0x10018 = false ∧ isMbx7 0x27000 = true ∧
    isMbx7 0x27FFF = true ∧ isMbx7 0x28000 = false ∧ isMbx7 0x20010 = false ∧ csrReserved 0x20010 = true ∧ (on .off).dieState = .off ∧
    swf regReset (on .joined).csr = true := by decide

theorem test_meets_RegisterWriteFollowsAccessCodes :
    ∃ r, regSpec 0x10018 = some r ∧ r.cfgMask = 0 ∧ r.maskOf [.en] = 0 ∧ (on .joined).gatedAt 0x10018 = false ∧ r.maskOf [.rw, .rws] = 0x3F7F :=
  ⟨_, rfl, by decide, by decide, by decide, by decide⟩

theorem test_meets_SpeedwellLocksAndGates :
    (let s := (on .joined).setFld Reg.seqCfg_en 1;
      s.blockEn (0x70004 / 0x10000) = true ∧ 0x30000 ≤ 0x70004 ∧ mergeBits (s.cfgWord 0x70004) (~~~(s.cfgWord 0x70004)) 1 ≠ s.cfgWord 0x70004) ∧
    (on .joined).blockEn 7 = false ∧ (on .joined).fld Reg.spwStatus_refValid = 0 := by decide

theorem test_meets_ReadsDeliverTheValue : (on .joined).dieState ≠ .off ∧ 0x30008 % 4 = 0 ∧ csrReserved 0x30008 = false := by decide

/-- The die with Dandelion enabled and link `n` in state `st`. -/
def linkIn (n : Nat) (st : LinkState) : State := ((on .joined).setFld Reg.blockEnMisc_ddl 1).updLnk n (fun l => { l with state := st })

/-- The die 4 with a map: link 0 leads to port 1 of die 5. -/
def mapped (st : LinkState) : State :=
  let t : TopoMap := { epoch := 1, rack := 0, primary := 4, standby := 8, root := 0, signer := 4, dies := [
      { dieId := 4, time := 0, parent := 0, links := [2 ^ 29 + 2 ^ 18 + 5], alt := 0 }], endorse := [], digest := [], addr := 0, len := 64 }
  let s := linkIn 0 st
  { s with sec := { s.sec with dieId := some 4, map := some t } }

/-- Both mailbox pages: the host on MBX6, the obeyed manager on MBX7; a mailbox that runs and one that does not. -/
theorem test_meets_MailboxPagesAndInterruptWindows :
    (on .joined).dieState ≠ .off ∧ (6 : Nat) ≠ 7 ∧ 6 < (on .joined).mbx.length ∧ ((on .joined).mb 6).state ≠ .running ∧
    ((cmd .joined 1 []).mb 0).state = .running ∧ (leBytes 4 0).length = 4 ∧
    (let s := mapped .inService; s.dieState ≠ .off ∧ (some 4).isSome = true ∧ some 4 = s.manager) ∧
    (let s := { (on .joined).setFld (intBit 13) 1 with intWin := [(13, true)] };
      s.intWin.find? (fun e => e.1 == 13) = some (13, true) ∧ s.fld (intBit 13) = 1) ∧
    (let s := { on .joined with intWin := [(13, false)] }; s.intWin.find? (fun e => e.1 == 13) = some (13, false)) ∧
    (let s := { on .joined with intWin := [(13, true)] }; s.intWin.find? (fun e => e.1 == 13) = some (13, true) ∧ s.fld (intBit 13) ≠ 1) ∧
    (on .joined).intWin.find? (fun e => e.1 == 13) = none := by decide

/-- A legal U4 read and write: 8 bytes at the top of HBM, 64 behind the shard's slots, a register; the way over the mesh is free. -/
theorem test_meets_U4AccessesComplete :
    (let s := on .joined; let a := hbmEnd - 8;
      s.dieState ≠ .off ∧ u4Fault a 8 false = none ∧ region a ≠ 2 ∧ s.rangePresent a 8 = true ∧ meshTo s hostField a = some s ∧ s.ueIn a 8 = false) ∧
    (let s := on .joined; let a := 2 ^ 33;
      u4Fault a 64 true = none ∧ u4Fault a 64 false = none ∧ region a ≠ 2 ∧ s.protHit [0, 1] a 64 = false ∧ s.rangePresent a 64 = true ∧
        meshTo s hostField a = some s ∧ (s.reach 56 a).isSome = true ∧ s.uePartial a 64 = false ∧ s.ueIn a 64 = false) ∧
    (u4Fault (csrBase + 0x10018) 4 false = none ∧ u4Fault (csrBase + 0x10018) 4 true = none ∧ region (csrBase + 0x10018) = 2 ∧
      isMbx7 (csrOff (csrBase + 0x10018)) = false ∧ (crossMesh (on .joined) hostField coreField).isSome = true) := by
  and_intros <;> decide +kernel

/-- The same as a root with an external grandmaster. -/
def rootLink (n : Nat) : State :=
  let s := (linkIn n .probation).setFld Reg.ddlCfg_gmSource 1
  { s with time := { s.time with state := .root } }

/-- A PTP message of domain `d`. -/
def ptp (d : Nat) (two : Bool) : PtpMsg := { domain := d, sdo := 0, clockId := 0, twoStep := two, epoch := 0, holdLeft := 0, tstate := 3, seqNo := 7, offset := 0 }

/-- Messages sent by a root and by a die that sends none; received ones of this domain and of another, of a kind outside Table 7.3,
one-step and two-step with their stored halves, on a port that carries time and on one that does not. -/
theorem test_meets_PtpMessagesAreSentAndTaken :
    (rootLink 0).syncPorts ≠ [] ∧ (linkIn 0 .inService).syncPorts = [] ∧ (linkIn 0 .inService).timePort 0 = true ∧ (linkIn 6 .inService).timePort 6 = false ∧
    (let s := rootLink 7; s.ddlOn = true ∧ s.linkUp 7 = true ∧ ptpMine s (ptp (s.fld Reg.ddlCfg_domain) false) = true ∧
      ptpMine s (ptp (s.fld Reg.ddlCfg_domain + 1) false) = false ∧ ptpMine s { ptp (s.fld Reg.ddlCfg_domain) false with other := true } = false ∧
      s.candidate 7 = true ∧ syncAccepted s (ptp 0 false) = true) ∧
    (let s := linkIn 6 .inService; s.ddlOn = true ∧ s.linkUp 6 = true ∧ s.candidate 6 = false) ∧
    (rootLink 0).candidate 0 = false ∧ (rootLink 0).linkUp 0 = true ∧
    (let s := rootLink 7; let t := { s with time := { s.time with twoStep := [(7, some (ptp 0 true))], pdResp := [(7, some (ptp 0 true))] } };
      t.linkUp 7 = true ∧ sget noPtp t.time.twoStep 7 = some (ptp 0 true) ∧ sget noPtp t.time.pdResp 7 = some (ptp 0 true)) := by
  and_intros <;> decide

theorem test_meets_TimeTimeoutsComplete :
    (let s := { on .joined with time := { State.reset.time with state := .locked, valid := 1 } }.setFld Reg.ddlStatus_timePort 0;
      hasBit s.time.valid 0 = true ∧ s.fld Reg.ddlStatus_timePort = 0 ∧ s.time.state = .locked) ∧
    ({ on .joined with time := { State.reset.time with state := .acquiring } }).time.state = .acquiring ∧
    (let s := { on .joined with time := { State.reset.time with state := .holdover } }.setFld Reg.holdStat_holdLeft 0;
      s.time.state = .holdover ∧ s.fld Reg.holdStat_holdLeft = 0 ∧ joinedPlus s.dieState = true ∧ swf regReset s.csr = true) ∧
    (rootLink 7).time.state = .root ∧ (rootLink 7).fld Reg.ddlCfg_gmSource = 1 := by decide

/-- The latest marker of the die's own, and one before it: sent, unacknowledged, and `off` markers outside their beat. -/
def awaited (off : Nat) : State :=
  { (linkIn 6 .inService).updLnk 6 (fun l => { l with acks := [4, 5], offBeat := off, missed := 2 }) with beat := 6 }

/-- Beats at the boundary of each clause: a marker of this beat and of the next, after two and after three late ones; an
acknowledgement no marker waits for, one in time and one too late; a timeout with and without a marker that waits. -/
theorem test_meets_BeatExchangeCompletes :
    (let s := awaited 2; s.ddlOn = true ∧ s.linkUp 6 = true ∧ markerLink 6 = true ∧ s.exchanges 6 = true ∧ (6 : Nat) = s.beat % 2 ^ 32 ∧
      (7 : Nat) ≠ s.beat % 2 ^ 32 ∧ (s.lnk 6).offBeat < 3 ∧ 3 ≤ ((awaited 3).lnk 6).offBeat ∧ 4 ≤ ((awaited 4).lnk 6).offBeat ∧ 2 ≤ (s.lnk 6).missed ∧
      (∀ b ∈ (s.lnk 6).acks, b % 2 ^ 32 ≠ 3 % 2 ^ 32) ∧ (s.lnk 6).acks.find? (fun b => b % 2 ^ 32 == 5 % 2 ^ 32) = some 5 ∧ s.beat < 5 + 2 ∧
      (s.lnk 6).acks.find? (fun b => b % 2 ^ 32 == 4 % 2 ^ 32) = some 4 ∧ 4 + 2 ≤ s.beat ∧
      (s.lnk 6).acks.find? (fun b => decide (b + 2 ≤ s.beat)) = some 4) ∧
    (let s := { awaited 2 with beat := 5 }; ∀ b ∈ (s.lnk 6).acks, s.beat < b + 2) := by decide

/-- The partner's HELLO on that link. -/
def partner : Hello :=
  { kind := 0x10, peerOk := true, quar := false, isSwitch := false, resvBits := false, fpvMin := 1, fpvMax := 2, dieId := 5, port := 1, goodLanes := 0xF
    romRev := 0, patch := 0, mapEpoch := 1, expDie := 4, expPort := 0, tstate := 2, mapDigest := List.replicate 32 0, modelGen := 0 }

/-- The map's digest is that of the partner's HELLO. -/
def sameMap (s : State) : State := { s with sec := { s.sec with map := s.sec.map.map (fun t => { t with digest := List.replicate 32 0 }) } }

/-- A HELLO that passes, one with QUAR, one that names another die, one of another epoch; its 72 bytes read back. -/
theorem test_meets_HelloQuarantinesOrAdmits :
    let s := sameMap (mapped .identify)
    swf regReset s.csr = true ∧ s.links.length = 13 ∧ (s.lnk 0).state = .identify ∧ s.sec.map.isSome = true ∧ helloCheck s 0 partner = 0 ∧ partner.peerOk = true ∧
      { partner with quar := true }.quar = true ∧ helloCheck s 0 { partner with expDie := 5 } = 2 ∧ helloCheck s 0 { partner with mapEpoch := 2 } = 3 ∧
      partner.mapDigest.length = 32 ∧ partner.dieId < 2 ^ 18 := by decide

/-- Link 0 in a state it entered in this beat by row `r` from `st`. -/
def tookRow (now st : LinkState) (r : Nat) : State := (linkIn 0 now).updLnk 0 (fun l => { l with before := some (r, st, 0) })

/-- Each state an event needs, good and bad lanes, a HELLO that is judged, discarded, of another epoch; the training timeout that
came before PCS_ALIGNED in one beat, and the training that ended in RETRAIN's place. -/
theorem test_meets_LinkEventsComplete :
    (linkIn 0 .phyTrain |>.lnk 0).state = .phyTrain ∧ (takeLanes (linkIn 0 .phyTrain) 0 15 0).2 = true ∧ (takeLanes (linkIn 0 .phyTrain) 0 0 0).2 = false ∧
    ((rowState (tookRow .down .phyTrain 3) 0 2 (fun x => x == .phyTrain)).lnk 0).state = .phyTrain ∧ ((tookRow .down .phyTrain 3).lnk 0).before = some (3, .phyTrain, 0) ∧
    ((linkIn 0 .down).lnk 0).state = .down ∧ laneFailState ((linkIn 7 .inService).lnk 7).state = true ∧ ((linkIn 0 .retrain).lnk 0).state = .retrain ∧
    (takeLanes (linkIn 0 .retrain) 0 15 0).2 = true ∧ (takeLanes (linkIn 0 .retrain) 0 0 0).2 = false ∧ ((linkIn 0 .retrain).lnk 0).before = none ∧
    laneFailState ((linkIn 8 .probation).lnk 8).state = true ∧ (linkIn 0 .identify).isOpen 0 = false ∧
    (let s := mapped .identify; s.sec.map.isSome = true ∧ s.isOpen 0 = false ∧ (readHello (helloBytes partner)) = partner ∧
      (readHello (helloBytes { partner with kind := 0x11 })).kind ≠ 0x10 ∧ (readHello (helloBytes partner ++ [0])).resvBits = true ∧
      ((rowState s 0 (helloRow s 0 partner) (fun x => x == .identify)).lnk 0).state = .identify ∧
      ((rowState (mapped .probation) 0 (helloRow (mapped .probation) 0 partner) (fun x => x == .identify)).lnk 0).state = .probation) ∧
    (let s := (mapped .identify).updLnk 0 (fun l => { l with peer := some { partner with mapEpoch := 2 } });
      (s.lnk 0).peer = some { partner with mapEpoch := 2 } ∧ (s.lnk 0).state = .identify ∧ helloCheck s 0 { partner with mapEpoch := 2 } = 3) ∧
    (let s := { (mapped .probation).updLnk 0 (fun l => { l with peer := some partner, peerT := 2, beatsOk := 64 }) with time := { State.reset.time with state := .locked } };
      admissible s 0 = true) := by
  and_intros <;> decide

theorem test_meets_LinkStateChange :
    let s := linkIn 12 .down
    swf regReset s.csr = true ∧ 12 < s.links.length ∧ (s.lnk 12).state ≠ .phyTrain := by decide

/-! ### Serving -/

/-- A live position. -/
def pos0 : Pos :=
  { ctx := { seqId := 0, seqGen := 1, adapter := 0, tenant := 0, cls := 0, prio := 0, tokenIdx := 0, token := 0, modelGen := 0 }, null := false, failed := false
    seen := true }

/-- A firing die: field 0 enabled, with these sections and a live position of vector 0. -/
def firing (secs : List Sect) : State :=
  let s := ((on .serving).setFld Reg.schedStatus_firing 1).setFld ⟨Reg.fieldEnLo_en.reg, 0, 1⟩ 1
  { s with sched := { s.sched with secs := secs, pos := [(0, some pos0)] } }

/-- One 64-bit entry of a table. -/
def entry (typ inst e : Nat) : Sect := { typ := typ, inst := inst, data := leBytes 8 e }

/-- A scheduled frame to die `d`. -/
def frame (d : Nat) : SchedFrame := { dst := d, src := 1, isNull := false, isFail := false, ctx := pos0.ctx, vec := 0, destBuf := 63, beat := 0, data := [] }

theorem test_meets_RoutersAndLinksComplete :
    (let s := firing [entry 5 0 0]; s.firing = true ∧ s.routerEntry 0 0 = some 0 ∧ reBeat 0 = s.stepBeat 0 ∧ (s.atCycle 0 0).routerOk 0 = true) ∧
    (let s := (firing [entry 5 0 0]).setFld (Reg.routerStat_routerOk 0) 0; (s.atCycle 0 0).routerOk 0 = false) ∧
    (let s := firing [{ typ := 7, inst := 0, data := leBytes 16 0 }]; s.departureEntry 0 0 = some 0 ∧ deBeat 0 = s.stepBeat 64 ∧ ((s.atCycle 0 0).lnk 0).state ≠ .inService) ∧
    (let a := (firing [{ typ := 7, inst := 0, data := leBytes 16 0 }]).updLnk 0 (fun l => { l with state := .inService });
     let s := { a with sched := { a.sched with pos := [(57 * 256, some pos0)] } }.setFld ⟨Reg.fieldEnHi_en.reg, 25, 1⟩ 1;
     let t := s.atCycle 0 0;
      s.departureEntry 0 0 = some 0 ∧ (t.lnk 0).state = .inService ∧ t.posOf (linkField 0) (deVec 0) = some pos0 ∧ pos0.null = false ∧ pos0.failed = false ∧
        payloadReady t (linkField 0) (deVec 0) (deSrc 0) (deFlits 0) (t.stepSlot (linkField 0) 0) = true ∧ t.fieldRuns (linkField 0) = true ∧
        tableFault t (linkField 0) (deVec 0) 7 0 0 16 = none ∧ sramFault t (linkField 0) (deVec 0) (deSrc 0) (128 * deFlits 0) = none) ∧
    (let s := (firing []).updLnk 0 (fun l => { l with state := .inService });
     let t := (s.atSlot 0).updLnk 0 (fun l => { l with rcvd := l.rcvd + 1 });
      (s.lnk 0).state = .inService ∧ (frame 3).dst ≠ s.myId ∧ (frame 0).dst = s.myId ∧ sget noFrame t.sched.bufs (bufKey 0 63) = none ∧ t.sched.bufMark = [] ∧
        drainNear t 0 63 0 = false ∧ rxDiscard s 0 (frame 0).rx 40 true = none ∧ dieHalf (frame 0).src = dieHalf s.myId ∧
        dieHalf { frame 0 with src := 0x20000 }.src ≠ dieHalf s.myId ∧ (rxDiscard s 0 { tagged := true } 40 true).isSome = true ∧
        (rxDiscard s 0 { bad := true } 40 true).isSome = true ∧ (rxDiscard s 0 (frame 0).rx 8232 true).isNone = true ∧ (rxDiscard s 0 (frame 0).rx 8233 true).isSome = true ∧
        sget noFrame (setBuf t (bufKey 0 63) (some { fr := frame 0, no := 0 })).sched.bufs (bufKey 0 63) ≠ none) := by
  and_intros <;> decide

/-- A tile that drives vector 0 in slot 5, a reserved S slot and a re-run that ends there, a closed window, a decided range. -/
theorem test_meets_TileCommandsComplete :
    (let a := firing [entry 3 0 (2 ^ 59 + 5 * 2 ^ 47)];
     let s := { a with grid := { a.grid with scans := [(0, some { uidx := 0, planes := some 3 })] } };
     let e := 2 ^ 59 + 5 * 2 ^ 47;
      s.firing = true ∧ s.entryAt 0 (s.stepSlot 0 5) = some e ∧ seOp e = 1 ∧ (s.atSlot 5).live 0 (seVec e) = true ∧ (s.atSlot 5).fieldRuns 0 = true ∧
        (let g := genCheck (s.atSlot 5) 0 (seVec e) (seUidx e);
          g.live 0 (seVec e) = true ∧ entryFault g 0 (seVec e) 3 0 8 ((g.slotEntries 0).idxOf e) (seUidx e) = none ∧
            (g.tile 0).live.retired = false ∧ g.scan 0 (seVec e) = some { uidx := 0, planes := some 3 } ∧ 3 + 2 ≤ s.stepSlot 0 5)) ∧
    (let r : SRes := { slot := 5, vec := 0, uidx := 0, plane := 0, rows := [0] };
     let s := (firing []).updTile 0 (fun y => { y with res := [r] });
      s.firing = true ∧ (s.tile 0).res.find? (fun r => r.slot == s.stepSlot 0 5) = some r ∧ (s.atSlot 5).live 0 r.vec = true ∧ r.rerun = false ∧ r.rows ≠ [] ∧
        (s.atSlot 5).fieldRuns 0 = true ∧ ((s.setFld ⟨Reg.fieldEnLo_en.reg, 0, 1⟩ 0).atSlot 5).fieldRuns 0 = false ∧
        (((s.atSlot 5).updTile 0 (fun y => { y with res := y.res.filter (fun a => a.slot != s.stepSlot 0 5) })).tile 0).live.retired = false) ∧
    (let a := firing []; let h : Shadow := { field := 0, tile := 0, vec := 0, last := 5 };
     let s := { a with grid := { a.grid with shadows := [h], scans := [(0, some { uidx := 0 })] } };
      s.grid.shadows.find? (fun h => h.tile == 0 && h.last == s.stepSlot 0 5) = some h ∧ (s.atSlot 5).live 0 0 = true ∧
        (s.atSlot 5).scan 0 0 = some { uidx := 0 } ∧ (s.atSlot 5).live 0 1 = false) ∧
    (let s := ((on .serving).updTile 0 (fun y => { y with closed := [(2 ^ 20, 0)], rangeNext := some (1, 0) })).setFld (Reg.rangeLoopCfg_satTarget 0) 1;
      swf noTile s.grid.tiles = true ∧ (s.tile 0).closed = (2 ^ 20, 0) :: [] ∧ s.fld (Reg.tileCfg_rangeFixed 0) = 0 ∧
        s.fld (Reg.rangeLoopCfg_satTarget 0) < 2 ^ 20 ∧ s.rangeOf 0 < s.fld (Reg.tileCfg_rangeMax 0) ∧ (s.tile 0).rangeNext = some (1, 0) ∧ 0 < { s with beat := 1 }.beat) ∧
    (let a := ((on .serving).updTile 0 (fun y => { y with closed := [(0, 0)], fine := 7 })).setFld (Reg.rangeLoopCfg_satTarget 0) 1;
     let b := a.setFld (Reg.rangeLoopCfg_fineWindows 0) 8; let s := (b.setFld (Reg.tileStatus_rangeCur 0) 1).setFld (Reg.tileCfg_rangeMin 0) 0;
      (s.tile 0).closed = (0, 0) :: [] ∧ (0 : Nat) ≤ s.fld (Reg.rangeLoopCfg_satTarget 0) / 2 ∧
        max 1 (s.fld (Reg.rangeLoopCfg_fineWindows 0)) ≤ (s.tile 0).fine + 1 ∧ s.fld (Reg.tileCfg_rangeMin 0) < s.rangeOf 0 ∧
        max 1 ((s.setFld (Reg.rangeLoopCfg_fineWindows 0) 9).fld (Reg.rangeLoopCfg_fineWindows 0)) > (s.tile 0).fine + 1 ∧
        (s.setFld (Reg.tileCfg_rangeFixed 0) 1).fld (Reg.tileCfg_rangeFixed 0) = 1) := by
  and_intros <;> decide

/-- The entry of an action of kind `a` for vector 0 in slot 5. -/
def act (a : Nat) : Nat := a * 2 ^ 60 + 5 * 2 ^ 48

/-- A die that fires that action, with what the field holds of the vector; the unit's owner field is field 1. -/
def acting (a : Nat) (x : Scan) : State :=
  let s := firing [entry 4 0 (act a), { typ := 8, inst := 0, data := leBytes 8 0 ++ leBytes 8 1 }]
  { s with grid := { s.grid with scans := [(0, some x)] } }

theorem acting_meets (a : Nat) (x : Scan) (hu : faUidx (act a) = 0) : (acting a x).meets 0 5 0 (act a) ((acting a x).atSlot 5) := by
  have c : ∀ r, (acting a x).fld r = (firing []).fld r := fun r => rfl
  have f : (acting a x).firing = true := by
    unfold State.firing
    rw [c]
    decide
  have r : ((acting a x).atSlot 5).fieldRuns 0 = true := by
    have e : ((acting a x).atSlot 5).fieldEn 0 = true := by
      unfold State.fieldEn
      have c' : ∀ r, ((acting a x).atSlot 5).fld r = (firing []).fld r := fun r => rfl
      simp only [c']
      decide
    have o : ((acting a x).atSlot 5).sramPresent 0 = (on .serving).sramPresent 0 := rfl
    unfold State.fieldRuns
    rw [e, o]
    decide
  have g : genCheck ((acting a x).atSlot 5) 0 0 0 = (acting a x).atSlot 5 := rfl
  exact ⟨f, by decide, by decide, r, by rw [hu, g]⟩

theorem acting_slot (a : Nat) (x : Scan) : (acting a x).stepSlot 0 5 = 5 := by
  have p : (acting a x).plan 0 = 0 := rfl
  unfold State.stepSlot State.stepBeat
  rw [p]
  exact (congrArg (fun n => n * 64 + 5) (Nat.mod_one _)).trans rfl

theorem acting_acts (a : Nat) (x : Scan) (h : (acting a x).actionAt 0 a 5 0 = some (act a)) (hu : faUidx (act a) = 0) :
    (acting a x).acts a 0 5 0 (act a) ((acting a x).atSlot 5) := by
  refine ⟨acting_meets a x hu, ?_, rfl, rfl, rfl⟩
  rw [acting_slot]
  exact h

/-- The same with the owner of unit 0 in field 0, and a partial that came in slot `n`. -/
def owning (a : Nat) (x : Scan) (n : Nat) : State :=
  let s := firing [entry 4 0 (act a), { typ := 8, inst := 0, data := leBytes 16 0 }]
  { s with sched := { s.sched with pos := [(0, some { pos0 with got := some n })] }, grid := { s.grid with scans := [(0, some x)] } }

theorem test_meets_FieldActionsComplete :
    (∀ a ∈ [1, 2, 3, 5], ∃ x t, (acting a x).acts a 0 5 0 (act a) t) ∧
    (∃ t, (acting 4 { uidx := 0 }).meets 0 5 0 (act 4) t ∧ (acting 4 { uidx := 0 }).actionAt 0 4 5 0 = some (act 4)) ∧
    (∃ t, (acting 6 { uidx := 0 }).meets 0 5 0 (act 6) t ∧ (acting 6 { uidx := 0 }).selectAt 0 5 0 = some (act 6)) ∧
    (let s := (acting 1 { uidx := 0 }).atSlot 5; outputLate s 0 0 5 = false ∧
      sramFault s 0 0 (faAddr (act 1)) (vecBytes (bits (s.udesc 0 0 0) 0 4) (512 * (s.rowBlocks 0 0).length)) = none) ∧
    outputLate ((owning 1 { uidx := 0 } 4).atSlot 5) 0 0 5 = true ∧
    (let s := (acting 2 { uidx := 0 }).atSlot 5; ((s.scan 0 0).getD { uidx := 0 }).missing.contains 2 = false ∧ s.partners 0 1 7 0 = []) ∧
    (let s := (acting 2 { uidx := 0, missing := [2] }).atSlot 5; ((s.scan 0 0).getD { uidx := 0 }).missing.contains 2 = true) ∧
    (let s := (acting 3 { uidx := 0, g := some (0, 3) }).atSlot 5; (s.scan 0 0).map (fun x => x.g) = some (some (0, 3)) ∧ 3 + 2 ≤ s.stepSlot 0 5) ∧
    (let s := (acting 3 { uidx := 0, g := some (0, 4) }).atSlot 5; (s.scan 0 0).map (fun x => x.g) = some (some (0, 4)) ∧ s.stepSlot 0 5 < 4 + 2) ∧
    (let s := (acting 6 { uidx := 0 }).atSlot 5; s.isOwner 0 (faUidx (act 6)) = false ∧ s.posOf 0 0 = some pos0) ∧
    (let x : Scan := { uidx := 0, sels := [(3, 5, 6, false)] }; let s := (owning 6 x 0).atSlot 5;
      s.isOwner 0 (faUidx (act 6)) = true ∧ 5 + 1 = faFirst (act 6) + s.actLen 0 (act 6) ∧ x.missing.contains 7 = false ∧ lateKind x [7] 5 = none ∧
        bestWord (x.sels.map (fun y => y.2)) = some (5, 6, false)) := by
  refine ⟨?_, ⟨_, acting_meets 4 _ (by decide), by decide⟩, ⟨_, acting_meets 6 _ (by decide), by decide⟩, by decide, by decide, by decide, by decide, by decide,
    by decide, by decide, by decide⟩
  intro a ha
  refine ⟨{ uidx := 0 }, _, acting_acts a _ ?_ ?_⟩
  · revert a; decide
  · revert a; decide

/-- What a field holds of a vector whose partials have all come. -/
def aligned0 : Scan := { uidx := 0, g := some (0, 1), nettled := true }

theorem test_meets_Close :
    (let s := (acting 5 aligned0).atSlot 5; s.scan 0 0 = some aligned0 ∧ aligned0.g = some (0, 1) ∧ aligned0.missing.contains 3 = false ∧ fetchDone s 0 aligned0 = true ∧
      lateKind aligned0 [3, 4, 6] 5 = none ∧ (nettleOnly s 0 0 aligned0).live 0 0 = true) := by
  refine ⟨by decide, rfl, by decide, ?_, by decide, by decide⟩
  have h : ((acting 5 aligned0).atSlot 5).onlyFlits 0 0 = 0 := rfl
  have d : decide (((acting 5 aligned0).atSlot 5).onlyFlits 0 0 ≤ ((acting 5 aligned0).atSlot 5).unitFetched 0 0) = true :=
    decide_eq_true (Nat.le_trans (Nat.le_of_eq h) (Nat.zero_le _))
  show (decide (0 * Config.rowFlits ≤ 0) && decide (((acting 5 aligned0).atSlot 5).onlyFlits 0 0 ≤ ((acting 5 aligned0).atSlot 5).unitFetched 0 0)) = true
  rw [d]
  simp

theorem test_meets_CloseAdapterUnused :
    (let u := formH ((acting 5 aligned0).atSlot 5) 0 0 aligned0;
      adapterFor u 0 0 (faUidx (act 5)) = .unused ∧ sramFault u 0 0 (bits (u.udesc 0 0 3) 0 21) (8 * u.laneCnt 0 0) = none) := ⟨rfl, rfl⟩

theorem test_meets_OpenZeroesTheUnitsLanes :
    ∃ t, (acting 4 { uidx := 0 }).meets 0 5 0 (act 4) t ∧ (acting 4 { uidx := 0 }).actionAt 0 4 5 0 = some (act 4) ∧ swf zeroInt t.grid.lanes = true ∧
      t.laneLo 0 0 ≤ 0 ∧ 0 < t.laneLo 0 0 + t.laneCnt 0 0 := ⟨_, acting_meets 4 _ (by decide), by decide, by decide, by decide, by decide⟩

/-- An attention image of one unit of kind `k` and one window over vector 0. -/
def attImage (k : Nat) : List Byte :=
  leBytes 6 0 ++ leBytes 1 1 ++ leBytes 1 0 ++ leBytes 2 1 ++ leBytes 54 0 ++ leBytes 1 0 ++ leBytes 1 k ++ leBytes 38 0 ++ leBytes 4 1 ++ leBytes 4 1 ++ leBytes 16 0 ++
    leBytes 16 (2 ^ 52)

theorem test_meets_AttentionWindowsComplete :
    (let a := firing []; let s := { a with sched := { a.sched with att := attImage 0 } }; s.winDue 0 0 = true) ∧
    (let a := firing []; let s := { a with sched := { a.sched with att := attImage 1 } }.setFld (Reg.hbmCfg_en 0) 1;
     let e := s.attWin 0; let t := s.atSlot (winFirst e % 64); let u := t.attUnit (winUnit e);
      s.winDue 0 1 = true ∧ winVecCnt e = 1 ∧ t.posOf (winField e) (winVecLo e) = some pos0 ∧ t.sideServes (winEngine e) (auSide u) = true ∧
        pos0.ctx.token < auEmbRows u ∧ t.ueIn (auEmbBase u + pos0.ctx.token * (auEmbWidth u * 2)) (auEmbWidth u * 2) = false) := by
  decide

theorem test_meets_PartsDivideTheRows : (0 : Nat) < 2 ^ 3 ∧ part (List.range 20) 3 0 = [0, 1] ∧ part (List.range 20) 3 7 = [17, 18, 19] := by decide

/-! ### Calibration, checks, slots -/

/-- A die with tile 0 as given. -/
def tile0 (x : Tile) : State := { on .serving with grid := { State.reset.grid with tiles := [(0, x)] } }

theorem test_meets_Calibration :
    (let s := tile0 { convs := [(63, { offs := true })] };
      s.tileLive 0 = true ∧ convOut (s.tile 0) 63 = false ∧ s.trimDue 0 63 = true) ∧
    (let s := tile0 { convs := [(63, { due := true })] };
      s.tileLive 0 = true ∧ convOut (s.tile 0) 63 = false ∧ (s.conv 0 63).due = true ∧ (s.conv 0 63).busy = false ∧ (s.tile 0).busyConvs = 0 ∧
        s.fieldTrims (tileField 0) < 16 ∧ converts (s.tile 0).live.convMap 63 = true ∧ freeSpare s 0 63 = some 64 ∧ trimsFirst s 0 63 = true) ∧
    (let s := tile0 { convs := [(65, { due := true })] }; converts (s.tile 0).live.convMap 65 = false ∧ trimsFirst s 0 65 = true) ∧
    (let s := tile0 { convs := [(65, { busy := true })] };
      s.tileLive 0 = true ∧ convOut (s.tile 0) 65 = false ∧ (s.conv 0 65).next = none ∧ (s.conv 0 65).out = none ∧ s.mayAttempt 0 65 = true) ∧
    (let s := tile0 { live := { age := 2592000 } };
      (s.tile 0).live.retired = false ∧ 2592000 ≤ (s.tile 0).live.age ∧ s.fld (Reg.driftStat_overdue 0) = 0 ∧ s.powered (tileField 0) = true) ∧
    (let s := { tile0 { retire := some (1, 4, 0) } with beat := 5 }; (s.tile 0).retire = some (1, 4, 0) ∧ 4 < s.beat) ∧
    (let s := { on .serving with grid := { State.reset.grid with tqWin := [(63, { closed := [(7, 0)], next := some (9, 4) })] }, beat := 5 };
      swf noTq s.grid.tqWin = true ∧ (sget noTq s.grid.tqWin (0 * 64 + 63)).closed = (7, 0) :: [] ∧
        (sget noTq s.grid.tqWin (0 * 64 + 63)).next = some (9, 4) ∧ 4 < s.beat) := by
  and_intros <;> decide +kernel

/-- Tile 0 is present, and the unit map holds its unit. -/
theorem test_meets_CheckStart : ∃ s : State, 0 ∈ checkable s := by
  let s : State := { shard (on .serving) with mem := [(264, 7), (268, 1)], sched := { State.reset.sched with secs := [
    { typ := 2, inst := 0, data := leBytes 8 1 ++ leBytes 48 7 }] } }
  refine ⟨s, ?_⟩
  have a : s.fld Reg.shardStatus_activeValid = 1 := by decide
  unfold checkable
  rw [if_pos a]
  exact List.mem_filter.mpr ⟨List.mem_range.mpr (by decide), by decide⟩

/-- Of a die on which tile 0 alone has a refresh pending, tile 0 may pulse. -/
theorem test_meets_MayPulse :
    (let s := { (tile0 { refRowM := 127, refM := 16382 }).setFld (Reg.driftStat_pending 0) 1 with mem := [(268, 1)] };
      (checkWait (s.atSlot 0) 0).mayPulse 0 0 = true) := by
  intro s
  have pend : ∀ u, u < 8192 → u ≠ 0 → (checkWait (s.atSlot 0) 0).fld (Reg.driftStat_pending u) = 0 := by
    intro u h0 hu
    have w : (checkWait (s.atSlot 0) 0).word (tileBase u + 0x3C) = regReset (tileBase u + 0x3C) := by
      apply word_unlisted
      have k : (checkWait (s.atSlot 0) 0).csr.map (fun e => e.1) = [tileBase 0 + 0x3C] := by decide +kernel
      intro e he hk
      have m := List.mem_map_of_mem (f := fun e => e.1) he
      rw [k, List.mem_singleton] at m
      rw [m] at hk
      unfold tileBase fieldBase tileField tileLocal at hk
      omega
    unfold State.fld
    rw [show (Reg.driftStat_pending u).reg = tileBase u + 0x3C from rfl, w, regReset, regSpec_tileBase h0 (by decide) (by decide)]
    have z : ∀ lo n : Nat, lo = 30 → n = 1 → fget (match specIn tileRegs 60 with | some r => BitVec.ofNat 32 r.reset | none => 0) lo n = 0 := by
      rintro _ _ rfl rfl; decide
    exact z _ _ rfl rfl
  have none : ((List.range 8192).filter (fun u =>
      (checkWait (s.atSlot 0) 0).fld (Reg.driftStat_pending u) == 1 && (checkWait (s.atSlot 0) 0).refreshBefore u 0 &&
        (checkWait (s.atSlot 0) 0).refreshReady u && mSlotOpen (checkWait (s.atSlot 0) 0) u 0 &&
        (slotTrim (checkWait (s.atSlot 0) 0) u).isNone)) = [] := by
    rw [List.filter_eq_nil_iff]
    intro u hu
    by_cases h : u = 0
    · rw [h, show (checkWait (s.atSlot 0) 0).refreshBefore 0 0 = false by decide +kernel]; simp
    · rw [pend u (List.mem_range.mp hu) h]; simp
  unfold State.mayPulse
  rw [none]
  decide +kernel

/-- Every place of the slot's order: a trim that waits for no spare, a refresh, a reference-row measurement, a check; and a
check that waited, one that Nettle has next. -/
theorem test_meets_CheckAndSlotEvents :
    (let k : ChkSt := { planes := List.replicate 8 [], codes := List.replicate 8 [], mSlots := 64 }; let s := tile0 { check := some k };
      (s.tile 0).check = some k ∧ k.driven = true ∧ k.nettle = false ∧ 64 ≤ k.mSlots) ∧
    (tile0 { check := some { no := 4 }, refRuns := [{ no := 3 }] }).nextRequest 0 = some 3 ∧
    (let s := tile0 { convs := [(65, { due := true, at0 := 0 })] }; mSlotOpen s 0 63 = true ∧ slotTrim s 0 = none ∧ s.refreshReady 0 = false) ∧
    (let s := { tile0 { convs := [(0, { due := true })], deadSpares := 3 } with beat := 10 ^ 9 };
      mSlotOpen s 0 0 = true ∧ slotTrim (checkWait (s.atSlot 0) 0) 0 = some 0) ∧
    (let s := { (tile0 { refRowM := 127, refM := 16382 }).setFld (Reg.driftStat_pending 0) 1 with mem := [(268, 1)] };
      mSlotOpen s 0 0 = true ∧ slotTrim (checkWait (s.atSlot 0) 0) 0 = none ∧ (checkWait (s.atSlot 0) 0).refreshReady 0 = true ∧
        ((checkWait (s.atSlot 0) 0).tile 0).refM < 16383) ∧
    (let s := tile0 { refRowM := 127 };
      mSlotOpen s 0 0 = true ∧ slotTrim (checkWait (s.atSlot 0) 0) 0 = none ∧ (checkWait (s.atSlot 0) 0).refreshReady 0 = false ∧
        ((checkWait (s.atSlot 0) 0).tile 0).refRowM = 127) ∧
    (checkWait ((tile0 {}).atSlot 0) 0).refRowWork 0 = false := by
  and_intros <;> decide +kernel

/-! ### Fabric and memory -/

/-- A loaded die with the fabric enabled and link 0 in use. -/
def fabric : State := ((on .loaded).setFld Reg.fabCfg_en 1).updLnk 0 (fun l => { l with state := .inService })

/-- A request of die 5 for this die. -/
def rq (op len addr opnd : Nat) : ReqHdr :=
  { src := 5, dst := 0, ttl := 8, op := op, tag := 1, dgen := 0, issueBeat := 0, len := len, addr := addr, opnd1 := opnd, opnd2 := 9, stopBeat := 0 }

theorem test_meets_RemoteOperations :
    swf regReset fabric.csr = true ∧ memWf fabric.mem = true ∧ fabric.cyc < 5120 ∧ fabric.takesReq 0 1 (rq 1 256 0 0) 0 false ∧
    fabric.takesReq 0 2 (rq 2 8 (hbmEnd - 8) 0) 8 false ∧ fabric.takesReq 0 3 (rq 3 8 (2 ^ 33) 7) 0 false ∧ fabric.takesReq 0 4 (rq 4 8 (2 ^ 33) 7) 0 false := by
  unfold State.takesReq State.receives
  extract_lets
  and_intros <;> decide

/-- Two receive buffers' worth of frames: an ordinary one, a tagged one, one that finds the ingress buffer full. -/
theorem test_meets_FabricEvents :
    fabric.receives 0 {} 5 0 64 ∧ fabric.receives 0 {} 5 0 56 ∧ (rq 5 64 0 (2 ^ 33)).dst = fabric.myId ∧
    copyRefused fabric (rq 5 64 0 (2 ^ 33)) = none ∧ copyRefused fabric (rq 6 64 0 (2 ^ 63 + 4096)) = none ∧
    (let c : CopyRun := { link := 0, hdr := rq 5 64 0 4096, left := 0 }; let s := { fabric with fab := { fabric.fab with copies := [c] } };
      s.fab.copies.find? (fun c => c.hdr.src == 5 && c.hdr.tag == 1) = some c ∧ c.left = 0) ∧
    (let k : KvRange := { handle := 0, side := 0, first := 2 ^ 17, count := 1, idx := 0, gen := 1, au := 0, slot := 0, nonces := [] }
     let s := { fabric with fab := { fabric.fab with recv := [k] } }; let a := fabLocal (2 ^ 33);
      (rq 6 4096 (2 ^ 33) 0).dst = s.myId ∧ s.fld Reg.fabCfg_en = 1 ∧ rangeFor s a 4096 = some k ∧ s.protHit (List.range 16) a 4096 = false ∧
        s.rangePresent a 4096 = true ∧ (meshTo s (linkField 0) a).isSome = true ∧ s.uePartial a 4096 = false ∧ rxDiscard s 0 {} (64 + 4096) false = none ∧
        s.linkUp 0 = true) ∧
    (let r : RespHdr := { src := 5, dst := 0, op := 1, status := 0, tag := 1, dgen := 65535, applyBeat := 0, len := 8, old := 0 };
      r.dst = fabric.myId ∧ r.dgen % 65536 ≠ fabric.ev.hdr.dieGen % 65536 ∧ { r with dgen := 65536 }.dgen % 65536 = fabric.ev.hdr.dieGen % 65536) ∧
    (let q : OutReq := { op := 1, addr := 0, len := 8, why := .mapRead 0 }; let s := { fabric with fab := { fabric.fab with reqs := [q] }, beat := 512 };
      s.fab.reqs.find? (fun r => r.tag == 0) = some q ∧ q.issue + s.reqTimeout ≤ s.beat) ∧
    3 ≠ fabric.myId ∧ (rxDiscard fabric 0 { tagged := true } 16 false).isSome = true ∧ (rxDiscard fabric 0 { backlog := 262144 } 16 false).isSome = true ∧
    rxDiscard fabric 0 {} 16 false = none ∧ ctrlReserved 0x30 = true ∧ ctrlReserved 0x2F = false ∧
    crossBad fabric 2 0x20000 0x10 = true ∧ crossBad fabric 2 0x20000 0x20 = false := by
  unfold State.receives
  and_intros <;> decide

/-- A die that scrubs and moves pages: directory entry 0 is bound, and its list holds one page, in frame 5. -/
def paged : State :=
  let a := ((on .loaded).setFld Reg.blockEnMisc_fault 1).setFld Reg.faultCfg_scrubEn 1
  { (a.setFld (Reg.hbmCfg_en 0) 1).setFld (Reg.hbmCfg_migEn 0) 1 with
    mem := [(17, 0x10), (24, 1), (0x1001, 0x20), (0x2040, 5), (0x2043, 0x80)]
    sched := { State.reset.sched with att := leBytes 6 0 ++ leBytes 58 1 ++ leBytes 8 0 ++ leBytes 2 1 ++ leBytes 2 0 ++ leBytes 52 1 }
    sides := [{ poolLo := 0x90040, poolHi := 0x120000, moves := [{ old := 5, new := 6 }, { old := 7, new := 8, switch := some 3 }] }] }

theorem paged_descs : paged.descsOf 5 ≠ [] := by
  intro h
  have m : 0x2040 ∈ paged.descsOf 5 := by
    unfold State.descsOf
    exact List.mem_flatMap.mpr ⟨0, List.mem_range.mpr (by decide), by decide⟩
  rw [h] at m
  exact absurd m (List.not_mem_nil)

theorem test_meets_HbmEvents :
    let s := paged
    swf regReset s.csr = true ∧ memWf s.mem = true ∧ s.cyc < 5120 ∧ s.scrubs 0 = true ∧ 32 * ((stackEnd - 33) / 32) + 32 ≠ (0 + 1) * stackEnd ∧
    s.fld (Reg.hbmCfg_migEn 0) = 1 ∧ s.fld (Reg.hbmCfg_en 0) = 1 ∧ s.hbmPresent 0 = true ∧
    (s.side 0).moves.find? (fun m => m.old == 5 && m.switch.isNone) = some { old := 5, new := 6 } ∧ s.coreAwake = true ∧
    s.ueIn (65536 * 5) 65536 = false ∧ s.descsOf 5 ≠ [] ∧
    (s.side 0).moves.find? (fun m => m.old == 7) = some { old := 7, new := 8, switch := some 3 } ∧ 3 + 64 ≤ { s with beat := 67 }.beat := by
  refine ⟨by decide, by decide, by decide, by decide, by decide, by decide, by decide, by decide, by decide, by decide, by decide, paged_descs, by decide, by decide⟩

/-! ### Power, time of service, integrity -/

theorem test_meets_Housekeeping :
    (let s := on .loaded; swf regReset s.csr = true ∧ s.dieState ≠ .off ∧ s.coreUp = true) ∧
    (on .loaded).fld (Reg.sens_fast 47) = 0 ∧ ((on .loaded).setFld (Reg.sens_fast 47) 1).fld (Reg.sens_fast 47) ≠ 0 ∧
    (let s := { on .loaded with pow := { State.reset.pow with bandNext := some 3 }, aliveRounds := 1000 }; s.pow.bandNext = some 3 ∧ 1000 ≤ s.aliveRounds) ∧
    ((on .loaded).setFld Reg.blockEnMisc_power 1).fld Reg.blockEnMisc_power = 1 := by decide

/-- BUS_GAIN 12800: code 759 lies below the brown-out level, 760 not; 780 clears it; 1000 is no overvoltage, 1001 is one. -/
theorem test_meets_PowerAlarms :
    (let s := ((on .loaded).setFld Reg.blockEnMisc_sensor 1).setFld Reg.sensCfg_busGain 12800;
      s.sensorOn = true ∧ s.fld Reg.thermStatus_brownout = 0 ∧ s.busValue 759 < 9728000 ∧ ¬s.busValue 760 < 9728000 ∧
        s.fld Reg.thermStatus_busOver = 0 ∧ 12800000 < s.busValue 1001 ∧ ¬12800000 < s.busValue 1000 ∧
        (s.setFld Reg.thermStatus_brownout 1).sensorOn = true ∧ (s.setFld Reg.thermStatus_brownout 1).fld Reg.thermStatus_brownout = 1 ∧
        9984000 ≤ (s.setFld Reg.thermStatus_brownout 1).busValue 780) ∧
    (let s := ((on .loaded).setFld Reg.blockEnMisc_power 1).setFld Reg.powerCfg_avsEn 1;
      s.coreUp = true ∧ s.fld Reg.blockEnMisc_power = 1 ∧ s.avsEn = true ∧ s.powered 79 = true ∧ railsOf 79 ≠ []) := by decide

theorem test_meets_IntegrityAndDomains :
    (let s := { on .loaded with pow := { State.reset.pow with pdBegun := [69] } }; s.dieState ≠ .off ∧ s.pow.pdBegun.contains 69 = true) ∧
    (let r : DomReset := { domain := 3, mbx := 0, slot := 0, inReset := true, retire := false, enables := [], wait := 0 }
     let s := { on .loaded with domResets := [r] }; s.domResets.find? (fun r => r.domain == 3 && r.inReset) = some r) := by decide

theorem test_meets_ResetsStartAfresh :
    (on .loaded).dieState ≠ .off ∧ (on .off).dieState = .off ∧ { on .off with supply := false }.supply = false ∧
    { on .loaded with dieReset := some 4 }.dieReset = some 4 := by decide

theorem test_meets_BootAndFatalEvents :
    State.reset.booting = true ∧ State.reset.coreUp = true ∧ State.reset.sec.fuses.checkBad = false ∧
    { State.reset with sec := { fuses := { checkBad := true } } }.booting = true ∧
    (on .loaded).routerOk 63 = true ∧ (on .loaded).dieState ≠ .off ∧ (on .loaded).sec.fuses.dbgKill = false ∧
    swf regReset State.reset.csr = true ∧ swf regReset (on .loaded).csr = true := by decide

/-! ### Manager messages -/

/-- A map of epoch 2, and a fetch with one page of its only object requested from a source whose next PSN is 5. -/
def newMap : TopoMap := { epoch := 2, rack := 0, primary := 4, standby := 8, root := 0, signer := 4, dies := [], endorse := [], digest := [], addr := 0, len := 64 }
def oneFetch : Fetch :=
  { job := none, repair := false, base := 0, srcs := [{ port := 0, raddr := 0, entry := [], psn := 5 }]
    objs := [{ off := 0, len := 64, kind := 0, idx := 0, src := 0, reads := [4096] }] }

theorem test_meets_ManagerEvents :
    (let a := (mgr (mapped .inService)).setFld Reg.blockEnMisc_fault 1; let s := a.setFld Reg.rackHealthLo_baseLo 0x10000;
      s.coreAwake = true ∧ s.hears = true ∧ s.manager = some 4 ∧ s.sec.map.map (fun t => t.standby) = some 8 ∧ 8 ≠ s.myId ∧ s.fld Reg.secRole_role = 1 ∧
        s.fld Reg.secRole_manager = 1 ∧ s.sec.mapRead = none ∧ s.prefers 2 5 = true ∧ s.sec.map.map (fun t => t.signer) = some s.myId ∧
        s.fld Reg.blockEnMisc_fault = 1 ∧ 255 / 256 = s.myId / 256 ∧ region (healthAddr s 255) = 0 ∧ s.rangePresent (healthAddr s 255) 64 = true) ∧
    (let a := mapped .inService; let t := a.sec.map;
     let s := { (a.setFld Reg.secRole_role 2).setFld Reg.secStatus_takeoverReady 1 with sec := { a.sec with takeover := t }, beat := 2442 };
      s.sec.takeover.isSome = true ∧ s.fld Reg.secRole_role = 2 ∧ s.fld Reg.secStatus_takeoverReady = 1 ∧ s.mgr.took = false ∧
        s.mgr.lastAlive + 5000000 ≤ s.ns ∧ ¬s.mgr.lastAlive + 5000000 ≤ { s with beat := 2441 }.ns ∧ s.coreAwake = true ∧
        a.fld Reg.secStatus_takeoverReady = 0) ∧
    (let a := mapped .inService; let t := newMap;
     let s := { a with sec := { a.sec with mapSign := [(t, none)], mapPend := some (t, none), takeover := some t } };
      s.sec.mapSign = (t, none) :: [] ∧ s.rangePresent (fabLocal t.addr) t.len = true ∧ s.prefers t.epoch t.signer = true ∧
        s.sec.mapPend = some (t, none) ∧ s.sec.takeover = some t ∧ s.fld Reg.secStatus_takeoverReady = 0 ∧ s.coreAwake = true) ∧
    (let s := (firing [{ typ := 1, inst := 0, data := leBytes 4 (2 ^ 11) }]).updLnk 0 (fun l => { l with state := .inService });
      s.entryField.isSome = true ∧ s.hears = true) := by
  and_intros <;> decide

/-! ### Shards, sequences, the beat -/

theorem test_meets_ShardEvents :
    (let s := { (on .loaded).setFld Reg.shardStatus_swapState 4 with beat := 7, shard := { State.reset.shard with commitAt := some (7, none) } };
      s.shard.commitAt = some (7, none) ∧ s.swapState = 4 ∧ 7 ≤ s.beat) ∧
    (let f := oneFetch;
     let s := { on .loaded with shard := { State.reset.shard with fetch := some f } };
     let n := f.objs.foldl (fun n o => if o.src = 0 then n + o.pagesOut else n) 0;
     let d := fun psn => ((getAt noSrc f.srcs 0).psn + 2 ^ 24 - psn % 2 ^ 24) % 2 ^ 24;
      s.shard.fetch = some f ∧ 1 ≤ d 4 ∧ d 4 ≤ n ∧ d 5 = 0 ∧ n < d 6) := by decide

/-- The active shard has neither tiles nor sections, and its signed part is empty. -/
def bareShard : State := let a := shard (on .loaded); { a with shard := { a.shard with digest := sha [] } }

theorem bareShard_manifest : manifestOk bareShard = true := by
  have r : bareShard.read bareShard.activeBase bareShard.shard.signed = [] := rfl
  unfold manifestOk
  rw [r]
  exact beq_self_eq_true _

theorem bareShard_good : badNow bareShard = [] := by
  have h : bareShard.mem = [] := rfl
  have u : bareShard.ue = [] := rfl
  have v : bareShard.sue = [] := rfl
  simp [badNow, State.tilePresent, State.shardSections, State.ueIn, hbm_empty h, u, v, bareShard_manifest, hasBit]

theorem test_meets_Redigest :
    bareShard.coreAwake = true ∧ bareShard.fld Reg.shardStatus_activeValid = 1 ∧ bareShard.rangePresent bareShard.activeBase (2 ^ 32) = true ∧
    badNow bareShard = [] ∧ bareShard.shard.bad = [] := ⟨by decide, by decide, by decide, bareShard_good, rfl⟩

/-- A firing die whose field 0 is an entry field with a step of one beat. -/
def entryDie : State := (firing [{ typ := 1, inst := 0, data := leBytes 4 (2 ^ 11) }]).setFld Reg.seqCfg_en 1

/-- A die with one KV unit whose directory lies at address 0 with these bytes in its first entry. -/
def dirDie (m : Sparse Byte) : State := { on .serving with mem := m, sched := { State.reset.sched with att := attImage 0 } }

theorem test_meets_SequenceEvents :
    (let s := entryDie; s.stepBegin 0 1 = some 1 ∧ s.isEntry 0 = true ∧ s.fld Reg.seqCfg_en = 1 ∧ 1 ∉ s.seqs.maps ∧
      s.beat * 5120 + s.cyc ≤ (1 - 1) * 5120 ∧ 1 ≤ s.beat + 2 * planBeats (s.plan 0)) ∧
    (let s := { entryDie with beat := 2, seqs := { State.reset.seqs with places := [{ step := 0, vec := 0, idx := 3, gen := 1, token := 0, tokIdx := 0 }] } };
      (s.seqs.places.map (fun p => p.step)).min? = some 0 ∧ s.firing = true ∧ s.entryField = some 0 ∧
        s.startBeat + (0 + s.seqs.lag) * planBeats (s.plan 0) + planBeats (s.plan 0) ≤ s.beat) ∧
    (let s := oneSeq { entryDie with beat := 2 } { gen := 1, st := 2, deadline := 4096 };
      (s.seq 0).alive = true ∧ (s.seq 0).contLate = false ∧ (s.seq 0).deadline ≠ 0 ∧ (s.seq 0).deadline ≤ s.beat * 2048 ∧
        ∀ p ∈ s.seqs.places, p.idx ≠ 0) ∧
    (let s := dirDie [(14, 1)]; let e := s.dirEntry 0; s.dirHere 0 = true ∧ deBound e = false ∧ deRelease e = false ∧ deGen e ≠ 0) ∧
    (let s := dirDie [(24, 3)]; let e := s.dirEntry 0; s.dirHere 0 = true ∧ deBound e = true ∧ deRelease e = false ∧ deHome e = true) ∧
    (let s := dirDie [(10, 16), (24, 3)]; let e := s.dirEntry 0;
      deBound e = true ∧ deRelease e = false ∧ s.parkingOf 0 = false ∧ dePark e = true ∧ deHome e = true ∧ s.dirHere 0 = true) ∧
    (let s := dirDie [(24, 1)]; let e := s.dirEntry 0;
      deBound e = true ∧ deRelease e = false ∧ s.parkingOf 0 = false ∧ dePark e = false ∧ deHome e = false ∧ s.dirHere 0 = true) ∧
    (let s := dirDie [(10, 32), (24, 1)]; let e := s.dirEntry 0;
      deBound e = true ∧ deRelease e = true ∧ s.parkReqs 0 = false ∧ s.dirHere 0 = true) := by decide

theorem test_meets_BeatGrid :
    (on .loaded).dieState ≠ .off ∧
    (let s := { (on .loaded).setFld Reg.schedStatus_installed 1 with beat := 9, sched := { State.reset.sched with startAt := some 9 } };
      s.sched.startAt = some 9 ∧ 9 ≤ s.beat ∧ s.installed = true ∧ s.dieState = .loaded) ∧
    (let s := { (on .holdover).setFld Reg.schedStatus_installed 1 with beat := 9, left := .loaded, sched := { State.reset.sched with startAt := some 9 } };
      s.sched.startAt = some 9 ∧ s.installed = true ∧ s.dieState = .holdover ∧ s.left = .loaded) ∧
    (on .draining).dieState = .draining ∧ (on .draining).liveSeqs = [] ∧ swf regReset (on .draining).csr = true := by decide

/-! ### Rules as they stand, and the frames -/

/-- R7: the tile at (37, 50), counted by hand, and an unpowered field. -/
theorem test_tile_37_50 :
    tileField (50 * 128 + 37) = 50 ∧ tileLocal (50 * 128 + 37) = 37 ∧ tileAt 50 37 = 6437 ∧ State.reset.powered 50 = false := by decide

theorem test_meets_MailboxClasses :
    (let s := waits (on .identified) 7 0x0101 (fields [(4, 4)]);
      mailboxOf (.setDieId 7) = some (7, 0x0101) ∧ s.coreUp = true ∧ s.dieState ≠ .off ∧ s.dieState ≠ .romBoot ∧ (s.mb 7).state = .running ∧
        badHeader (s.hdr 7) = false ∧ (s.hdr 7).opcode = 0x0101 ∧ (cmdSpec 0x0101).map (fun k => k.cls.accepts 7) = some false) ∧
    (mapped .inService).manager = some 4 ∧ (mapped .inService).manager ≠ some 5 := by decide

/-- The queue is empty: a submitted command is served; without one a cycle passes. -/
theorem test_meets_EmptyQueue :
    (cmd .identified 0x0001 (fields [(8, 5)])).pending = [] ∧
    coreTakes (cmd .identified 0x0001 (fields [(8, 5)])) = some (.echo 0) ∧ coreTakes (on .identified) = none ∧
    nextMailbox { waits (waits (on .identified) 2 1 []) 5 1 [] with rr := 3 } = some 5 ∧
    nextMailbox (waits { waits (waits (on .identified) 2 1 []) 5 1 [] with rr := 3 } 7 1 []) = some 7 := by decide

/-- A command that answers a next state from a sound one, and writes no memory; the same for the frames of time and link commands. -/
theorem test_meets_Frames :
    (swf regReset (on .joined).csr = true ∧ memWf (on .joined).mem = true ∧ (on .joined).cyc < 5120) ∧
    writesMemory .bandChange = false ∧ (∃ t, exec .bandChange (on .joined) = .next t) ∧ (∃ t, exec .extGmLost (on .joined) = .next t) ∧
    (∃ t, exec (.helloSend 0) (linkIn 0 .identify) = .next t) ∧ (∃ t, step State.reset = .next t) ∧
    swf regReset State.reset.csr = true ∧ memWf State.reset.mem = true ∧ State.reset.cyc < 5120 :=
  ⟨by decide, rfl, ⟨_, rfl⟩, ⟨_, rfl⟩, ⟨_, rfl⟩, ⟨_, rfl⟩, by decide, by decide, by decide⟩

/-- A one-bit field at the top of its word, its neighbour below it, and another register. -/
theorem test_meets_RegisterFieldWrite :
    31 + 1 ≤ 32 ∧ (0x70004 : Nat) ≠ 0x70008 ∧ (⟨0x70004, 30, 1⟩ : Fld).reg = (⟨0x70004, 31, 1⟩ : Fld).reg ∧ (30 + 1 ≤ 31 ∨ 31 + 1 ≤ 30) ∧
    30 + 1 ≤ 32 ∧ swf regReset (on .joined).csr = true := by decide

/-! ### Worked examples of the spec, and hand calculations from its rules -/

/-- Table 3.5: a quarter of 128 rows and a half of 64 rows at RANGE 1, digits +7, mixed and −8; Table 3.6 at RANGE 0. -/
theorem test_converter_tables_3_5_and_3_6 :
    convert 1 896 0 = (119, false) ∧ convert 1 (-64) 0 = (-9, false) ∧ convert 1 (-1024) 0 = (-127, true) ∧
    convert 1 448 0 = (60, false) ∧ convert 1 (-32) 0 = (-4, false) ∧ convert 1 (-512) 0 = (-68, false) ∧
    convert 0 (-1) 0 = (0, false) ∧ convert 0 7 0 = (2, false) ∧ convert 0 (-6) 0 = (-2, false) ∧ convert 4 (-4096) 0 = (-68, false) := by decide

/-- The example after R10: die 0x3_2C96. -/
theorem test_die_id : dieHalf 0x32C96 = 1 ∧ dieRack 0x32C96 = 300 ∧ dieTray 0x32C96 = 9 ∧ diePkg 0x32C96 = 1 ∧ dieQpos 0x32C96 = 2 := by decide

/-- The example after R34: field 50 to port P7, with all routers, and with the router of field 54 lost. -/
theorem test_distance_entry :
    (on .loaded).stationField 50 9 = some 6 ∧ pathEntry (on .loaded) 50 (some 6) = 0x2C0A ∧
    pathEntry ((on .loaded).setFld (Reg.routerStat_routerOk 54) 0) 50 (some 6) = 0x2C2A := by decide

/-- The example after R195, and that of chapter 16 for a tile register. -/
theorem test_addresses :
    fabAddr 0x12C91 0x1234567800 = 0x4B24401234567800 ∧ fabDie 0x4B24401234567800 = 0x12C91 ∧ fabLocal 0x4B24401234567800 = 0x1234567800 ∧
    (Reg.tileCfg_rangeFixed (tileAt 50 37)).reg = 0x724940 := by decide

/-- The example of R204: QPOS 2 to QPOS 1 of the package of opposite parity leaves at position 2. -/
theorem test_tray_exit : trayExit 2 1 1 = 2 := by decide

/-- The worked product of chapter 4: values at scale 2^-1 aligned at G = −4 with six bits. -/
theorem test_alignment :
    (alignVal 6 true (-4) (7 * 2 ^ 517)).1 = 28 ∧ (alignVal 6 true (-4) (-(5 * 2 ^ 516))).1 = -10 ∧ (alignVal 6 true (-4) (7 * 2 ^ 514)).1 = 4 ∧
    (alignVal 6 true (-4) (-(2 ^ 519))).1 = -16 := by decide +kernel

/-- Chapter 4's flit counts; R92's TQ = 14, 11.3125; chapter 6's wear of a refresh that pulses 4,000 cells. -/
theorem test_sizes_threshold_and_wear :
    vecBytes 1 2048 = 2176 ∧ vecBytes 5 2048 = 1152 ∧ tau 14 = 181 * 2 ^ 515 ∧ pulseWear 4000 = 8 := by decide +kernel

/-- The brown-out example of chapter 20: code 3,000 reads as BUS 4,394 at the 1/40 divider's gain (3,750 / 256 mV), and 2,663 clears. -/
theorem test_bus_example :
    let s := (on .loaded).setFld Reg.sensCfg_busGain 3750
    s.busUnits 3000 = 4394 ∧ s.busValue 2594 < 9728000 ∧ s.busValue 2662 < 9984000 ∧ 9984000 ≤ s.busValue 2663 := by decide

/-- Table 14.9: job slot 3 of MBX2, last generation 4. -/
theorem test_job_number :
    nextJobNo (State.reset.updMb 2 (fun b => { b with jobs := [{}, {}, {}, { gen := 4 }] })) 2 3 = 0x0153 := by decide

/-- The slot entries of chapter 8's example: four planes of vector 9 of unit 2 from slot 50 of beat 1, then six S slots. -/
theorem test_slot_entries :
    seOp 0x0839060209240000 = 1 ∧ seFirst 0x0839060209240000 = 64 + 50 ∧ seRun 0x0839060209240000 = 3 ∧ seVec 0x0839060209240000 = 9 ∧
    seUidx 0x0839060209240000 = 2 ∧ seFirst 0x803B0A0000000000 = 64 + 54 ∧ seRun 0x803B0A0000000000 = 5 := by decide

end Sys2Proof.Machine.Tests
end

section
/-! Register accesses and the numbering of tiles: what a counter, a register write and a register read do to the registers'
words (R6, Table 0.5, R150), and where a tile lies (R7). -/

namespace Sys2Proof.Machine

/-! ### Counters -/

theorem satAdd_lt {m a b : Nat} (h : 0 < m) : satAdd (m - 1) a b < m :=
  Nat.lt_of_le_of_lt (Nat.min_le_left _ _) (Nat.pred_lt_of_lt h)

/-- A counter that fits its register never wraps. -/
theorem fld_count_same {s : State} {x : Fld} {k : Nat} (h : swf regReset s.csr = true) (hx : x.lo + x.n ≤ 32) :
    (s.count x k).fld x = min (2 ^ x.n - 1) (s.fld x + k) := by
  rw [State.count, fld_setFld_same h hx, Nat.mod_eq_of_lt (satAdd_lt (Nat.two_pow_pos x.n)), satAdd]

theorem word_count_other {s : State} {x : Fld} {k p : Nat} (h : p ≠ x.reg) : (s.count x k).word p = s.word p :=
  word_setFld_other h

/-- Settles O8: the sum is capped at the field's all-ones value before it is stored, so cutting it to the field's width
changes nothing. -/
theorem countersStopAtAllOnes : Obligations.CountersStopAtAllOnes := by
  intro s x k ⟨hcsr, _, _⟩ hx
  exact ⟨fld_count_same hcsr hx, fun _ hp => word_count_other hp⟩

/-! ### Register writes -/

@[simp] theorem mergeBits_zero_mask (w v : Word) : mergeBits w v 0 = w := by
  rw [mergeBits, BitVec.not_zero, BitVec.and_allOnes, BitVec.and_zero, BitVec.or_zero]

@[simp] theorem not_hasBit_zero (i : Nat) : hasBit 0 i = false := by
  rw [hasBit, Nat.zero_div]; rfl

/-- A write of a register without configuration fields changes no configuration (R352). -/
@[simp] theorem writeCfg_zero_mask (s : State) (off : Nat) (v : Word) : writeCfg s off 0 v = s := by
  simp only [writeCfg, mergeBits_zero_mask, if_true]

/-- A write of a register without enable bits enables and disables nothing (R353). -/
@[simp] theorem writeEnables_zero_mask (s : State) (off : Nat) (v : Word) : writeEnables s off 0 v = s := by
  simp only [writeEnables, not_hasBit_zero, Bool.false_eq_true, if_false]
  induction List.range 32 with
  | nil => rfl
  | cons _ _ ih => exact ih

/-- An interrupt message is no register's write. -/
@[simp] theorem word_intCause (s : State) (b p : Nat) : (intCause s b).word p = s.word p := rfl

/-- A fold whose every step keeps a register's word keeps it. -/
theorem word_foldl {α : Type} {f : State → α → State} {p : Nat} (hf : ∀ t a, (f t a).word p = t.word p) (l : List α) (s : State) :
    (l.foldl f s).word p = s.word p := by
  induction l generalizing s with
  | nil => rfl
  | cons a l ih => rw [List.foldl_cons, ih, hf]

/-- The messages that a write of INT_MASK sends change no register (R308). -/
@[simp] theorem word_maskWritten (s : State) (old : Word) (p : Nat) : (maskWritten s old).word p = s.word p := by
  refine word_foldl (fun t b => ?_) _ s
  split
  · exact word_intCause t b p
  · rfl

/-- The registers after a write of one that has neither configuration fields nor enable bits and is not gated: only its own
word is stored, by the access codes of its fields. -/
theorem word_writeReg {s : State} {off p : Nat} {v : Word} {r : RegSpec} (h : swf regReset s.csr = true) (hr : regSpec off = some r)
    (hcfg : r.cfgMask = 0) (hen : r.maskOf [.en] = 0) (hg : s.gatedAt off = false) :
    (writeReg s off v).word p = if p = off then
        mergeBits (s.word off) v (r.maskOf [.rw, .rws]) &&& ~~~(v &&& BitVec.ofNat 32 (r.maskOf [.w1c]))
      else s.word p := by
  simp only [writeReg, hr, hcfg, hen, hg, writeCfg_zero_mask, writeEnables_zero_mask, Bool.false_and, Bool.false_eq_true, if_false]
  split
  · rw [word_maskWritten, word_setWord h]
  · exact word_setWord h

/-- Settles O24: the configuration and enable parts of the write are empty, and the messages of INT_MASK change no register. -/
theorem registerWriteFollowsAccessCodes : Obligations.RegisterWriteFollowsAccessCodes := by
  intro s off v r ⟨hcsr, _, _⟩ hr hcfg hen hg
  refine ⟨?_, fun p hp => ?_⟩
  · rw [word_writeReg hcsr hr hcfg hen hg, if_pos rfl]
  · rw [word_writeReg hcsr hr hcfg hen hg, if_neg hp]

/-! ### Register reads -/

@[simp] theorem word_emit (s : State) (m : Msg) (p : Nat) : (s.emit m).word p = s.word p := rfl

/-- A host read of a register: its value as it was before the read's effects. -/
theorem hostRead_of_legal {s : State} {off : Nat} (hs : s.dieState ≠ .off) (h4 : off % 4 = 0) (hr : csrReserved off = false) :
    hostRead s off = (csrReadEffects s off).emit (.regRead off (csrWord s off)) := by
  simp only [hostRead, hs, h4, hr, ne_eq, not_true, Bool.false_eq_true, or_self, if_false]

/-- FT_NS_LO shows fabric time itself. -/
theorem csrWord_ftNsLo (s : State) : csrWord s Reg.ftNsLo_nsLo.reg = BitVec.ofNat 32 s.ns := rfl

/-- The state after a read of FT_NS_LO, an RO register: it keeps its word, and the rest of the same time is latched. -/
theorem csrReadEffects_ftNsLo (s : State) : csrReadEffects s Reg.ftNsLo_nsLo.reg =
    ((s.setWord Reg.ftNsLo_nsLo.reg (s.word Reg.ftNsLo_nsLo.reg)).setWord Reg.ftNsHi_nsHi.reg (BitVec.ofNat 32 (s.ns / 2 ^ 32))).setWord
      Reg.ftFrac_frac.reg (BitVec.ofNat 32 s.frac) := by
  have hr : regSpec Reg.ftNsLo_nsLo.reg = some ⟨0x8, 1, 4, 0x0, [⟨31, 0, .ro⟩]⟩ := rfl
  have hg : s.gatedAt Reg.ftNsLo_nsLo.reg = false := rfl
  have hm : isMbx Reg.ftNsLo_nsLo.reg = false := rfl
  have hrc : RegSpec.maskOf ⟨0x8, 1, 4, 0x0, [⟨31, 0, .ro⟩]⟩ [.rc] = 0 := rfl
  have hmin : RegSpec.maskOf ⟨0x8, 1, 4, 0x0, [⟨31, 0, .ro⟩]⟩ [.rcMin] = 0 := rfl
  simp only [csrReadEffects, readEffects, hr, hg, hm, hrc, hmin, mergeBits_zero_mask, Bool.false_and, Bool.false_eq_true, if_false,
    if_true]

/-- A read of FT_NS_LO latches FT_NS_HI and FT_FRAC. -/
theorem word_csrReadEffects_ftNsLo {s : State} (h : swf regReset s.csr = true) :
    (csrReadEffects s Reg.ftNsLo_nsLo.reg).word Reg.ftNsHi_nsHi.reg = BitVec.ofNat 32 (s.ns / 2 ^ 32) ∧
    (csrReadEffects s Reg.ftNsLo_nsLo.reg).word Reg.ftFrac_frac.reg = BitVec.ofNat 32 s.frac := by
  have h1 : swf regReset (s.setWord Reg.ftNsLo_nsLo.reg (s.word Reg.ftNsLo_nsLo.reg)).csr = true := swf_sset h
  rw [csrReadEffects_ftNsLo]
  constructor
  · rw [word_setWord (swf_sset h1), if_neg (by decide), word_setWord h1, if_pos rfl]
  · rw [word_setWord (swf_sset h1), if_pos rfl]

theorem out_csrReadEffects_ftNsLo (s : State) : (csrReadEffects s Reg.ftNsLo_nsLo.reg).out = s.out := by
  rw [csrReadEffects_ftNsLo, setWord_out, setWord_out, setWord_out]

/-- Settles O26: `hostRead` takes the value from the state before the read's effects, and the effects of FT_NS_LO latch the
rest of the time it shows. -/
theorem readsDeliverTheValue : Obligations.ReadsDeliverTheValue := by
  intro s hs
  refine ⟨fun off h4 hr => congrArg Host.Outcome.next (hostRead_of_legal hs h4 hr), fun ⟨hcsr, _, _⟩ => ?_⟩
  obtain ⟨hhi, hfrac⟩ := word_csrReadEffects_ftNsLo hcsr
  refine ⟨_, congrArg Host.Outcome.next (hostRead_of_legal hs rfl rfl), ?_,
    (word_emit _ _ _).trans hhi, (word_emit _ _ _).trans hfrac⟩
  rw [csrWord_ftNsLo, State.emit, out_csrReadEffects_ftNsLo]
  rfl

/-! ### Numbering of tiles -/

theorem tileField_index {tx ty : Nat} (hx : tx < 128) : tileField (ty * 128 + tx) = ty / 8 * 8 + tx / 16 := by
  unfold tileField; omega

theorem tileLocal_index {tx ty : Nat} (hx : tx < 128) : tileLocal (ty * 128 + tx) = ty % 8 * 16 + tx % 16 := by
  unfold tileLocal; omega

/-- Field and local position name the tile again. -/
theorem tileAt_tileField_tileLocal {t : Nat} : tileAt (tileField t) (tileLocal t) = t := by
  unfold tileAt tileField tileLocal; omega

theorem sramPresent_of_not_powered {s : State} {f : Nat} (h : s.powered f = false) : s.sramPresent f = false := by
  rw [State.sramPresent, h, Bool.false_and]

theorem fieldRuns_of_not_powered {s : State} {f : Nat} (h : s.powered f = false) : s.fieldRuns f = false := by
  rw [State.fieldRuns, sramPresent_of_not_powered h, Bool.false_and]

/-- Settles O59: field and local position are the two halves of the tile's coordinates, and a field's SRAM and its working need
its domain's power. -/
theorem tileNumbering : Obligations.TileNumbering := by
  intro tx ty hx hy t
  have hf : tileField t = ty / 8 * 8 + tx / 16 := tileField_index hx
  exact ⟨by omega, hf, by omega, tileLocal_index hx, tileAt_tileField_tileLocal,
    fun _ h => ⟨sramPresent_of_not_powered h, fieldRuns_of_not_powered h⟩⟩

end Sys2Proof.Machine
end

section
/-! Identity, role, configuration and settings: the mailbox commands of a die that a platform sets up (R10, R17, R319 to R342). -/

namespace Sys2Proof.Machine

/-! ### What the acceptance of a command says of the die, and what its answer leaves -/

/-- A command is accepted only in a state that its row of Table 15.1 names. -/
theorem accepts_dieState {s : State} {m op : Nat} {c : CmdSpec} (h : s.accepts m op) (hc : cmdSpec op = some c) :
    hasBit c.states s.dieState.code = true := by
  obtain ⟨_, hb, ho, hst, _⟩ := h
  simp only [commonStatus, hb, ho, hc, Bool.false_eq_true, if_false] at hst
  split at hst
  · cases hst
  · split at hst
    · cases hst
    · next hn => simpa using hn

/-- The state I of Table 15.1 is IDENTIFIED. -/
theorem identified_of_hasBit_stI {d : DieState} (h : hasBit stI d.code = true) : d = .identified := by
  revert h; cases d <;> decide

@[simp] theorem dieState_respond {s : State} {m acc st jobNo : Nat} {h : CmdHdr} {data : List Byte} :
    (respond s m h acc st jobNo data).dieState = s.dieState := by
  obtain ⟨_, _, _, e⟩ := respond_eq (s := s) (m := m) (h := h) (acc := acc) (st := st) (jobNo := jobNo) (data := data)
  rw [e]

@[simp] theorem sec_respond {s : State} {m acc st jobNo : Nat} {h : CmdHdr} {data : List Byte} :
    (respond s m h acc st jobNo data).sec = s.sec := by
  obtain ⟨_, _, _, e⟩ := respond_eq (s := s) (m := m) (h := h) (acc := acc) (st := st) (jobNo := jobNo) (data := data)
  rw [e]

/-! ### SET_DIE_ID -/

theorem dieQpos_eq (d : Nat) : dieQpos d = d % 4 := by simp [dieQpos, bits]

theorem lt_of_dieValid {d : Nat} (h : dieValid d = true) : d < 2 ^ 18 := by
  rw [dieValid, Bool.and_eq_true, decide_eq_true_eq] at h
  exact h.1

theorem dieIdRefused_of_valid {a : List Byte} {s : State} (hv : dieValid (fieldAt a 0 4) = true) (hq : fieldAt a 0 4 % 4 = s.qpos) :
    dieIdRefused a s = none := by
  simp [dieIdRefused, hv, dieQpos_eq, hq]

theorem dieIdRefused_of_invalid {a : List Byte} {s : State} (hv : dieValid (fieldAt a 0 4) = false) :
    dieIdRefused a s = some (0x40, []) := by
  simp [dieIdRefused, hv]

theorem dieIdRefused_of_position {a : List Byte} {s : State} (hv : dieValid (fieldAt a 0 4) = true) (hq : fieldAt a 0 4 % 4 ≠ s.qpos) :
    dieIdRefused a s = some (0x41, []) := by
  simp [dieIdRefused, hv, dieQpos_eq, hq]

/-- A refused SET_DIE_ID leaves the die IDENTIFIED, the one state in which it is accepted, and its ID as it was. -/
theorem setDieId_refused {s : State} {m code : Nat} (h : s.accepts m 0x0101) (hd : fieldAt (s.args m) 0 4 < 2 ^ 18)
    (hr : dieIdRefused (s.args m) s = some (code, [])) :
    ∃ t, exec (.setDieId m) s = .next t ∧ t = respond (s.cmdCounted m) m (s.hdr m) s.ns code 0 [] ∧
      t.dieState = .identified ∧ t.sec.dieId = s.sec.dieId := by
  have hid : s.dieState = .identified := identified_of_hasBit_stI (accepts_dieState h rfl)
  exact ⟨_, congrArg Host.Outcome.next (takeCommand_refused h rfl (decide_eq_false (Nat.not_le.2 hd)) hr), rfl,
    dieState_respond.trans hid, by rw [sec_respond]; rfl⟩

/-- Settles O13: a range check, then the two refusals, each by the rule of `takeCommand` for it. -/
theorem setDieIdAssignsOrRefuses : Obligations.SetDieIdAssignsOrRefuses := by
  intro s m h d
  refine ⟨fun hd => ?_, fun hv hq => ?_, fun hd hv => ?_, fun hv hq => ?_⟩
  · exact congrArg Host.Outcome.next (takeCommand_badArgs h rfl (decide_eq_true hd))
  · exact congrArg Host.Outcome.next
      (takeCommand_now h rfl (decide_eq_false (Nat.not_le.2 (lt_of_dieValid hv))) (dieIdRefused_of_valid hv hq))
  · exact setDieId_refused h hd (dieIdRefused_of_invalid hv)
  · exact setDieId_refused h (lt_of_dieValid hv) (dieIdRefused_of_position hv hq)

/-! ### Role, root, configuration -/

section
variable {s : State} {m : Nat}

theorem setRole_accepted (h : s.accepts m 0x0102) (hr : fieldAt (s.args m) 0 1 ≤ 2) (hz : fieldAt (s.args m) 1 3 = 0)
    (hm : fieldAt (s.args m) 0 1 = 0 ∨ s.sec.fuses.roleMgr = true) :
    exec (.setRole m) s = .next (s.answer m (takePosition (((s.cmdCounted m).setFld Reg.secRole_role (fieldAt (s.args m) 0 1)).setFld
      Reg.secRole_manager (b2n (fieldAt (s.args m) 0 1 != 0)))) []) := by
  have hok : ¬ (fieldAt (s.args m) 0 1 ≠ 0 ∧ s.sec.fuses.roleMgr = false) := by
    rintro ⟨h0, hf⟩
    exact hm.elim h0 (by simp [hf])
  exact congrArg Host.Outcome.next (takeCommand_now h rfl (by simp [hr, hz]) (if_neg hok))

theorem timeRoot_accepted (h : s.accepts m 0x0103) (ht : s.time.state = .free) :
    exec (.timeRoot m) s = .next (s.answer m { s.cmdCounted m with sec := { s.sec with startNs := fieldAt (s.args m) 0 8 } } []) :=
  congrArg Host.Outcome.next (takeCommand_now h (by simp [ht]) rfl rfl)

theorem configure_accepted (h : s.accepts m 0x0105) (hm : missing s = 0) :
    exec (.configure m) s = .next (s.answer m (enterState (s.cmdCounted m) .configured) []) :=
  congrArg Host.Outcome.next (takeCommand_now h rfl rfl (if_pos hm))

/-! ### Key slots (R322) -/

/-- A blob that unwraps, for a slot that is empty or the same tenant's, is not refused. -/
theorem keyRefused_of_unwrapKey {a : List Byte} {k : KeySlot} (hk : unwrapKey s a = some k)
    (ho : ∀ o, s.keySlot (kwSlot a) = some o → o.tenant = kwTenant a) : keyRefused a s = none := by
  cases hs : s.keySlot (kwSlot a) with
  | none => simp [keyRefused, hs, hk]
  | some o => simp [keyRefused, hs, hk, ho o hs]

/-- The count of invalid keys stays where nothing refuses the command. -/
theorem countInvalid_of_not_refused {t : State} (h : keyRefused (s.args m) s = none) : countInvalid m s t = t := by
  have hr : refusal m 0x0108 keyArgs keyRefused s ≠ some 0x48 := by
    unfold State.args at h
    simp [refusal, h]
  exact if_neg hr

theorem keySlotWrite_accepted {k : KeySlot} (h : s.accepts m 0x0108) (ha : keyArgs (s.args m) s = false)
    (hk : unwrapKey s (s.args m) = some k) (hr : keyRefused (s.args m) s = none) :
    exec (.keySlotWrite m) s = .next (s.answer m (keyLater (s.cmdCounted m) (kwSlot (s.args m)) (some k)) []) := by
  have hnow := takeCommand_now (f := fun a t => (keyLater t (kwSlot a) (unwrapKey t a), [])) (bs := never) h rfl ha hr
  have hu : unwrapKey (s.cmdCounted m) (s.args m) = some k := hk
  rw [hu] at hnow
  exact congrArg Host.Outcome.next ((countInvalid_of_not_refused hr).trans hnow)

end

/-- Settles O14: the rule of `takeCommand` for an immediate effect, once for each command, under what shows its arguments in
range and nothing that refuses it. -/
theorem settingCommandsComplete : Obligations.SettingCommandsComplete := by
  refine ⟨fun s m => ⟨setRole_accepted, timeRoot_accepted, configure_accepted⟩, fun s m => ⟨?_, ?_, ?_, ?_, ?_, ?_, ?_, ?_⟩⟩
  · -- KEY_SLOT_WRITE
    intro h hs hz ht hid k hk ho
    have ha : keyArgs (s.args m) s = false := by simp [keyArgs, hs, hz, hid]; omega
    exact keySlotWrite_accepted h ha hk (keyRefused_of_unwrapKey hk ho)
  · -- KEY_SLOT_CLEAR
    intro h hs hz
    exact congrArg Host.Outcome.next (takeCommand_now h rfl (by simp [hs, hz]) rfl)
  · -- PROTECT_SET
    intro h ha hc
    exact congrArg Host.Outcome.next (takeCommand_now h rfl ha hc)
  · -- PROTECT_CLEAR
    intro h hz hlo hhi
    exact congrArg Host.Outcome.next (takeCommand_now h rfl (by simp [hz, hhi]; omega) rfl)
  · -- KV_RECV_CLOSE
    intro h hz hn
    exact congrArg Host.Outcome.next (takeCommand_now h rfl (by simp [hz, hn]) rfl)
  · -- ADAPTER_EVICT
    intro h h0 hz ha
    exact congrArg Host.Outcome.next (takeCommand_now h rfl (by simp [h0, hz]) (if_pos ha))
  · -- POWER_CAP
    intro h hlo hhi
    exact congrArg Host.Outcome.next (takeCommand_now h rfl (by simp [hlo, hhi]) rfl)
  · -- BUDGET_SET
    intro h ht hb hr
    exact congrArg Host.Outcome.next (takeCommand_now h rfl (by simp; omega) hr)

end Sys2Proof.Machine
end

section
/-! Router entries, departures and scheduled frames (R14, R158 to R170, R178, R192, R196, R200, R220). -/

namespace Sys2Proof.Machine

section
variable {s : State} {f n k e : Nat}

/-! ### Router entries -/

/-- What an entry of this beat does where the field's router works, and that it takes its cycle alone where it does not. -/
theorem routerEntry_ofThisBeat {late : Option Nat} {t : State} (ht : t = s.atCycle (reSlot e) (reCycle e)) (hf : s.firing = true)
    (h64 : f < 64) (he : s.routerEntry f k = some e) (hb : reBeat e = s.stepBeat f) :
    (t.routerOk f = false → exec (.routerEntry f ⟨k, late⟩) s = .next t) ∧
    (t.routerOk f = true → exec (.routerEntry f ⟨k, late⟩) s =
      .next (((List.range 7).filter (fun p => hasBit (reOut e) p)).foldl
        (fun a p => deliver a f e (routerInput (lateRead t f e late) f e).2 p) (routerInput (lateRead t f e late) f e).1)) := by
  subst ht
  have hx : exec (.routerEntry f ⟨k, late⟩) s = execRouterEntry f ⟨k, late⟩ s := rfl
  constructor <;> intro hr <;> simp [hx, execRouterEntry, he, hf, Nat.not_le.2 h64, hb, hr]

/-! ### Departures -/

theorem live_of_posOf {f v : Nat} {p : Pos} (hp : s.posOf f v = some p) (hn : p.null = false) (hf : p.failed = false) :
    s.live f v = true := by
  simp [State.live, hp, hn, hf]

section
variable (hf : s.firing = true) (hn : n < 12) (he : s.departureEntry n k = some e) (hb : deBeat e = s.stepBeat (64 + n))
include hf hn he hb

/-- A departure of this beat on a link that is not in service sends nothing and counts. -/
theorem departure_unsent (hl : ((s.atCycle (deSlot e) (deCycle e)).lnk n).state ≠ .inService) :
    exec (.departure n k) s = .next ((s.atCycle (deSlot e) (deCycle e)).count (Reg.linkBeat_unsentCnt n) 1) := by
  show execDeparture n k s = _
  simp [execDeparture, he, hf, Nat.not_le.2 hn, hb, hl]

/-- A departure of this beat sends the payload of a live position that is complete and reads without error: nothing is late, no
fault fails the position, and the frame is neither NULL nor FAIL. -/
theorem departure_live {t : State} {p : Pos} (ht : t = s.atCycle (deSlot e) (deCycle e)) (hl : (t.lnk n).state = .inService)
    (hp : t.posOf (linkField n) (deVec e) = some p) (hnull : p.null = false) (hfail : p.failed = false)
    (hready : payloadReady t (linkField n) (deVec e) (deSrc e) (deFlits e) (t.stepSlot (linkField n) (deSlot e)) = true)
    (hrun : t.fieldRuns (linkField n) = true) (htab : tableFault t (linkField n) (deVec e) 7 n (16 * k) 16 = none)
    (hsram : sramFault t (linkField n) (deVec e) (deSrc e) (128 * deFlits e) = none) :
    exec (.departure n k) s = .next (sendSched t n e
      { dst := deDest e, src := t.myId, isNull := false, isFail := false, ctx := { p.ctx with modelGen := t.modelGen }
        vec := deVec e, destBuf := deBuf e, beat := t.beat % 2 ^ 32, data := t.sram (linkField n) (deSrc e) (128 * deFlits e) }) := by
  subst ht
  have hlive := live_of_posOf hp hnull hfail
  show execDeparture n k s = _
  simp [execDeparture, he, hf, Nat.not_le.2 hn, hb, hl, hlive, hready, hrun, htab, hsram, hp, hnull, hfail]

end

/-! ### Scheduled frames -/

/-- The state in which a frame that the port keeps is looked at: its slot has come, and the link has received one more. -/
def frameTaken (s : State) (n slot : Nat) : State := (s.atSlot slot).updLnk n (fun l => { l with rcvd := l.rcvd + 1 })

/-- No drain has counted a frame for a buffer that no mark names. -/
theorem bufMark_find_none {l : List BufMark} {b v : Nat} (h : ∀ m ∈ l, m.buf ≠ b) :
    l.find? (fun m => !m.frame && m.fits b v) = none := by
  rw [List.find?_eq_none]
  intro m hm
  simp [BufMark.fits, h m hm]

/-- The guard of a scheduled frame lets one pass that comes over a link in service. -/
theorem schedFrame_guard (hl : (s.lnk n).state = .inService) (hn : n < 12) : ¬ ((s.lnk n).state ≠ .inService ∨ 12 ≤ n) :=
  fun h => h.elim (fun h => h hl) (Nat.not_le.2 hn)

section
variable {slot : Nat} {x : SchedFrame} (hl : (s.lnk n).state = .inService) (hn : n < 12)
include hl hn

/-- A frame's form alone decides whether the port of a link in service discards it. -/
theorem schedFrame_discarded {u : State} (hd : rxDiscard s n x.rx (40 + x.data.length) true = some u) :
    exec (.schedFrame n slot x) s = .next u := by
  show execSchedFrame n slot x s = _
  rw [execSchedFrame, if_neg (schedFrame_guard hl hn), hd]

variable (hd : rxDiscard s n x.rx (40 + x.data.length) true = none)
include hd

theorem schedFrame_misrouted (hdst : x.dst ≠ s.myId) :
    exec (.schedFrame n slot x) s = .next ((frameTaken s n slot).count Reg.fabRouteCnt_misroute 1) := by
  show execSchedFrame n slot x s = _
  rw [execSchedFrame, if_neg (schedFrame_guard hl hn), hd]
  exact if_pos hdst

variable (hdst : x.dst = s.myId)
include hdst

theorem schedFrame_crossHalf (hh : dieHalf x.src ≠ dieHalf s.myId) :
    exec (.schedFrame n slot x) s = .next ((frameTaken s n slot).count Reg.fabDenyCnt_crossHalf 1) := by
  show execSchedFrame n slot x s = _
  rw [execSchedFrame, if_neg (schedFrame_guard hl hn), hd]
  exact (if_neg (not_not_intro hdst)).trans (if_pos hh)

variable (hh : dieHalf x.src = dieHalf s.myId)
include hh

theorem schedFrame_bufBusy (hb : sget noFrame (frameTaken s n slot).sched.bufs (bufKey n (x.destBuf % 64)) ≠ none) :
    exec (.schedFrame n slot x) s = .next ((frameTaken s n slot).count (Reg.linkSched_bufBusy n) 1) := by
  show execSchedFrame n slot x s = _
  rw [execSchedFrame, if_neg (schedFrame_guard hl hn), hd]
  exact (if_neg (not_not_intro hdst)).trans ((if_neg (not_not_intro hh)).trans (if_pos (Option.isSome_iff_ne_none.2 hb)))

theorem schedFrame_stored (hb : sget noFrame (frameTaken s n slot).sched.bufs (bufKey n (x.destBuf % 64)) = none)
    (hm : ∀ m ∈ (frameTaken s n slot).sched.bufMark, m.buf ≠ bufKey n (x.destBuf % 64))
    (hdr : drainNear (frameTaken s n slot) n (x.destBuf % 64) slot = false) :
    exec (.schedFrame n slot x) s = .next (nextFrame (setBuf (frameTaken s n slot) (bufKey n (x.destBuf % 64))
      (some { fr := x, no := (frameTaken s n slot).sched.frames }))) := by
  show execSchedFrame n slot x s = _
  rw [execSchedFrame, if_neg (schedFrame_guard hl hn), hd]
  refine (if_neg (not_not_intro hdst)).trans ((if_neg (not_not_intro hh)).trans ((if_neg ?_).trans ?_))
  · exact fun h => Option.isSome_iff_ne_none.1 h hb
  · have hfind := bufMark_find_none (v := x.vec) hm
    unfold frameTaken at hfind hdr ⊢
    simp only [hfind, hdr]
    rfl

end
end

/-- Settles O38: the guards of the three rows, and for a frame that the port keeps the first check that decides about it. -/
theorem routersAndLinksComplete : Obligations.RoutersAndLinksComplete := by
  intro s f n k e
  refine ⟨fun late => routerEntry_ofThisBeat rfl, fun hf hn he hb => ⟨departure_unsent hf hn he hb,
    fun p => departure_live hf hn he hb rfl⟩, fun slot x hl hn => ⟨fun u => schedFrame_discarded hl hn, fun hd => ?_⟩⟩
  exact ⟨schedFrame_misrouted hl hn hd, schedFrame_crossHalf hl hn hd, schedFrame_bufBusy hl hn hd, schedFrame_stored hl hn hd⟩

end Sys2Proof.Machine
end

section
/-! Messages of managers and to them, where the die accepts them (R18, R19, R289, R374, R397, R409 to R414). -/

namespace Sys2Proof.Machine

section
variable {s : State}

/-- A die that hears messages has a running core and a link that is up. -/
theorem hears_iff : s.hears = true ↔ s.coreAwake = true ∧ s.anyLink = true := by
  rw [State.hears, Bool.and_eq_true]

/-! ### Alive messages and takeover (R18) -/

theorem managerAlive_accepted {src e t : Nat} (hh : s.hears = true) (hm : s.manager = some src) :
    exec (.managerAlive src e t) s = .next { s with mgr := { s.mgr with lastAlive := s.ns } } :=
  if_pos (by simp [hh, hm])

theorem managerAliveSend_primary {t : TopoMap} (hc : s.coreAwake = true) (ht : s.sec.map = some t) (hr : s.fld Reg.secRole_role = 1)
    (hd : t.standby ≠ s.myId) : exec .managerAliveSend s = .next (s.sendCtrl t.standby (aliveBytes s)) := by
  show execManagerAliveSend s = _
  simp [execManagerAliveSend, ht, hc, hr, hd]

theorem standbyTakeover_ready {t : TopoMap} (hc : s.coreAwake = true) (ht : s.sec.takeover = some t) (hr : s.fld Reg.secRole_role = 2)
    (hy : s.fld Reg.secStatus_takeoverReady = 1) (hk : s.mgr.took = false) (hl : s.mgr.lastAlive + 5000000 ≤ s.ns) :
    exec .standbyTakeover s = .next { awaitMap (sendNotices s t) t none with
      mgr := { (awaitMap (sendNotices s t) t none).mgr with took := true }
      seqs := { (awaitMap (sendNotices s t) t none).seqs with
        tenants := (awaitMap (sendNotices s t) t none).seqs.tenants.map (fun x => { x with level := 0, at0 := s.ns, answered := [] }) } } := by
  show execStandbyTakeover s = _
  simp [execStandbyTakeover, ht, hc, hr, hy, hk, hl]

/-! ### Maps (R409 to R414) -/

theorem mapNotice_preferred {src e len a : Nat} {dg : List Byte} (hh : s.hears = true) (hn : s.sec.mapRead = none) (hp : s.prefers e src = true) :
    exec (.mapNotice src e len a dg) s =
      .next (pumpAll (mapLoad { s with sec := { s.sec with mapRead := some (src, e, len, a, dg), mapBytes := [] } })) :=
  if_pos (by simp [hh, hn, hp])

theorem mapNoticeResend_signer {t : TopoMap} (hc : s.coreAwake = true) (ht : s.sec.map = some t) (hs : t.signer = s.myId)
    (hm : s.fld Reg.secRole_manager = 1) : exec .mapNoticeResend s = .next (sendNotices s t) := by
  show execMapNoticeResend s = _
  simp [execMapNoticeResend, ht, hc, hs, hm]

theorem takeoverMapReady_signed {t : TopoMap} (hc : s.coreAwake = true) (ht : s.sec.takeover = some t)
    (hy : s.fld Reg.secStatus_takeoverReady = 0) :
    exec .takeoverMapReady s = .next ((writeSignedMap s t).setFld Reg.secStatus_takeoverReady 1) := by
  show execTakeoverMapReady s = _
  simp [execTakeoverMapReady, ht, hc, hy]

theorem mapPublishSigned_preferred {t : TopoMap} {j} {l} (hc : s.coreAwake = true) (hs : s.sec.mapSign = (t, j) :: l)
    (hr : s.rangePresent (fabLocal t.addr) t.len = true) (hp : s.prefers t.epoch t.signer = true) :
    exec .mapPublishSigned s = .next (awaitMap (sendNotices (writeSignedMap { s with sec := { s.sec with mapSign := l } } t) t) t j) := by
  show execMapPublishSigned s = _
  simp [execMapPublishSigned, hs, hc, hr, hp]

/-! ### Reports -/

theorem healthReport_rackTable {src : Nat} {p : List Byte} (hh : s.hears = true) (hm : s.fld Reg.secRole_manager = 1)
    (hf : s.fld Reg.blockEnMisc_fault = 1) (hd : src / 256 = s.myId / 256) (ha : region (healthAddr s src) = 0)
    (hr : s.rangePresent (healthAddr s src) 64 = true) :
    exec (.healthReport src p) s = .next (s.write (healthAddr s src) (slice p 0 56 ++ leBytes 8 s.ns)) := by
  obtain ⟨hc, hl⟩ := hears_iff.1 hh
  show Host.Outcome.next (if s.anyLink then takeReport s src p else s) = _
  simp [hl, takeReport, hc, hm, hf, hd, ha, hr]

end

/-- Settles O55: each message or event meets its handler's guard, which is all that stands before its effect. -/
theorem managerEventsComplete : Obligations.ManagerEventsComplete := by
  intro s
  refine ⟨fun _ _ _ => managerAlive_accepted, fun _ => managerAliveSend_primary, fun _ => standbyTakeover_ready, fun _ _ _ _ _ => mapNotice_preferred,
    fun _ => mapNoticeResend_signer, fun t j hc ht => ?_, fun _ => takeoverMapReady_signed, fun _ _ _ => mapPublishSigned_preferred,
    fun src k n u hh hm hr => ?_, fun src k n u hh hm => ?_, fun src sv c n hh he => ?_, fun _ _ => healthReport_rackTable⟩
  · -- MAP_OBEY
    show execMapObey s = _
    simp only [execMapObey, ht, hc, Bool.not_true, Bool.false_eq_true, if_false, decide_eq_true_eq]
  · -- BUDGET_REQ
    exact if_pos (by simp [hh, hm, hr])
  · -- BUDGET_GRANT
    exact if_pos (by simp [hh, hm])
  · -- SHED_REPORT
    exact if_pos (by simp [hh, he])

end Sys2Proof.Machine
end

section
/-! Accesses that cross the mesh and frames that arrive from the fabric: host accesses over U4 (R25, R309), word operations of
other dies (R201, R212 to R216), and copies, page parts, answers, timeouts and frames in transit (R196, R199, R202, R208, R214,
R218, R220, R221, R328, R390). -/

namespace Sys2Proof.Machine

section
variable {s t : State} {f g a len : Nat} {y : Bool}

/-! ### Routes over the mesh (R25)

A route leaves at most ALT_USED of its source router, so the memory that it leads to, with the data that reads as
uncorrectable, is the memory of before. -/

theorem noteRoute_eq (s : State) (f : Nat) (y : Bool) :
    noteRoute s f y = s ∨ noteRoute s f y = s.setFld (Reg.routerStat_altUsed f) 1 := by
  cases y
  · exact .inl rfl
  · exact .inr rfl

@[simp] theorem read_noteRoute : (noteRoute s f y).read a len = s.read a len := by
  rw [State.read, mem_noteRoute rfl, State.read]

@[simp] theorem ueIn_noteRoute : (noteRoute s f y).ueIn a len = s.ueIn a len := by
  cases y <;> rfl

@[simp] theorem uePartial_noteRoute : (noteRoute s f y).uePartial a len = s.uePartial a len := by
  cases y <;> rfl

theorem crossMesh_eq_some (h : crossMesh s f g = some t) : ∃ y, t = noteRoute s f y := by
  obtain ⟨y, _, rfl⟩ := Option.map_eq_some_iff.1 h
  exact ⟨y, rfl⟩

theorem meshTo_eq_some (h : meshTo s f a = some t) : ∃ y, t = noteRoute s f y := by
  obtain ⟨g, _, hg⟩ := Option.bind_eq_some_iff.1 h
  exact crossMesh_eq_some hg

/-- The way of an access is what `State.reach` says of it, noted at its source router. -/
theorem meshTo_of_reach (h : s.reach f a = some y) : meshTo s f a = some (noteRoute s f y) := by
  obtain ⟨g, hg, hy⟩ := Option.bind_eq_some_iff.1 h
  exact Option.bind_eq_some_iff.2 ⟨g, hg, Option.map_eq_some_iff.2 ⟨y, hy, rfl⟩⟩

end

/-! ### Host accesses over U4 (R309) -/

section
variable {s t : State} {tag addr len : Nat} {d : List Byte} (hs : s.dieState ≠ .off)
include hs

theorem u4Rd_memory (hf : u4Fault addr len false = none) (hr : region addr ≠ 2) (hp : s.rangePresent addr len = true)
    (hm : meshTo s hostField addr = some t) (hu : s.ueIn addr len = false) :
    exec (.u4Rd tag len addr) s = .next (rdResp t tag 0 addr (s.read addr len)) := by
  obtain ⟨y, rfl⟩ := meshTo_eq_some hm
  show execU4Rd tag len addr s = _
  simp [execU4Rd, hs, hf, hr, hp, hm, hu]

theorem u4Rd_csr (hf : u4Fault addr len false = none) (hr : region addr = 2) (hm : crossMesh s hostField coreField = some t) :
    exec (.u4Rd tag len addr) s =
      .next (rdResp (csrRead t (csrOff addr) (len / 4)).1 tag 0 addr (csrRead t (csrOff addr) (len / 4)).2) := by
  show execU4Rd tag len addr s = _
  simp [execU4Rd, hs, hf, hr, hm]

theorem u4Wr_memory (hf : u4Fault addr d.length true = none) (hr : region addr ≠ 2) (hg : s.protHit [0, 1] addr d.length = false)
    (hp : s.rangePresent addr d.length = true) (hm : meshTo s hostField addr = some t) (hu : s.uePartial addr d.length = false) :
    exec (.u4Wr tag addr d) s = .next (wrResp (t.write addr d) tag 0 addr) := by
  obtain ⟨y, rfl⟩ := meshTo_eq_some hm
  show execU4Wr tag addr d s = _
  simp [execU4Wr, hs, hf, hr, hg, hp, hm, hu]

theorem u4Wr_csr (hf : u4Fault addr d.length true = none) (hr : region addr = 2) (h7 : isMbx7 (csrOff addr) = false)
    (hm : crossMesh s hostField coreField = some t) :
    exec (.u4Wr tag addr d) s = .next (wrResp (csrWriteAll t (csrOff addr) d none (d.length / 4)) tag 0 addr) := by
  show execU4Wr tag addr d s = _
  simp [execU4Wr, hs, hf, hr, h7, hm]

end

/-- Settles O28: no check stands in the way of a legal access, and its route changes nothing that the access reads. -/
theorem u4AccessesComplete : Obligations.U4AccessesComplete := by
  intro s tag addr hs
  refine ⟨fun len t => u4Rd_memory hs, fun len t => u4Rd_csr hs, fun d t => u4Wr_memory hs, fun d t => u4Wr_csr hs, fun t ht => ?_⟩
  obtain ⟨y, rfl⟩ : ∃ y, t = noteRoute s hostField y := ht.elim meshTo_eq_some crossMesh_eq_some
  exact noteRoute_eq s hostField y

/-! ### Requests that come to this die (R196, R209, R220) -/

section
variable {s : State} {n op : Nat} {r : ReqHdr} {d : List Byte} {y : Bool}

/-- The guard of every frame's handler lets a link in use pass. -/
theorem frame_guard (hn : n < 12) (hl : s.linkUp n = true) : ¬ (!(decide (n < 12) && s.linkUp n)) = true := by
  simp [hn, hl]

/-- A frame from a die of the same half crosses nothing. -/
theorem crossBad_sameHalf {typ src first : Nat} (h : dieHalf src = dieHalf s.myId) : crossBad s typ src first = false := by
  simp [crossBad, h]

/-- A KVX request or answer may cross the halves (R220). -/
theorem crossBad_kvx {typ src : Nat} (h : typ = 3 ∨ typ = 4) : crossBad s typ src 6 = false := by
  obtain rfl | rfl := h <;> simp [crossBad]

/-- A request for this die that its form and R220 let in is this die's to answer. -/
theorem reqFrame_mine {body : State → State} (hn : n < 12) (hl : s.linkUp n = true) (hd : rxDiscard s n r.rx (64 + d.length) false = none)
    (hc : crossBad s 3 r.src r.op = false) (hdst : r.dst = s.myId) : reqFrame s n r d body = body s := by
  rw [reqFrame, if_neg (frame_guard hn hl), hd]
  simp [hc, hdst]

theorem reqFrame_received {body : State → State} (h : s.receives n r.rx r.src r.dst (64 + d.length)) :
    reqFrame s n r d body = body s := by
  obtain ⟨hn, hl, hdst, hh, hd⟩ := h
  exact reqFrame_mine hn hl hd (crossBad_sameHalf hh) hdst

/-! ### Word operations (R201, R212 to R216) -/

/-- What LOAD (1), STORE (2), FAA64 (3) and CAS64 (4) do to memory that they reach, with their answers. -/
def wordDone (t : State) (op a len opnd1 opnd2 : Nat) (data : List Byte) : State × Ans :=
  let old := leNat (t.read a 8)
  if op = 1 then (t, { status := 0, len := len, data := t.read a len })
  else if op = 2 then (t.write a (slice data 0 len), { status := 0 })
  else (t.write a (leBytes 8 (if op = 3 then (old + opnd1) % 2 ^ 64 else if old = opnd1 then opnd2 else old)), { status := 0, old := old })

/-- Every operation that is done is answered OK. -/
theorem wordDone_status {t : State} {a len opnd1 opnd2 : Nat} : (wordDone t op a len opnd1 opnd2 d).2.status = 0 := by
  unfold wordDone
  split
  · rfl
  · split <;> rfl

/-- An operation of Table 10.6 is not a reserved one. -/
theorem not_reserved_op (h1 : 1 ≤ op) (h6 : op ≤ 6) : ¬ (op = 0 ∨ 6 < op) := by omega

section
variable (h : s.takesReq n op r d.length y) (h1 : 1 ≤ op) (h4 : op ≤ 4)
include h h1 h4

/-- A word operation that passes every check is done, in the memory that its route leads to. -/
theorem applyWord_taken : applyWord s (linkField n) r.src op (fabLocal r.addr) r.len r.opnd1 r.opnd2 r.issueBeat d =
    wordDone (noteRoute s (linkField n) y) op (fabLocal r.addr) r.len r.opnd1 r.opnd2 d := by
  obtain ⟨_, _, _, hen, hbad, hreg, hlate, hprot, hpres, hreach, hue, hpart⟩ := h
  have hr3 : region (fabLocal r.addr) ≠ 3 := by omega
  have hr2 : region (fabLocal r.addr) ≠ 2 := by omega
  have hprot' : ¬ (op ≠ 1 ∧ s.protHit (List.range 16) (fabLocal r.addr) (opLen op r.len) = true) := fun ⟨ho, hp⟩ => by simp [hprot ho] at hp
  have hop : op = 1 ∨ op = 2 ∨ op = 3 ∨ op = 4 := by omega
  simp only [applyWord, hen, hbad, hr3, hr2, hlate, hprot', hpres, meshTo_of_reach hreach, Nat.not_lt.2 h4, ueIn_noteRoute, uePartial_noteRoute]
  obtain rfl | rfl | h34 := hop
  · -- LOAD
    have hlen : opLen 1 r.len = r.len := rfl
    rw [hlen] at hue
    simp [wordDone, hlen, hue]
  · -- STORE
    have hlen : opLen 2 r.len = r.len := rfl
    rw [hlen] at hpart
    simp [wordDone, hlen, hpart]
  · -- FAA64, CAS64
    have h8 : opLen op r.len = 8 := if_pos h34
    have hn1 : op ≠ 1 := by omega
    have hn2 : op ≠ 2 := by omega
    rw [h8] at hue
    simp [wordDone, hn1, hn2, hue]

/-- A word operation that passes every check is done and answered from the field of its memory (R25, R201). -/
theorem reqWord_taken : reqWord s n op r d =
    let x := wordDone (noteRoute s (linkField n) y) op (fabLocal r.addr) r.len r.opnd1 r.opnd2 d
    respond10 x.1 (s.answerField (linkField n) (fabLocal r.addr)) r x.2 := by
  have happ := applyWord_taken h h1 h4
  obtain ⟨hrecv, hop, hdie, -⟩ := h
  have hres : ¬ (op = 0 ∨ 6 < op) := not_reserved_op h1 (by omega)
  rw [reqWord, reqFrame_received hrecv]
  simp [hres, hop, hdie, happ, wordDone_status]

end
end

/-- Settles O47: the four operations are `wordDone`, whose reads see the memory of before the route was noted. -/
theorem remoteOperationsComplete : Obligations.RemoteOperationsComplete := by
  intro s n r y _
  refine ⟨fun h => ?_, fun d h => ?_, fun h => ?_, fun h => ?_⟩
  · show Host.Outcome.next (reqWord s n 1 r []) = _
    simp [reqWord_taken (d := []) h (by decide) (by decide), wordDone]
  · show Host.Outcome.next (reqWord s n 2 r d) = _
    simp [reqWord_taken h (by decide) (by decide), wordDone]
  · show Host.Outcome.next (reqWord s n 3 r []) = _
    simp [reqWord_taken (d := []) h (by decide) (by decide), wordDone]
  · show Host.Outcome.next (reqWord s n 4 r []) = _
    simp [reqWord_taken (d := []) h (by decide) (by decide), wordDone]

section
variable {s : State} {n : Nat}

/-! ### Copies and page parts (R214, R221, R328) -/

theorem reqCopyKvx_started {op : Nat} {r : ReqHdr} (h : s.receives n r.rx r.src r.dst 64) (hr : copyRefused s r = none) (hop : r.op = op)
    (h1 : 1 ≤ op) (h6 : op ≤ 6) : reqCopyKvx s n op r = startCopy s n r := by
  have hres : ¬ (op = 0 ∨ 6 < op) := not_reserved_op h1 h6
  rw [reqCopyKvx, reqFrame_received (d := []) h]
  simp [hres, hop, hr]

theorem copyComplete_done {src tag : Nat} {c : CopyRun} (hc : s.fab.copies.find? (fun c => c.hdr.src == src && c.hdr.tag == tag) = some c)
    (hl : c.left = 0) :
    let t := { s with fab := { s.fab with copies := s.fab.copies.filter (fun x => !(x.hdr.src == src && x.hdr.tag == tag)) } }
    exec (.copyComplete src tag) s = .next (if src = s.myId then pumpAll (answerTag t tag c.ans) else respond10 t coreField c.hdr c.ans) := by
  show execCopyComplete src tag s = _
  simp only [execCopyComplete, hc, hl, ne_eq, not_true, if_false]
  split <;> rfl

theorem kvxPartWrite_applied {r : ReqHdr} {d : List Byte} {k : KvRange} {t : State} (hn : n < 12) (hl : s.linkUp n = true)
    (hdst : r.dst = s.myId) (hop : r.op = 6) (hen : s.fld Reg.fabCfg_en = 1) (hd : rxDiscard s n r.rx (64 + d.length) false = none)
    (hprot : s.protHit (List.range 16) (fabLocal r.addr) d.length = false) (hk : rangeFor s (fabLocal r.addr) d.length = some k)
    (hp : s.rangePresent (fabLocal r.addr) d.length = true) (hm : meshTo s (linkField n) (fabLocal r.addr) = some t)
    (hu : t.uePartial (fabLocal r.addr) d.length = false) :
    exec (.kvxPartWrite n r d) s = .next (respond10 (applyPart t k (fabLocal r.addr) d) (t.answerField (linkField n) (fabLocal r.addr)) r
      { status := 0, len := d.length }) := by
  have hc : crossBad s 3 r.src r.op = false := by rw [hop]; exact crossBad_kvx (.inl rfl)
  show execKvxPartWrite n r d s = _
  rw [execKvxPartWrite, reqFrame_mine hn hl hd hc hdst]
  simp [hop, hen, hprot, hk, hp, hm, hu]

/-! ### Answers and timeouts (R202, R218, R390) -/

section
variable {r : RespHdr} {d : List Byte} (h : s.receives n r.rx r.src r.dst (48 + d.length))
include h

theorem respFrame_current (hg : r.dgen % 65536 = s.ev.hdr.dieGen % 65536) :
    exec (.respFrame n r d) s = .next (pumpAll (answerTag s r.tag { status := r.status, len := r.len, old := r.old, data := d })) := by
  obtain ⟨hn, hl, hdst, hh, hd⟩ := h
  show execRespFrame n r d s = _
  rw [execRespFrame, if_neg (frame_guard hn hl), hd]
  simp [crossBad_sameHalf hh, hdst, hg]

theorem respFrame_stale (hg : r.dgen % 65536 ≠ s.ev.hdr.dieGen % 65536) :
    exec (.respFrame n r d) s = .next (s.count Reg.staleDrop_drops 1) := by
  obtain ⟨hn, hl, hdst, hh, hd⟩ := h
  show execRespFrame n r d s = _
  rw [execRespFrame, if_neg (frame_guard hn hl), hd]
  simp [crossBad_sameHalf hh, hdst, hg]

end

theorem reqTimeout_due {tag : Nat} {q : OutReq} (hq : s.fab.reqs.find? (fun r => r.tag == tag) = some q)
    (hb : q.issue + s.reqTimeout ≤ s.beat) :
    exec (.reqTimeout tag) s = .next (pumpAll (answerTag (s.count Reg.fabReqCnt_timeout 1) tag { status := 8 })) := by
  show execReqTimeout tag s = _
  simp [execReqTimeout, hq, Nat.not_lt.2 hb]

/-! ### Frames for other dies (R196, R199, R200, R208, R220) -/

section
variable {f : TransitHdr} (hn : n < 12) (hl : s.linkUp n = true)
include hn hl

theorem transitFrame_discarded {u : State} (hd : rxDiscard s n f.rx (16 + f.body.length) (f.typ == 1) = some u) :
    exec (.transitFrame n f) s = .next u := by
  show execTransitFrame n f s = _
  rw [execTransitFrame, if_neg (frame_guard hn hl), hd]

variable (hd : rxDiscard s n f.rx (16 + f.body.length) (f.typ == 1) = none)
include hd

theorem transitFrame_reservedType (ht : f.typ = 0 ∨ 4 < f.typ) : exec (.transitFrame n f) s = .next (s.count Reg.fabRxCnt_rxBad 1) := by
  show execTransitFrame n f s = _
  rw [execTransitFrame, if_neg (frame_guard hn hl), hd]
  exact if_pos ht

theorem transitFrame_reservedKind (ht : f.typ = 2) (hk : ctrlReserved (fieldAt f.body 0 1) = true) :
    exec (.transitFrame n f) s = .next (s.count Reg.fabRxCnt_rxBad 1) := by
  show execTransitFrame n f s = _
  rw [execTransitFrame, if_neg (frame_guard hn hl), hd]
  simp [ht, hk]

/-- A frame of a type and kind of Tables 10.2 and 10.3 is not discarded for them. -/
theorem transitFrame_known (h1 : 1 ≤ f.typ) (h4 : f.typ ≤ 4) (hk : f.typ = 2 → ctrlReserved (fieldAt f.body 0 1) = false) :
    exec (.transitFrame n f) s = .next (
      if crossBad s f.typ f.src (fieldAt f.body 0 1) = true then s.count Reg.fabDenyCnt_crossHalf 1
      else if f.dst = s.myId then s else transit s n f) := by
  have ht : ¬ (f.typ = 0 ∨ 4 < f.typ) := by omega
  have hk' : ¬ (f.typ = 2 ∧ ctrlReserved (fieldAt f.body 0 1) = true) := fun ⟨h2, hr⟩ => by simp [hk h2] at hr
  show execTransitFrame n f s = _
  rw [execTransitFrame, if_neg (frame_guard hn hl), hd]
  simp only [ht, hk', if_false, ← apply_ite Host.Outcome.next]

end
end

/-- Settles O48: each command or frame meets its handler's guards, and of a frame in transit the first check that fails decides. -/
theorem fabricEventsComplete : Obligations.FabricEventsComplete := by
  intro s n
  refine ⟨fun r h hr => ⟨fun hop => ?_, fun hop => ?_⟩, fun _ _ _ => copyComplete_done, fun _ _ _ _ => kvxPartWrite_applied,
    fun _ _ h => ⟨respFrame_current h, respFrame_stale h⟩, fun _ _ => reqTimeout_due, fun f hn hl => ⟨fun _ => transitFrame_discarded hn hl,
    fun hd => ⟨transitFrame_reservedType hn hl hd, transitFrame_reservedKind hn hl hd, fun h1 h4 hk => ⟨fun hc => ?_, fun hc hdst => ?_⟩⟩⟩⟩
  · exact congrArg (fun t => Host.Outcome.next (pumpAll t)) (reqCopyKvx_started h hr hop (by decide) (by decide))
  · exact congrArg (fun t => Host.Outcome.next (pumpAll t)) (reqCopyKvx_started h hr hop (by decide) (by decide))
  · rw [transitFrame_known hn hl hd h1 h4 hk, if_pos hc]
  · rw [transitFrame_known hn hl hd h1 h4 hk, if_neg (Bool.eq_false_iff.1 hc), if_neg hdst]

end Sys2Proof.Machine
end

section
/-! The converter's transfer function (R44), the parts of a split plane (R49, R50), and the events of a tile: drives, S slots,
re-runs and the range loop (R47 to R52, R59, R98, R99, R156). -/

namespace Sys2Proof.Machine

/-! ### The converter (R44)

Code and SAT depend on the ratio of `num` and `den` alone and are odd in `num`, so the rounding is looked at for a sum that
is not negative. -/

theorem roundCode_natCast (mag den : Nat) : roundCode (mag : Int) den =
    if 255 * den ≤ 2 * mag then (127, true) else ((((2 * mag + den) / (2 * den) : Nat) : Int), false) := by
  simp [roundCode, Int.not_lt.2 (Int.natCast_nonneg mag)]

theorem roundCode_neg {num : Int} {den : Nat} (hden : 0 < den) :
    roundCode (-num) den = (-(roundCode num den).1, (roundCode num den).2) := by
  rcases Int.lt_trichotomy num 0 with h | rfl | h
  · have hneg : ¬ -num < 0 := by omega
    simp only [roundCode, Int.natAbs_neg, if_pos h, if_neg hneg]
    split <;> simp
  · have hdiv : den / (2 * den) = 0 := Nat.div_eq_of_lt (by omega)
    have hsat : ¬ 255 * den ≤ 0 := by omega
    simp only [roundCode, Int.neg_zero, Int.natAbs_zero, Nat.mul_zero, Nat.zero_add, hdiv, if_neg hsat, if_neg (Int.lt_irrefl 0)]
    rfl
  · have hneg : -num < 0 := by omega
    have hpos : ¬ num < 0 := by omega
    simp only [roundCode, Int.natAbs_neg, if_pos hneg, if_neg hpos]
    split <;> rfl

/-- Equal factors of the sum and the LSB change nothing. -/
theorem roundCode_mul_right {num : Int} {den k : Nat} (hk : 0 < k) : roundCode (num * k) (den * k) = roundCode num den := by
  have hk' : (0 : Int) < k := by exact_mod_cast hk
  have hmag : (num * k).natAbs = num.natAbs * k := by rw [Int.natAbs_mul, Int.natAbs_natCast]
  have hsat : 255 * (den * k) ≤ 2 * (num.natAbs * k) ↔ 255 * den ≤ 2 * num.natAbs := by
    rw [← Nat.mul_assoc, ← Nat.mul_assoc]; exact Nat.mul_le_mul_right_iff hk
  have hdiv : (2 * (num.natAbs * k) + den * k) / (2 * (den * k)) = (2 * num.natAbs + den) / (2 * den) := by
    rw [← Nat.mul_assoc, ← Nat.mul_assoc, ← Nat.add_mul, Nat.mul_div_mul_right _ _ hk]
  have hsign : num * k < 0 ↔ num < 0 := by
    rw [← Int.mul_lt_mul_right hk' (b := num), Int.zero_mul]
  simp only [roundCode, hmag, hsat, hdiv, hsign]

/-- Without an error term the converter rounds 4 × sum over 15 × 2^RANGE. -/
theorem convert_zero_err (range : Nat) (sum : Int) : convert range sum 0 = roundCode (4 * sum) (15 * 2 ^ range) := by
  rw [convert, Int.zero_mul, Int.add_zero]
  exact roundCode_mul_right (k := 65536) (by decide)

/-- The rounding of a sum that is not negative: 127 with SAT from 127.5 on, and below it the nearest code, halves up. -/
theorem roundCode_natCast_spec {mag den : Nat} (hden : 0 < den) :
    (roundCode (mag : Int) den = (127, true) ∧ 255 * den ≤ 2 * mag) ∨
    ∃ c : Nat, roundCode (mag : Int) den = ((c : Int), false) ∧ 2 * mag < 255 * den ∧ c ≤ 127 ∧
      2 * (c * den) ≤ 2 * mag + den ∧ 2 * mag + den < 2 * (c * den + den) := by
  rw [roundCode_natCast]
  by_cases h : 255 * den ≤ 2 * mag
  · exact .inl ⟨if_pos h, h⟩
  · have h2 : 0 < 2 * den := by omega
    refine .inr ⟨_, if_neg h, Nat.lt_of_not_le h, ?_, ?_, ?_⟩
    · exact Nat.le_of_lt_succ ((Nat.div_lt_iff_lt_mul h2).2 (by omega))
    · rw [Nat.mul_left_comm]
      exact Nat.div_mul_le_self _ _
    · rw [← Nat.add_one_mul, Nat.mul_left_comm]
      exact (Nat.div_lt_iff_lt_mul h2).1 (Nat.lt_succ_self _)

/-- Settles O39: by the oddness of the rounding the sum is a natural number or the negative of one, and for that the code is
SAT's, where the clauses speak of no product but 255 LSB, or the quotient, which the two bounds hold to the nearest integer. -/
theorem converterRoundsAndSaturates : Obligations.ConverterRoundsAndSaturates := by
  intro range sum
  rw [convert_zero_err]
  have hden : 0 < 15 * 2 ^ range := Nat.mul_pos (by decide) (Nat.two_pow_pos range)
  generalize 15 * 2 ^ range = den at hden ⊢
  intro u r
  rcases Int.lt_or_le sum 0 with hsum | hsum
  · obtain ⟨m, rfl⟩ := Int.exists_eq_neg_ofNat (Int.le_of_lt hsum)
    have hr : r = (-(roundCode ((4 * m : Nat) : Int) den).1, (roundCode ((4 * m : Nat) : Int) den).2) := by
      rw [← roundCode_neg hden, Int.natCast_mul, ← Int.mul_neg]; rfl
    obtain ⟨h, hsat⟩ | ⟨c, h, hsat, hc, hlo, hhi⟩ := roundCode_natCast_spec (mag := 4 * m) hden
    · rw [h] at hr
      simp only [hr]
      exact ⟨by decide, ⟨fun _ => by omega, fun _ => trivial⟩, fun _ => by omega, fun _ => trivial, nofun, nofun⟩
    · rw [h] at hr
      simp only [hr, u, Int.mul_assoc, Int.sub_mul, Int.neg_mul, Int.one_mul]
      exact ⟨by omega, ⟨nofun, by omega⟩, by omega, by omega, by omega, by omega⟩
  · obtain ⟨m, rfl⟩ := Int.eq_ofNat_of_zero_le hsum
    have hr : r = roundCode ((4 * m : Nat) : Int) den := by rw [Int.natCast_mul]; rfl
    obtain ⟨h, hsat⟩ | ⟨c, h, hsat, hc, hlo, hhi⟩ := roundCode_natCast_spec (mag := 4 * m) hden
    · rw [h] at hr
      simp only [hr]
      exact ⟨by decide, ⟨fun _ => by omega, fun _ => trivial⟩, fun _ => trivial, fun _ => by omega, nofun, nofun⟩
    · rw [h] at hr
      simp only [hr, u, Int.mul_assoc, Int.add_mul, Int.one_mul]
      exact ⟨by omega, ⟨nofun, by omega⟩, by omega, by omega, by omega, by omega⟩

/-! ### Parts of a split plane (R50) -/

/-- Consecutive pieces of a list between rising bounds make up what lies below the last bound. -/
theorem flatMap_pieces {α : Type} (l : List α) {b : Nat → Nat} (h0 : b 0 = 0) (hb : ∀ j, b j ≤ b (j + 1)) (k : Nat) :
    (List.range k).flatMap (fun j => (l.drop (b j)).take (b (j + 1) - b j)) = l.take (b k) := by
  induction k with
  | zero => simp [h0]
  | succ k ih =>
    rw [List.range_succ, List.flatMap_append, ih, List.flatMap_singleton, ← List.take_add, Nat.add_sub_cancel' (hb k)]

theorem length_part {α : Type} {l : List α} {lvl j : Nat} (hj : j < 2 ^ lvl) :
    (part l lvl j).length = (j + 1) * l.length / 2 ^ lvl - j * l.length / 2 ^ lvl := by
  have hhi : (j + 1) * l.length / 2 ^ lvl ≤ l.length := Nat.div_le_of_le_mul (Nat.mul_le_mul_right _ hj)
  rw [part, List.length_take, List.length_drop]
  omega

/-- Settles O40: the parts are the pieces between the bounds j × n / 2^L, of which the last is n; and a bound is followed by
one that lies n / 2^L, or one more, above it. -/
theorem partsDivideTheRows : Obligations.PartsDivideTheRows := by
  intro l lvl
  have hpos : 0 < 2 ^ lvl := Nat.two_pow_pos lvl
  refine ⟨?_, fun j hj => ?_⟩
  · have hbounds : ∀ j, j * l.length / 2 ^ lvl ≤ (j + 1) * l.length / 2 ^ lvl :=
      fun j => Nat.div_le_div_right (Nat.mul_le_mul_right _ (Nat.le_succ j))
    have h := flatMap_pieces l (b := fun j => j * l.length / 2 ^ lvl) (by simp) hbounds (2 ^ lvl)
    rwa [Nat.mul_div_cancel_left _ hpos, List.take_length] at h
  · rw [length_part hj, Nat.add_mul, Nat.one_mul, Nat.add_div hpos, Nat.add_assoc, Nat.add_sub_cancel_left]
    split
    · exact ⟨Nat.le_succ _, Nat.le_refl _⟩
    · exact ⟨Nat.le_refl _, Nat.le_succ _⟩

/-! ### Drives of a tile (R49 to R52, R59, R156) -/

section
variable {s : State} {tile slot : Nat} {err : List Int}

/-- While the die fires, the guard of a tile's drives lets each of its tiles and slots pass. -/
theorem drive_guard (hf : s.firing = true) (ht : tile < 8192) (hs : slot < 64) :
    ¬ (!s.firing || decide (8192 ≤ tile) || decide (64 ≤ slot)) = true := by
  simp [hf, ht, hs]

/-- The drive of a live position, in a field that runs, whose generation agrees, whose tables read well and whose planes came
in time is the drive proper. -/
theorem tileDrive_drives {e p : Nat} {x : Scan} {g : State} (hf : s.firing = true) (ht : tile < 8192) (hs : slot < 64)
    (he : s.entryAt tile (s.stepSlot (tileField tile) slot) = some e) (hop : seOp e = 1)
    (hlive : (s.atSlot slot).live (tileField tile) (seVec e) = true) (hrun : (s.atSlot slot).fieldRuns (tileField tile) = true)
    (hg : g = genCheck (s.atSlot slot) (tileField tile) (seVec e) (seUidx e)) (hlive' : g.live (tileField tile) (seVec e) = true)
    (hfault : entryFault g (tileField tile) (seVec e) 3 tile 8 ((g.slotEntries tile).idxOf e) (seUidx e) = none)
    (hret : (g.tile tile).live.retired = false) (hx : g.scan (tileField tile) (seVec e) = some x) (hp : x.planes = some p)
    (hq : p + 2 ≤ s.stepSlot (tileField tile) slot) :
    exec (.tileDrive tile slot err) s =
      .next (drivePlane g (tileField tile) tile (s.stepSlot (tileField tile) slot) e x err) := by
  subst hg
  show execTileDrive tile slot err s = _
  rw [execTileDrive, if_neg (drive_guard hf ht hs), he]
  simp only [hop, hlive, hrun, hlive', hfault, hret, hx, hp, hq, ne_eq, not_true, Bool.not_true, Bool.false_eq_true, if_false, if_true]

section
variable {r : SRes} (hf : s.firing = true) (ht : tile < 8192) (hs : slot < 64)
  (hr : (s.tile tile).res.find? (fun r => r.slot == s.stepSlot (tileField tile) slot) = some r)
  (hlive : (s.atSlot slot).live (tileField tile) r.vec = true)
include hf ht hs hr hlive

theorem sSlotDrive_fieldDown (hrun : (s.atSlot slot).fieldRuns (tileField tile) = false) :
    exec (.sSlotDrive tile slot err) s = .next (fieldDown (s.atSlot slot) (tileField tile) r.vec) := by
  show execSSlotDrive tile slot err s = _
  rw [execSSlotDrive, if_neg (drive_guard hf ht hs), hr]
  simp only [hlive, hrun, Bool.not_true, Bool.not_false, Bool.false_eq_true, if_false, if_true]

theorem sSlotDrive_drives {g : State} (hrun : (s.atSlot slot).fieldRuns (tileField tile) = true) (hre : r.rerun = false)
    (hrows : r.rows ≠ [])
    (hg : g = (s.atSlot slot).updTile tile (fun y => { y with res := y.res.filter (fun a => a.slot != s.stepSlot (tileField tile) slot) }))
    (hret : (g.tile tile).live.retired = false) :
    exec (.sSlotDrive tile slot err) s = .next (drivePart
      (g.count (if r.react then Reg.splitCnt_reactive tile else Reg.splitCnt_preEmptive tile) 1)
      (tileField tile) tile (s.stepSlot (tileField tile) slot) r err) := by
  subst hg
  have hempty : r.rows.isEmpty = false := by rwa [Bool.eq_false_iff, ne_eq, List.isEmpty_iff]
  show execSSlotDrive tile slot err s = _
  rw [execSSlotDrive, if_neg (drive_guard hf ht hs), hr]
  simp only [hlive, hrun, hre, hempty, hret, Bool.not_true, Bool.false_eq_true, if_false]
  split <;> rfl

end

/-! ### The end of a re-run (R99) -/

/-- The state at the last reserved S slot of a re-run, with its shadow freed. -/
def shadowFreed (s : State) (tile slot : Nat) (h : Shadow) : State :=
  let t := s.atSlot slot
  { t with grid := { t.grid with shadows := t.grid.shadows.filter (fun x => !(x.tile == tile && x.vec == h.vec)) } }

section
variable {h : Shadow} (hh : s.grid.shadows.find? (fun h => h.tile == tile && h.last == s.stepSlot (tileField tile) slot) = some h)
include hh

theorem rerunCommit_notLive (hlive : (shadowFreed s tile slot h).live (tileField tile) h.vec = false) (b : Bool) :
    exec (.rerunCommit tile slot b) s = .next (shadowFreed s tile slot h) := by
  show execRerunCommit tile slot b s = _
  rw [execRerunCommit, hh]
  exact if_pos (congrArg not hlive)

variable (hlive : (shadowFreed s tile slot h).live (tileField tile) h.vec = true)
include hlive

theorem rerunCommit_fallback : exec (.rerunCommit tile slot false) s =
    .next ((addLanes (shadowFreed s tile slot h) (tileField tile) tile h.vec h.lanes).count (Reg.rerunFallback (tileField tile)) 1) := by
  have hguard : ¬ (!(shadowFreed s tile slot h).live (tileField tile) h.vec) = true := by simp [hlive]
  show execRerunCommit tile slot false s = _
  rw [execRerunCommit, hh]
  exact if_neg hguard

theorem rerunCommit_reference {g : State} {x : Scan} (hg : g = shadowFreed s tile slot h)
    (hx : g.scan (tileField tile) h.vec = some x) : exec (.rerunCommit tile slot true) s =
    .next ((addLanes g (tileField tile) tile h.vec (referenceAdds g (tileField tile) (g.imageAddr g.activeBase tile) x)).count
      (Reg.rerunCnt (tileField tile)) 1) := by
  subst hg
  have hguard : ¬ (!(shadowFreed s tile slot h).live (tileField tile) h.vec) = true := by simp [hlive]
  show execRerunCommit tile slot true s = _
  rw [execRerunCommit, hh]
  refine (if_neg hguard).trans ?_
  unfold shadowFreed at hx ⊢
  rw [hx]

end
end

/-! ### The range loop (R47, R48) -/

section
variable {s : State} {tile : Nat}

/-- The state in which a closed window shows in RANGE_WIN. -/
def rangeWinShown (s : State) (tile sat near : Nat) : State :=
  (s.setFld (Reg.rangeWin_satW tile) (min 0xFFFF sat)).setFld (Reg.rangeWin_nearW tile) (min 0xFFFF near)

/-- The range loop leaves a fixed range alone, steps up on saturation, down after enough fine windows, and otherwise counts. -/
theorem rangeWindowClose_decides {sat near : Nat} {more : List (Nat × Nat)} (hc : (s.tile tile).closed = (sat, near) :: more) :
    let g := rangeWinShown s tile sat near
    let target := g.fld (Reg.rangeLoopCfg_satTarget (tileField tile))
    let fine := if near ≤ target / 2 then (s.tile tile).fine + 1 else 0
    exec (.rangeWindowClose tile) s =
      if g.fld (Reg.tileCfg_rangeFixed tile) = 1 then .next (g.updTile tile (fun y => { y with closed := more }))
      else if target < sat ∧ g.rangeOf tile < g.fld (Reg.tileCfg_rangeMax tile) then
        .next (g.updTile tile (fun y => { y with closed := more, fine := 0, rangeNext := some (g.rangeOf tile + 1, s.beat) }))
      else if max 1 (g.fld (Reg.rangeLoopCfg_fineWindows (tileField tile))) ≤ fine ∧
          g.fld (Reg.tileCfg_rangeMin tile) < g.rangeOf tile then
        .next (g.updTile tile (fun y => { y with closed := more, fine := 0, rangeNext := some (g.rangeOf tile - 1, s.beat) }))
      else .next (g.updTile tile (fun y => { y with closed := more, fine := fine })) := by
  intro g target fine
  show execRangeWindowClose tile s = _
  rw [execRangeWindowClose, hc]
  rfl

/-- A decided range takes effect once the beat of its close has ended. -/
theorem rangeChange_due {r b : Nat} (hn : (s.tile tile).rangeNext = some (r, b)) (hb : b < s.beat) :
    exec (.rangeChange tile) s =
      .next ((s.setFld (Reg.tileStatus_rangeCur tile) r).updTile tile (fun y => { y with rangeNext := none })) := by
  show execRangeChange tile s = _
  rw [execRangeChange, hn]
  exact if_pos hb

end

/-- Settles O41: a drive meets its guards one after the other; a re-run's end and a window's close are the branches of their
rules. -/
theorem tileCommandsComplete : Obligations.TileCommandsComplete := by
  intro s tile slot err
  refine ⟨fun e x p hf ht hs he hop hlive hrun => tileDrive_drives hf ht hs he hop hlive hrun rfl, fun r hf ht hs hr hlive => ⟨?_, ?_⟩,
    fun h hh => ⟨rerunCommit_notLive hh, fun hlive => rerunCommit_fallback hh hlive, fun x hlive => rerunCommit_reference hh hlive rfl⟩,
    fun sat near more hc => ?_, fun r b => rangeChange_due⟩
  · exact sSlotDrive_fieldDown hf ht hs hr hlive
  · exact fun hrun hre hrows => sSlotDrive_drives hf ht hs hr hlive hrun hre hrows rfl
  · have hd := rangeWindowClose_decides hc
    exact ⟨fun hfix => hd.trans (if_pos hfix), fun hfix hup => hd.trans ((if_neg hfix).trans (if_pos hup)),
      fun hfix hup hdown => hd.trans ((if_neg hfix).trans ((if_neg hup).trans (if_pos hdown))),
      fun hfix hup hdown => hd.trans ((if_neg hfix).trans ((if_neg hup).trans (if_neg hdown)))⟩

end Sys2Proof.Machine
end

section
/-! Calibration and the threshold loop: trims, drift, refresh, tile records and retirement (R57, R107 to R122), and TQ (R95). -/

namespace Sys2Proof.Machine

/-! ### Trims (R107 to R112) -/

section
variable {s : State} {tile k : Nat} (hk : k < 66) (hl : s.tileLive tile = true) (hout : convOut (s.tile tile) k = false)
include hk hl hout

theorem trimPeriodExpire_due (hd : s.trimDue tile k = true) :
    exec (.trimPeriodExpire tile k) s = .next (updConv s tile k (fun c => { c with due := true })) :=
  if_pos ⟨hk, hl, hout, hd⟩

theorem trimAttempt_runs {gain off : Int} {sums : List Int} (hn : (s.conv tile k).next = none) (ho : (s.conv tile k).out = none)
    (hm : s.mayAttempt tile k = true) :
    exec (.trimAttempt tile k gain off sums) s = .next (trimAttempt s tile k gain off sums) :=
  if_pos ⟨hk, hl, hout, hn, ho, hm⟩

variable (hd : (s.conv tile k).due = true) (hb : (s.conv tile k).busy = false) (hbusy : (s.tile tile).busyConvs = 0)
include hd hb hbusy

/-- A due trim may begin where its tile trims nothing else and, if the converter serves columns, a spare is free. -/
theorem canTrim_of_due (hs : converts (s.tile tile).live.convMap k = true → (freeSpare s tile k).isSome = true) :
    canTrim s tile k = true := by
  have hspare : (!converts (s.tile tile).live.convMap k || (freeSpare s tile k).isSome) = true := by
    cases hc : converts (s.tile tile).live.convMap k with
    | false => rfl
    | true => rw [hs hc]; rfl
  simp [canTrim, hk, hl, hout, hd, hb, hbusy, hspare]

/-- The guard of a takeover lets the first trim of a field with room for it pass. -/
theorem takeover_guard (hroom : s.fieldTrims (tileField tile) < 16) (hfirst : trimsFirst s tile k = true)
    (hs : converts (s.tile tile).live.convMap k = true → (freeSpare s tile k).isSome = true) :
    ¬ (!canTrim s tile k || decide (16 ≤ s.fieldTrims (tileField tile)) || !trimsFirst s tile k) = true := by
  simp [canTrim_of_due hk hl hout hd hb hbusy hs, hroom, hfirst]

variable (hroom : s.fieldTrims (tileField tile) < 16) (hfirst : trimsFirst s tile k = true)
include hroom hfirst

theorem trimTakeoverStart_inPlace (hc : converts (s.tile tile).live.convMap k = false) :
    exec (.trimTakeoverStart tile k) s = .next (updConv s tile k (fun c => { c with busy := true, fails := 0 })) := by
  have hguard := takeover_guard hk hl hout hd hb hbusy hroom hfirst (fun h => by rw [hc] at h; cases h)
  exact (if_neg hguard).trans (if_pos (by rw [hc]; rfl))

theorem trimTakeoverStart_spare {y : Nat} (hc : converts (s.tile tile).live.convMap k = true) (hy : freeSpare s tile k = some y) :
    exec (.trimTakeoverStart tile k) s = .next (writeRecord ((updConv s tile k (fun c =>
      { c with busy := true, fails := 0, spare := some (y, s.beat) })).updTile tile (fun x => { x with live := { x.live with
        convMap := cmSet x.live.convMap y false true (columnsOf (s.tile tile).live k) } })) tile) := by
  have hguard := takeover_guard hk hl hout hd hb hbusy hroom hfirst (fun _ => by rw [hy]; rfl)
  have hserves : ¬ (!converts (s.tile tile).live.convMap k) = true := by simp [hc]
  refine (if_neg hguard).trans ((if_neg hserves).trans ?_)
  rw [hy]

end

/-! ### Drift, refresh and retirement (R57, R118, R119, R122) -/

section
variable {s : State} {tile : Nat}

theorem driftAgeTick_ages (hr : (s.tile tile).live.retired = false) : exec (.driftAgeTick tile) s =
    .next (s.updTile tile (fun x => { x with live := { x.live with age := min 0x3FFFFF (x.live.age + ageWeight s.pow.band) } })) :=
  if_neg (Bool.eq_false_iff.1 hr)

theorem refreshPending_due (hr : (s.tile tile).live.retired = false)
    (hd : 1944000 ≤ (s.tile tile).live.age ∨ s.fld (Reg.driftStat_early tile) = 1) :
    exec (.refreshPending tile) s = .next (s.setFld (Reg.driftStat_pending tile) 1) :=
  if_pos ⟨hr, hd⟩

theorem refreshOverdue_due (hr : (s.tile tile).live.retired = false) (ha : 2592000 ≤ (s.tile tile).live.age)
    (ho : s.fld (Reg.driftStat_overdue tile) = 0) : exec (.refreshOverdue tile) s =
      .next ((s.setFld (Reg.driftStat_overdue tile) 1).count (Reg.overdueCnt (tileField tile)) 1) :=
  if_pos ⟨hr, ha, ho⟩

theorem tileRecordCheckpoint_powered (hp : s.powered (tileField tile) = true) :
    exec (.tileRecordCheckpoint tile) s = .next (writeRecord s tile) :=
  if_pos hp

/-- A cause that was noted in an earlier beat retires its tile. -/
theorem tileRetirement_noted {c b o : Nat} (hr : (s.tile tile).retire = some (c, b, o)) (hb : b < s.beat) :
    let t := writeRecord (s.updTile tile (fun x => { x with
      retire := none, check := none, live := { x.live with retired := true, cause := c } })) tile
    exec (.tileRetirement tile) s = .next (recordFault { t with grid := { t.grid with change := t.grid.change + 1 } }
      4 0x0401 (tileField tile) 1 tile {} (leBytes 1 c)) := by
  intro t
  show execTileRetirement tile s = _
  rw [execTileRetirement, hr]
  exact if_neg (Nat.not_le.2 hb)

end

/-! ### The threshold loop (R95) -/

section
variable {s : State} {f n : Nat}

/-- The threshold loop steps up on overflows or high use, down on low use, and otherwise leaves the threshold alone. -/
theorem tqWindowClose_decides {taken outs : Nat} {more : List (Nat × Nat)}
    (hc : (sget noTq s.grid.tqWin (f * 64 + n)).closed = (taken, outs) :: more) :
    let t := (s.setFld (Reg.nettleUnitStat_ovfW f n) outs).setFld (Reg.nettleUnitStat_useW f n) (taken / 1024)
    let cap := 3 * bits (s.ndesc f n 0) 12 5 / 4
    let tq := toSigned 12 (s.fld (Reg.nettleUnitStat_tqCur f n))
    exec (.tqWindowClose f n) s =
      if (8 < outs ∨ (cap + 1) * 1024 < taken) ∧ tq < toSigned 12 (bits (s.ndesc f n 1) 16 12) then
        .next (updTq t f n (fun y => { y with closed := more, next := some (ofSigned 12 (tq + 1), s.beat) }))
      else if taken + 1024 < cap * 1024 ∧ toSigned 12 (bits (s.ndesc f n 1) 0 12) < tq then
        .next (updTq t f n (fun y => { y with closed := more, next := some (ofSigned 12 (tq - 1), s.beat) }))
      else .next (updTq t f n (fun y => { y with closed := more })) := by
  intro t cap tq
  show execTqWindowClose f n s = _
  simp only [execTqWindowClose, hc]
  rfl

/-- A decided threshold takes effect once the beat of its close has ended. -/
theorem tqChange_due {w b : Nat} (hn : (sget noTq s.grid.tqWin (f * 64 + n)).next = some (w, b)) (hb : b < s.beat) :
    exec (.tqChange f n) s = .next (updTq (s.setFld (Reg.nettleUnitStat_tqCur f n) w) f n (fun y => { y with next := none })) := by
  show execTqChange f n s = _
  rw [execTqChange, hn]
  exact if_pos hb

end

/-- Settles O45: each event's condition is its guard; a takeover is one in place or by a spare, and the close of a threshold
window is the branches of its rule. -/
theorem calibrationAndThresholdsComplete : Obligations.CalibrationAndThresholdsComplete := by
  refine ⟨fun s tile k => ⟨trimPeriodExpire_due, fun hk hl hout hd hb hbusy hroom hfirst => ⟨?_, fun y => ?_⟩,
    fun gain off sums hk hl hout => trimAttempt_runs hk hl hout, driftAgeTick_ages, refreshPending_due, refreshOverdue_due, tileRecordCheckpoint_powered,
    fun c b o => tileRetirement_noted⟩, fun s f n => ⟨fun taken outs more hc => ?_, fun w b => tqChange_due⟩⟩
  · exact trimTakeoverStart_inPlace hk hl hout hd hb hbusy hroom hfirst
  · exact trimTakeoverStart_spare hk hl hout hd hb hbusy hroom hfirst
  · have hd := tqWindowClose_decides hc
    exact ⟨fun hup => hd.trans (if_pos hup), fun hup hdown => hd.trans ((if_neg hup).trans (if_pos hdown)),
      fun hup hdown => hd.trans ((if_neg hup).trans (if_neg hdown))⟩

end Sys2Proof.Machine
end

section
/-! Field actions where the installed table begins them (R67 to R82, R93, R157, R165, R246, R277), and what OPEN leaves in the
lanes (R76). -/

namespace Sys2Proof.Machine

/-! ### Lanes (R73, R76) -/

section
variable {s : State} {f g l lo n : Nat}

/-- Another lane keeps its value when a lane is set. -/
theorem lane_setLane_other {v : Int} (h : laneKey g l ≠ laneKey f lo) : (setLane s f lo v).lane g l = s.lane g l :=
  sget_sset_other h

/-- A lane that is set to zero reads as zero. -/
theorem lane_setLane_zero (h : swf zeroInt s.grid.lanes = true) : (setLane s f l 0).lane f l = 0 := by
  have hzero : toSigned 48 (ofSigned 48 0) = 0 := by decide
  exact ((sget_sset h).trans (if_pos rfl)).trans hzero

/-- The lanes stay canonical when one is set. -/
theorem swf_lanes_setLane {v : Int} (h : swf zeroInt s.grid.lanes = true) : swf zeroInt (setLane s f l v).grid.lanes = true :=
  swf_sset h

/-- `n` lanes of a field from `lo` upwards set to zero, as OPEN does it for a unit. -/
def zeroLanes (s : State) (f lo n : Nat) : State := (List.range n).foldl (fun a i => setLane a f (lo + i) 0) s

theorem zeroLanes_succ : zeroLanes s f lo (n + 1) = setLane (zeroLanes s f lo n) f (lo + n) 0 := by
  rw [zeroLanes, List.range_succ, List.foldl_append]
  rfl

theorem swf_lanes_zeroLanes (h : swf zeroInt s.grid.lanes = true) : swf zeroInt (zeroLanes s f lo n).grid.lanes = true := by
  induction n with
  | zero => exact h
  | succ n ih => exact zeroLanes_succ ▸ swf_lanes_setLane ih

/-- A lane whose key lies outside the zeroed keys keeps its value. -/
theorem lane_zeroLanes_other (h : laneKey g l < laneKey f lo ∨ laneKey f (lo + n) ≤ laneKey g l) :
    (zeroLanes s f lo n).lane g l = s.lane g l := by
  induction n with
  | zero => rfl
  | succ n ih =>
    have hne : laneKey g l ≠ laneKey f (lo + n) := by unfold laneKey at h ⊢; omega
    have hout : laneKey g l < laneKey f lo ∨ laneKey f (lo + n) ≤ laneKey g l := by unfold laneKey at h ⊢; omega
    rw [zeroLanes_succ, lane_setLane_other hne, ih hout]

/-- Every zeroed lane reads as zero: the last one by its own write, an earlier one because the last is another lane. -/
theorem lane_zeroLanes_zero (hwf : swf zeroInt s.grid.lanes = true) (hlo : lo ≤ l) (hhi : l < lo + n) :
    (zeroLanes s f lo n).lane f l = 0 := by
  induction n with
  | zero => omega
  | succ n ih =>
    rw [zeroLanes_succ]
    by_cases hl : l = lo + n
    · subst hl
      exact lane_setLane_zero (swf_lanes_zeroLanes hwf)
    · have hne : laneKey f l ≠ laneKey f (lo + n) := by unfold laneKey; omega
      rw [lane_setLane_other hne, ih (by omega)]

end

/-! ### The common frame (R157) -/

section
variable {s t : State} {f slot v e : Nat}

/-- The guard of every field action lets one pass that meets an entry. -/
theorem meets_guard (h : s.meets f slot v e t) : ¬ (!s.firing || decide (64 ≤ f) || decide (64 ≤ slot)) = true := by
  obtain ⟨hfire, hf, hslot, -, -⟩ := h
  simp [hfire, hf, hslot]

/-- An action that the installed table begins for a live position does its own work. -/
theorem fieldAction_of_acts {act : Nat} (h : s.acts act f slot v e t) (body : State → Nat → Nat → State) :
    fieldAction act f slot v s body = body t (s.stepSlot f slot) e := by
  obtain ⟨hm, hact, hlive0, hlive, htab⟩ := h
  have hguard := meets_guard hm
  obtain ⟨-, -, -, hrun, rfl⟩ := hm
  rw [fieldAction, if_neg hguard, hact]
  simp only [hlive0, hrun, hlive, htab, Bool.not_true, Bool.false_eq_true, if_false]

/-- OPEN where the table begins it zeroes the lanes of its unit, whatever the position holds (R76, R165). -/
theorem fieldOpen_zeroes (h : s.meets f slot v e t) (ha : s.actionAt f 4 (s.stepSlot f slot) v = some e) :
    exec (.fieldOpen f slot v) s = .next (zeroLanes t f (t.laneLo f (faUidx e)) (t.laneCnt f (faUidx e))) := by
  have hguard := meets_guard h
  obtain ⟨-, -, -, hrun, rfl⟩ := h
  show execFieldOpen f slot v s = _
  rw [execFieldOpen, if_neg hguard, ha]
  simp only [hrun, Bool.not_true, Bool.false_eq_true, if_false]
  rfl

/-! ### SCAN (R67, R93, R246) -/

section
variable (h : s.acts 1 f slot v e t)
include h

theorem fieldScan_late (hl : outputLate t f v (s.stepSlot f slot) = true) :
    exec (.fieldScan f slot v) s = .next (lateField t f v 0 slot) := by
  show execFieldScan f slot v s = _
  rw [execFieldScan, fieldAction_of_acts h, if_pos hl]

theorem fieldScan_scans (hl : outputLate t f v (s.stepSlot f slot) = false)
    (hs : sramFault t f v (faAddr e) (vecBytes (bits (t.udesc f (faUidx e) 0) 0 4) (512 * (t.rowBlocks f (faUidx e)).length)) = none) :
    exec (.fieldScan f slot v) s = .next (scanVector t f v (faUidx e) (faAddr e)) := by
  show execFieldScan f slot v s = _
  rw [execFieldScan, fieldAction_of_acts h, if_neg (Bool.eq_false_iff.1 hl)]
  simp only [hs, Option.getD_none]

end

/-! ### EXPONENT (R69, R70) -/

/-- The words from which the owner field forms G: its own, if it scans the unit itself, and those that came. -/
def exponentWords (t : State) (f v u : Nat) (x : Scan) : List Nat :=
  (if t.hasAction f 1 u v then [x.word] else []) ++ x.words.map (fun w => w.2.1)

/-- G as the field keeps it, with the mark of a NaN word. -/
def exponentOf (t : State) (f u : Nat) (ws : List Nat) : Nat :=
  ofSigned 10 (formG (t.actBits f u) (t.actSigned f u) (t.gexpMin f u) ws) + (if ws.any (fun w => hasBit w 11) then 0x800 else 0)

section
variable (h : s.acts 2 f slot v e t) {x : Scan} (hx : (t.scan f v).getD { uidx := faUidx e } = x)
include h hx

theorem fieldExponent_missing (hm : x.missing.contains 2 = true) :
    exec (.fieldExponent f slot v) s = .next (lateField t f v 2 slot) := by
  subst hx
  show execFieldExponent f slot v s = _
  rw [execFieldExponent, fieldAction_of_acts h]
  simp only [hm, Bool.true_or, if_true]

/-- With every word of this die and of its partners in time, the owner field forms G. -/
theorem fieldExponent_forms (hm : x.missing.contains 2 = false) (hin : ∀ w ∈ x.words, 64 ≤ w.1 → w.2.2 + 2 ≤ s.stepSlot f slot)
    (hall : ∀ g ∈ t.partners f 1 (t.unitOf f (faUidx e)) v, ∃ w ∈ x.words, w.1 = g ∧ w.2.2 + 2 ≤ s.stepSlot f slot) :
    exec (.fieldExponent f slot v) s = .next (setScan t f v (some { x with
      g := some (exponentOf t f (faUidx e) (exponentWords t f v (faUidx e) x), s.stepSlot f slot - 1) })) := by
  subst hx
  have hlate : ∀ w ∈ ((t.scan f v).getD { uidx := faUidx e }).words,
      ¬ (decide (64 ≤ w.1) && decide (s.stepSlot f slot < w.2.2 + 2)) = true := fun w hw hb => by
    obtain ⟨hdie, hq⟩ := by simpa using hb
    have := hin w hw hdie
    omega
  have hneed : (t.partners f 1 (t.unitOf f (faUidx e)) v).all (fun g =>
      ((t.scan f v).getD { uidx := faUidx e }).words.any (fun w => w.1 == g && decide (w.2.2 + 2 ≤ s.stepSlot f slot))) = true := by
    simpa using hall
  show execFieldExponent f slot v s = _
  rw [execFieldExponent, fieldAction_of_acts h]
  simp only [hm, List.any_eq_false.2 hlate, hneed, Bool.not_true, Bool.or_false, Bool.false_eq_true, if_false]
  rfl

end

/-! ### ALIGN (R71) -/

/-- G reaches the field in time for ALIGN, or ALIGN is late. -/
theorem fieldAlign_decides (h : s.acts 3 f slot v e t) {x : Scan} {w at0 : Nat} (hx : t.scan f v = some x) (hg : x.g = some (w, at0)) :
    exec (.fieldAlign f slot v) s = .next (if at0 + 2 ≤ s.stepSlot f slot then alignVector t f v (s.stepSlot f slot) (faAddr e) x w
      else lateField t f v 2 slot) := by
  show execFieldAlign f slot v s = _
  rw [execFieldAlign, fieldAction_of_acts h]
  simp only [hx, hg]

/-! ### CLOSE (R76 to R82) -/

/-- The state in which a CLOSE forms its outputs: with the products of a Nettle-only unit, and with h. -/
def closeFormed (t : State) (f v : Nat) (x : Scan) : State :=
  formH (nettleOnly t f v x) f v (((nettleOnly t f v x).scan f v).getD x)

/-- CLOSE of a vector whose contributions have all come in time, in a unit whose vector uses no adapter. -/
theorem fieldClose_closes (h : s.acts 5 f slot v e t) {x : Scan} {w at0 : Nat} (hx : t.scan f v = some x) (hg : x.g = some (w, at0))
    (hm : x.missing.contains 3 = false) (hfetch : fetchDone t f x = true) (hlate : lateKind x [3, 4, 6] (s.stepSlot f slot) = none)
    (hlive : (nettleOnly t f v x).live f v = true) {u : State} (hu : closeFormed t f v x = u) (had : adapterFor u f v (faUidx e) = .unused)
    (hs : sramFault u f v (bits (u.udesc f (faUidx e) 3) 0 21) (8 * u.laneCnt f (faUidx e)) = none) :
    exec (.fieldClose f slot v) s =
      .next (closeVector u f v (s.stepSlot f slot) (faAddr e) w { (u.scan f v).getD x with uidx := faUidx e }) := by
  subst hu
  unfold closeFormed at had hs ⊢
  show execFieldClose f slot v s = _
  rw [execFieldClose, fieldAction_of_acts h]
  simp only [hx, hg, hm, hfetch, hlate, hlive, had, hs, Bool.not_true, Bool.false_eq_true, if_false, Option.getD_none]

/-! ### SELECT (R277) -/

/-- The state in which a field has formed its select word `mine`. -/
def selected (t : State) (f v : Nat) (x : Scan) (mine : Option (Nat × Nat × Bool)) : State :=
  setScan t f v (some { x with sel := mine })

section
variable (h : s.meets f slot v e t) (ha : s.selectAt f (s.stepSlot f slot) v = some e) {p : Pos} (hp : t.posOf f v = some p)
  (hnull : p.null = false) (hfail : p.failed = false) {x : Scan} (hx : (t.scan f v).getD { uidx := faUidx e } = x)
  {mine : Option (Nat × Nat × Bool)}
  (hmine : (if t.hasAction f 5 (faUidx e) v then selectWord t f (faUidx e) p.ctx x.ys else none) = mine)
include h ha hp hnull hfail hx hmine

/-- Before the last slot of the action, and in every other field than the owner, SELECT forms the field's word alone. -/
theorem fieldSelect_forms (hown : t.isOwner f (faUidx e) = false ∨ s.stepSlot f slot + 1 ≠ faFirst e + t.actLen f e) :
    exec (.fieldSelect f slot v) s = .next (selected t f v x mine) := by
  have hnot : (t.isOwner f (faUidx e) && s.stepSlot f slot + 1 == faFirst e + t.actLen f e) = false :=
    Bool.and_eq_false_iff.2 (hown.imp_right beq_eq_false_iff_ne.2)
  have hguard := meets_guard h
  obtain ⟨-, -, -, hrun, ht⟩ := h
  show execFieldSelect f slot v s = _
  rw [execFieldSelect, if_neg hguard, ha]
  simp only [hrun, ← ht, hp, hnull, hfail, hx, hmine, hnot, Bool.not_true, Bool.not_false, Bool.false_eq_true, if_false, if_true]
  rfl

/-- In the last slot the owner field, with a word from every partner in time, writes the record of the best word. -/
theorem fieldSelect_records {w : Nat × Nat × Bool} (hown : t.isOwner f (faUidx e) = true)
    (hlast : s.stepSlot f slot + 1 = faFirst e + t.actLen f e) (hm : x.missing.contains 7 = false)
    (hlate : lateKind x [7] (s.stepSlot f slot) = none) {u : State} (hu : selected t f v x mine = u)
    (hall : ∀ g ∈ u.partners f 6 (u.unitOf f (faUidx e)) v, ∃ y ∈ x.sels, y.1 = g)
    (hbest : bestWord (mine.toList ++ x.sels.map (fun y => y.2)) = some w) :
    exec (.fieldSelect f slot v) s =
      .next (u.putSram f (faAddr e) (if w.2.2 then resultRec 0 2 p.ctx else resultRec w.2.1 0 p.ctx)) := by
  have hneed : (u.partners f 6 (u.unitOf f (faUidx e)) v).all (fun g => x.sels.any (fun y => y.1 == g)) = true := by
    simpa using hall
  have hguard := meets_guard h
  obtain ⟨-, -, -, hrun, ht⟩ := h
  unfold selected at hu
  show execFieldSelect f slot v s = _
  rw [execFieldSelect, if_neg hguard, ha]
  simp only [hrun, ← ht, hp, hnull, hfail, hx, hmine, hu, hown, hlast, hm, hlate, hneed, beq_self_eq_true, Bool.and_self, Bool.not_true,
    Bool.or_self, Option.isSome_none, Bool.false_eq_true, if_false]
  cases mine with
  | none =>
    rw [Option.toList_none] at hbest
    simp only [hbest]
  | some own =>
    rw [Option.toList_some] at hbest
    simp only [hbest]

end
end

/-- Settles O43: OPEN zeroes the lanes of its unit one after the other; a zeroed lane stays zero, and the keys of the unit's
lanes are consecutive. -/
theorem openZeroesTheUnitsLanes : Obligations.OpenZeroesTheUnitsLanes := fun _ _ _ _ _ _ h ha =>
  ⟨_, fieldOpen_zeroes h ha, fun _ hlo hhi hwf => lane_zeroLanes_zero hwf hlo hhi, fun _ _ hout => lane_zeroLanes_other hout⟩

/-- Settles O42: the entry's guards are met, and each action is then the branch of its own checks. -/
theorem fieldActionsComplete : Obligations.FieldActionsComplete := by
  intro s t f slot v e q
  refine ⟨fun h => ⟨fieldScan_late h, fieldScan_scans h⟩, fun h => ⟨fieldExponent_missing h rfl, fieldExponent_forms h rfl⟩,
    fun h x w at0 hx hg => ⟨fun hq => ?_, fun hq => ?_⟩, fieldOpen_zeroes,
    fun h x w at0 hx hg hm hfetch hlate hlive => fieldClose_closes h hx hg hm hfetch hlate hlive rfl,
    fun h ha p hp hnull hfail => ⟨fieldSelect_forms h ha hp hnull hfail rfl rfl,
      fun w hown hlast hm hlate => fieldSelect_records h ha hp hnull hfail rfl rfl hown hlast hm hlate rfl⟩⟩
  · rw [fieldAlign_decides h hx hg, if_pos hq]
  · rw [fieldAlign_decides h hx hg, if_neg (Nat.not_le.2 hq)]

end Sys2Proof.Machine
end

section
/-! Class 3 work: sampled checks, reference runs and M slots (R91, R104, R113 to R115, R119, R124). -/

namespace Sys2Proof.Machine

/-! ### Checks and reference runs (R91, R104, R115) -/

theorem getAt_mem {α : Type} {d : α} : ∀ {l : List α} {i : Nat}, i < l.length → getAt d l i ∈ l
  | _ :: _, 0, _ => List.mem_cons_self
  | _ :: _, _ + 1, h => List.mem_cons_of_mem _ (getAt_mem (Nat.lt_of_succ_lt_succ h))

/-- The tile that the random source picks for a check. -/
def drawnTile (s : State) : Nat := getAt 0 (checkable s) (s.drawn % (checkable s).length)

section
variable {s : State} {tile : Nat}

theorem drawnTile_checkable (h : checkable s ≠ []) : drawnTile s ∈ checkable s :=
  getAt_mem (Nat.mod_lt _ (List.length_pos_iff.2 h))

theorem sampledCheckStart_starts (h : checkable s ≠ []) :
    exec .sampledCheckStart s = .next (startCheck s.draw (drawnTile s)) :=
  if_neg (mt List.isEmpty_iff.1 h)

theorem checkAbandon_abandons {k : ChkSt} (hk : (s.tile tile).check = some k) (hd : k.driven = true) (hn : k.nettle = false)
    (hm : 64 ≤ k.mSlots) : exec (.checkAbandon tile) s =
      .next ((s.updTile tile (fun x => { x with check := none })).count (Reg.checkAbandonCnt (tileField tile)) 1) := by
  show execCheckAbandon tile s = _
  rw [execCheckAbandon, hk]
  exact if_pos (by simp [hd, hn, hm])

/-- Nettle's share of the request `n` is complete. -/
def nettleDone (n : Nat) (k : ChkSt) : ChkSt := if k.no = n then { k with nettle := true } else k

theorem nettleRefDone_completes {n : Nat} (hn : s.nextRequest tile = some n) : exec (.nettleRefDone tile) s =
    .next (settle (s.updTile tile (fun x =>
      { x with check := x.check.map (nettleDone n), refRuns := x.refRuns.map (nettleDone n) })) tile) := by
  show execNettleRefDone tile s = _
  rw [execNettleRefDone, hn]
  rfl

end

/-! ### M slots (R113, R114, R119, R124) -/

section
variable {s t : State} {tile slot : Nat} (hopen : mSlotOpen s tile slot = true) (ht : checkWait (s.atSlot slot) tile = t)
include hopen ht

/-- A trim has an open slot before all other work. -/
theorem mSlot_trims {c : Nat} {gain off : Int} {sums : List Int} (hc : slotTrim t tile = some c) :
    exec (.mSlot tile slot (.trim c gain off sums)) s = .next (trimAttempt t tile c gain off sums) := by
  show execMSlot tile slot (.trim c gain off sums) s = _
  simp [execMSlot, hopen, ht, hc]

section
variable (htrim : slotTrim t tile = none) (hready : t.refreshReady tile = true) (hpulse : t.mayPulse tile slot = true)
include htrim hready hpulse

/-- Where no trim waits, the last slot of a refresh that may pulse ends it. -/
theorem mSlot_endsRefresh {cells : Nat} {failed : List Nat} :
    exec (.mSlot tile slot (.refreshEnd cells failed)) s = .next (refreshDone t tile cells failed) := by
  show execMSlot tile slot (.refreshEnd cells failed) s = _
  simp [execMSlot, hopen, ht, htrim, hready, hpulse]

/-- A slot before the last counts towards the refresh and pulses the tile. -/
theorem mSlot_refreshes (hm : (t.tile tile).refM < 16383) : exec (.mSlot tile slot .refreshPart) s =
    .next ((notePulse (t.setFld (Reg.driftStat_refreshing tile) 1) tile).updTile tile (fun x => { x with refM := x.refM + 1 })) := by
  show execMSlot tile slot .refreshPart s = _
  simp [execMSlot, hopen, ht, htrim, hready, hpulse, hm]

end

section
variable (htrim : slotTrim t tile = none) (hready : t.refreshReady tile = false)
include htrim hready

/-- Where neither a trim nor a refresh waits, the 128th slot of a measurement of the reference rows ends it. -/
theorem mSlot_endsRefRow {pos neg : List Int} (hm : (t.tile tile).refRowM = 127) :
    exec (.mSlot tile slot (.refRow pos neg)) s = .next (refRowDone t tile pos neg) := by
  show execMSlot tile slot (.refRow pos neg) s = _
  simp [execMSlot, hopen, ht, htrim, hready, hm]

theorem mSlot_measuresRefRow : exec (.mSlot tile slot .refRowPart) s =
    .next (t.updTile tile (fun x => { x with refRowM := min 127 (x.refRowM + 1) })) := by
  show execMSlot tile slot .refRowPart s = _
  simp [execMSlot, hopen, ht, htrim, hready]

/-- A check drives a plane only where no other work waits. -/
theorem mSlot_drivesPlane {err : List Int} (hrow : t.refRowWork tile = false) :
    exec (.mSlot tile slot (.check err)) s = .next (drivePlaneM t tile err) := by
  show execMSlot tile slot (.check err) s = _
  simp [execMSlot, hopen, ht, htrim, hready, hrow]

end
end

/-- Settles O46: the drawn index lies in the list of tiles that may be checked, a check that waited and Nettle's next request
meet their guards, and an open slot goes down R124's order to the work that waits first. -/
theorem checkAndSlotEventsComplete : Obligations.CheckAndSlotEventsComplete := fun _ _ _ =>
  ⟨fun h => ⟨sampledCheckStart_starts h, drawnTile_checkable h⟩, fun _ => checkAbandon_abandons,
    fun _ => nettleRefDone_completes, fun hopen =>
    ⟨fun _ _ _ _ => mSlot_trims hopen rfl,
      fun htrim hready hpulse => ⟨fun _ _ => mSlot_endsRefresh hopen rfl htrim hready hpulse,
        mSlot_refreshes hopen rfl htrim hready hpulse⟩,
      fun htrim hready => ⟨fun _ _ => mSlot_endsRefRow hopen rfl htrim hready, mSlot_measuresRefRow hopen rfl htrim hready,
        fun _ => mSlot_drivesPlane hopen rfl htrim hready⟩⟩⟩

end Sys2Proof.Machine
end

section
/-! The housekeeping round and what happens between rounds (R116, R176, R299, R365, R369 to R376, R380, R391, R396). -/

namespace Sys2Proof.Machine

theorem awake_iff {s : State} : s.awake = true ↔ s.dieState ≠ .off := bne_iff_ne

/-! ### The event-log header (R391, R398) -/

/-- The copy just written is the one in use, whichever of the two it is: it is valid, and its HDR_SEQ is above the other's. -/
theorem hdr_writeHdr (e : EvLog) (h : EvHdr) : (e.writeHdr h).hdr = { h with valid := true, hdrSeq := e.hdr.hdrSeq + 1 } := by
  have hnew : ¬ e.hdrB.hdrSeq + 1 < e.hdrB.hdrSeq := Nat.not_lt.2 (Nat.le_succ _)
  cases ha : e.hdrA.valid
  case false =>
    -- the first copy is written; the second, where valid, was in use
    cases hb : e.hdrB.valid
    case false => simp [EvLog.writeHdr, EvLog.hdr, ha, hb]
    case true => simp [EvLog.writeHdr, EvLog.hdr, ha, hb, hnew]
  case true =>
    cases hb : e.hdrB.valid
    case false => simp [EvLog.writeHdr, EvLog.hdr, ha, hb]
    case true =>
      -- both are valid: the lower one is written
      by_cases hlt : e.hdrA.hdrSeq < e.hdrB.hdrSeq
      · simp [EvLog.writeHdr, EvLog.hdr, ha, hb, hlt, hnew]
      · simp [EvLog.writeHdr, EvLog.hdr, ha, hb, hlt]

theorem aliveS_writeHeader (s : State) (g : EvHdr → EvHdr) : (writeHeader s g).ev.hdr.aliveS = s.aliveS := by
  rw [writeHeader, hdr_writeHdr]

/-! ### The round and the events between rounds -/

section
variable {s : State}

theorem bandChange_takes {b : Nat} (hb : s.pow.bandNext = some b) :
    exec .bandChange s = .next { s with pow := { s.pow with band := b, bandNext := none } } := by
  show execBandChange s = _
  rw [execBandChange, hb]

variable (hs : s.dieState ≠ .off)
include hs

/-- Out of OFF no guard keeps a running core from its round. -/
theorem round_guard (hup : s.coreUp = true) : ¬ (!s.awake || !s.coreUp) = true := by
  simp [awake_iff.2 hs, hup]

theorem sensorFastRead_updates {n : Nat} {v : Option Int} (hup : s.coreUp = true) (hn : n < 48) (hf : s.fld (Reg.sens_fast n) ≠ 0) :
    exec (.sensorFastRead n v) s = .next (updateTemp (readSensor s n v)) :=
  if_neg (by simp [awake_iff.2 hs, hup, hn, hf])

theorem aliveSecond_counts (h : 1000 ≤ s.aliveRounds) : exec .aliveSecond s = .next { s with aliveS := s.aliveS + 1, aliveRounds := 0 } :=
  if_pos ⟨awake_iff.2 hs, h⟩

theorem headerCheckpoint_writes (hup : s.coreUp = true) : exec .headerCheckpoint s = .next (writeHeader s id) :=
  if_pos ⟨awake_iff.2 hs, hup⟩

theorem pmbAlert_asks (hp : s.fld Reg.blockEnMisc_power ≠ 0) :
    exec .pmbAlert s = .next { s with pow := { s.pow with railStats := true } } :=
  if_neg (by simp [awake_iff.2 hs, hp])

end

/-- Settles O50: the round and each event between rounds meet the guard that stands before their effect; a round ends with its
count in HEARTBEAT, and the header written last, with ALIVE_S, is the one in use. -/
theorem housekeepingCompletes : Obligations.HousekeepingCompletes := fun s hs =>
  ⟨fun _ hup => if_neg (round_guard hs hup), fun _ _ => ⟨_, rfl⟩, fun _ _ => sensorFastRead_updates hs, fun _ => bandChange_takes,
    aliveSecond_counts hs, fun hup => ⟨headerCheckpoint_writes hs hup, rfl, aliveS_writeHeader s id⟩, pmbAlert_asks hs⟩

end Sys2Proof.Machine
end

section
/-! Dandelion: what the time commands leave as it is, the PTP messages, the time states' timeouts and the beat exchange (R127, R131,
R133 to R140, R147 to R149, Tables 7.3 and 7.5). -/

namespace Sys2Proof.Machine

/-! ### What the time commands leave as it is -/

/-- The state without what a time command may change: registers, links, time, sent messages and the free-value counter. -/
def timeless (s : State) : State := { s with csr := [], links := [], time := {}, out := [], free := 0 }

/-- Two states that agree without those parts differ in nothing else. -/
theorem eq_of_timeless {s t : State} (h : timeless t = timeless s) :
    t = { s with csr := t.csr, links := t.links, time := t.time, out := t.out, free := t.free } :=
  congrArg (fun u : State => { u with csr := t.csr, links := t.links, time := t.time, out := t.out, free := t.free }) h

/-- Every next state of the outcome is `s` but for those parts. -/
def KeepsTimeless (s : State) (o : Host.Outcome State Fault Refusal) : Prop := ∀ t, o = .next t → timeless t = timeless s

section
variable {s t : State} {a b : State} {c : Prop} [Decidable c] {r : State}

theorem keepsTimeless_next (h : timeless t = timeless s) : KeepsTimeless s (.next t) := fun _ e => Host.Outcome.next.inj e ▸ h

theorem keepsTimeless_same : KeepsTimeless s (.next s) := keepsTimeless_next rfl

theorem keepsTimeless_ite {o o' : Host.Outcome State Fault Refusal} (h : KeepsTimeless s o) (h' : KeepsTimeless s o') :
    KeepsTimeless s (if c then o else o') := by
  split
  · exact h
  · exact h'

theorem timeless_ite (ha : timeless a = r) (hb : timeless b = r) : timeless (if c then a else b) = r := by
  split
  · exact ha
  · exact hb

end

section
variable {s : State} {p : Nat} {m : PtpMsg}

/-! One equation for each operation that the time commands share. -/

@[simp] theorem timeless_setFld (x : Fld) (v : Nat) : timeless (s.setFld x v) = timeless s := rfl
@[simp] theorem timeless_count (x : Fld) (k : Nat) : timeless (s.count x k) = timeless s := rfl
@[simp] theorem timeless_updLnk (n : Nat) (g : Link → Link) : timeless (s.updLnk n g) = timeless s := rfl
@[simp] theorem timeless_showAlt : timeless (showAlt s) = timeless s := rfl
@[simp] theorem timeless_beatEvent (n b : Nat) : timeless (beatEvent s n b) = timeless s := rfl

@[simp] theorem timeless_sourceGone : timeless (sourceGone s p) = timeless s :=
  (timeless_showAlt (s := ite _ _ _)).trans (timeless_ite rfl rfl)

/-- An accepted offset moves the estimate, PHASE and the free-value counter, in every time state. -/
@[simp] theorem timeless_servo (o : Int) : timeless (servo s m o) = timeless s := by
  unfold servo
  dsimp only
  split
  case h_1 => rfl                                                                    -- ACQUIRING
  case h_2 => exact timeless_ite rfl (timeless_ite rfl rfl)                          -- LOCKED
  case h_3 => exact timeless_ite rfl rfl                                             -- HOLDOVER
  case h_4 => rfl                                                                    -- ROOT
  case h_5 => rfl                                                                    -- FREE
  case h_6 => rfl                                                                    -- LOST

/-- An accepted Sync: its marks, the port that is followed, HOLD_LEFT under PARENT_HOLD, the offset, EXT_LOST. -/
@[simp] theorem timeless_syncTake : timeless (syncTake s p m) = timeless s := by
  unfold syncTake
  extract_lets o t tpDead marked followed held served found
  have hfollowed : timeless followed = timeless s := by
    unfold followed
    split
    · exact timeless_ite rfl rfl
    · rfl
  have hheld : timeless held = timeless s := timeless_ite hfollowed hfollowed
  have hserved : timeless served = timeless s := timeless_ite ((timeless_servo o).trans hheld) hheld
  exact timeless_showAlt.trans (timeless_ite hserved hserved)

@[simp] theorem timeless_syncDone : timeless (syncDone s p m) = timeless s :=
  timeless_ite timeless_syncTake rfl

end

/-! ### What a port does with a PTP message (R133, R135) -/

/-- A message on a port that is not in service is ignored, one of another domain or kind discarded; of any other, `taken` is what
becomes of it. -/
def ptpReceive (s : State) (p : Nat) (m : PtpMsg) (taken : Host.Outcome State Fault Refusal) : Host.Outcome State Fault Refusal :=
  if !s.ddlOn || !s.linkUp p then .next s else if !ptpMine s m then .next (ptpDiscard s) else taken

section
variable (s : State) (p : Nat) (m : PtpMsg)

theorem syncReceived_eq : exec (.syncReceived p m) s = ptpReceive s p m
    (if m.twoStep then .next { s with time := { s.time with twoStep := sset noPtp s.time.twoStep p (some m) } }
    else .next (syncDone s p m)) := rfl

/-- A Follow_Up completes the Sync that waits for it, or is discarded. -/
theorem followUpReceived_eq : exec (.followUpReceived p m) s = ptpReceive s p m
    ((sget noPtp s.time.twoStep p).elim (.next (ptpDiscard s)) fun k =>
      if k.seqNo = m.seqNo ∧ k.clockId = m.clockId then
        .next (syncDone { s with time := { s.time with twoStep := sset noPtp s.time.twoStep p none } } p { k with offset := m.offset })
      else .next (ptpDiscard s)) := by
  show execFollowUpReceived p m s = _
  rw [execFollowUpReceived, ptpReceive]
  cases sget noPtp s.time.twoStep p <;> rfl

theorem pdelayReqReceived_eq : exec (.pdelayReqReceived p m) s = ptpReceive s p m
    (if s.timePort p then .next (s.emit (.ptp p 3 (s.ptpMsg p m.seqNo))) else .next s) := rfl

theorem pdelayRespReceived_eq : exec (.pdelayRespReceived p m) s = ptpReceive s p m
    (if m.twoStep then .next { s with time := { s.time with pdResp := sset noPtp s.time.pdResp p (some m) } }
    else .next (takeDelay s p m.offset)) := rfl

/-- A Pdelay_Resp_Follow_Up completes the response that waits for it, or is discarded. -/
theorem pdelayRespFuReceived_eq : exec (.pdelayRespFuReceived p m) s = ptpReceive s p m
    ((sget noPtp s.time.pdResp p).elim (.next (ptpDiscard s)) fun k =>
      if k.seqNo = m.seqNo then
        .next (takeDelay { s with time := { s.time with pdResp := sset noPtp s.time.pdResp p none } } p m.offset)
      else .next (ptpDiscard s)) := by
  show execPdelayRespFuReceived p m s = _
  rw [execPdelayRespFuReceived, ptpReceive]
  cases sget noPtp s.time.pdResp p <;> rfl

end

/-- An announcement changes nothing, whatever it says. -/
theorem announceReceived_eq (s : State) (p : Nat) (m : PtpMsg) : exec (.announceReceived p m) s = ptpReceive s p m (.next s) := by
  show execAnnounceReceived p m s = _
  rw [execAnnounceReceived, ptpReceive]
  cases ptpMine s m <;> rfl

section
variable {s : State} {p : Nat} {m : PtpMsg} {o : Host.Outcome State Fault Refusal}

theorem keepsTimeless_ptpReceive (h : KeepsTimeless s o) : KeepsTimeless s (ptpReceive s p m o) :=
  keepsTimeless_ite keepsTimeless_same (keepsTimeless_ite (keepsTimeless_next rfl) h)

/-- A measurement that waits for its second half completes or not: no other case. -/
theorem keepsTimeless_elim {x : Option PtpMsg} {f : PtpMsg → Host.Outcome State Fault Refusal} (hn : KeepsTimeless s o)
    (hf : ∀ k, KeepsTimeless s (f k)) : KeepsTimeless s (x.elim o f) := by
  cases x with
  | none => exact hn
  | some k => exact hf k

end

/-! ### The frame of the time commands -/

section
variable (s : State) (p : Nat) (m : PtpMsg)

theorem syncSend_keepsTimeless : KeepsTimeless s (exec .syncSend s) :=
  keepsTimeless_ite (c := s.syncPorts.isEmpty = true) keepsTimeless_same (keepsTimeless_next rfl)

theorem pdelayReqSend_keepsTimeless : KeepsTimeless s (exec (.pdelayReqSend p) s) :=
  keepsTimeless_ite (c := s.timePort p = true) (keepsTimeless_next rfl) keepsTimeless_same

theorem announceSend_keepsTimeless : KeepsTimeless s (exec .announceSend s) :=
  keepsTimeless_ite (c := s.syncPorts.isEmpty = true) keepsTimeless_same (keepsTimeless_next rfl)

theorem syncReceived_keepsTimeless : KeepsTimeless s (exec (.syncReceived p m) s) := by
  rw [syncReceived_eq]
  exact keepsTimeless_ptpReceive (keepsTimeless_ite (keepsTimeless_next rfl) (keepsTimeless_next timeless_syncDone))

theorem followUpReceived_keepsTimeless : KeepsTimeless s (exec (.followUpReceived p m) s) := by
  rw [followUpReceived_eq]
  exact keepsTimeless_ptpReceive (keepsTimeless_elim (keepsTimeless_next rfl) fun _ =>
    keepsTimeless_ite (keepsTimeless_next (timeless_syncDone.trans rfl)) (keepsTimeless_next rfl))

theorem pdelayReqReceived_keepsTimeless : KeepsTimeless s (exec (.pdelayReqReceived p m) s) := by
  rw [pdelayReqReceived_eq]
  exact keepsTimeless_ptpReceive (keepsTimeless_ite (keepsTimeless_next rfl) keepsTimeless_same)

theorem pdelayRespReceived_keepsTimeless : KeepsTimeless s (exec (.pdelayRespReceived p m) s) := by
  rw [pdelayRespReceived_eq]
  exact keepsTimeless_ptpReceive (keepsTimeless_ite (keepsTimeless_next rfl) (keepsTimeless_next rfl))

theorem pdelayRespFuReceived_keepsTimeless : KeepsTimeless s (exec (.pdelayRespFuReceived p m) s) := by
  rw [pdelayRespFuReceived_eq]
  exact keepsTimeless_ptpReceive (keepsTimeless_elim (keepsTimeless_next rfl) fun _ =>
    keepsTimeless_ite (keepsTimeless_next rfl) (keepsTimeless_next rfl))

theorem announceReceived_keepsTimeless : KeepsTimeless s (exec (.announceReceived p m) s) := by
  rw [announceReceived_eq]
  exact keepsTimeless_ptpReceive keepsTimeless_same

theorem syncSourceTimeout_keepsTimeless : KeepsTimeless s (exec (.syncSourceTimeout p) s) :=
  keepsTimeless_ite (c := hasBit s.time.valid p = true) (keepsTimeless_next timeless_sourceGone) keepsTimeless_same

theorem acquireTimeout_keepsTimeless : KeepsTimeless s (exec .acquireTimeout s) := by
  show KeepsTimeless s (execAcquireTimeout s)
  unfold execAcquireTimeout
  exact keepsTimeless_ite (keepsTimeless_next (timeless_setFld _ _)) keepsTimeless_same

theorem extGmLost_keepsTimeless : KeepsTimeless s (exec .extGmLost s) := by
  show KeepsTimeless s (execExtGmLost s)
  unfold execExtGmLost
  exact keepsTimeless_ite (keepsTimeless_next (timeless_setFld _ _)) keepsTimeless_same

end

section
variable (s : State) (n why : Nat) (mk : Marker)

theorem beatMarker_keepsTimeless : KeepsTimeless s (exec (.beatMarker n mk) s) := by
  show KeepsTimeless s (execBeatMarker n mk s)
  unfold execBeatMarker
  extract_lets l ack acked checked noted next late
  have hchecked : timeless checked = timeless s := timeless_ite (timeless_count _ _) rfl
  have hnoted : timeless noted = timeless s := (timeless_updLnk _ _).trans hchecked
  have hlate : timeless late = timeless s := (timeless_updLnk _ _).trans ((timeless_count _ _).trans hnoted)
  exact keepsTimeless_ite keepsTimeless_same (keepsTimeless_ite (keepsTimeless_next ((timeless_updLnk _ _).trans hnoted))
    (keepsTimeless_ite (keepsTimeless_next ((timeless_beatEvent _ _).trans hlate)) (keepsTimeless_next hlate)))

theorem beatAck_keepsTimeless : KeepsTimeless s (exec (.beatAck n mk) s) := by
  show KeepsTimeless s (execBeatAck n mk s)
  unfold execBeatAck
  extract_lets l
  refine keepsTimeless_ite keepsTimeless_same ?_
  split
  · exact keepsTimeless_same
  · exact keepsTimeless_ite (keepsTimeless_next (timeless_beatEvent _ _))
      (keepsTimeless_next ((timeless_updLnk _ _).trans (timeless_ite (timeless_count _ _) (timeless_updLnk _ _))))

theorem beatAckTimeout_keepsTimeless : KeepsTimeless s (exec (.beatAckTimeout n why) s) := by
  show KeepsTimeless s (execBeatAckTimeout n why s)
  unfold execBeatAckTimeout
  extract_lets l
  refine keepsTimeless_ite keepsTimeless_same ?_
  split
  case h_1 =>
    split
    · exact keepsTimeless_same
    · exact keepsTimeless_next (timeless_beatEvent _ _)
  case h_2 => exact keepsTimeless_ite (keepsTimeless_next (timeless_beatEvent _ _)) keepsTimeless_same
  case h_3 => exact keepsTimeless_ite (keepsTimeless_next (timeless_beatEvent _ _)) keepsTimeless_same

end

/-- Settles O33: each command changes nothing but those parts, by the branches of its meaning. -/
theorem timeCommandsFrame : Obligations.TimeCommandsFrame := by
  intro s t p w m mk c hc h
  have hall : ∀ c ∈ [Instr.syncSend, .pdelayReqSend p, .announceSend, .syncReceived p m, .followUpReceived p m, .pdelayReqReceived p m,
      .pdelayRespReceived p m, .pdelayRespFuReceived p m, .announceReceived p m, .syncSourceTimeout p, .acquireTimeout, .extGmLost,
      .beatMarker p mk, .beatAck p mk, .beatAckTimeout p w], KeepsTimeless s (exec c s) := by
    simp only [List.forall_mem_cons]
    exact ⟨syncSend_keepsTimeless s, pdelayReqSend_keepsTimeless s p, announceSend_keepsTimeless s, syncReceived_keepsTimeless s p m,
      followUpReceived_keepsTimeless s p m, pdelayReqReceived_keepsTimeless s p m, pdelayRespReceived_keepsTimeless s p m,
      pdelayRespFuReceived_keepsTimeless s p m, announceReceived_keepsTimeless s p m, syncSourceTimeout_keepsTimeless s p,
      acquireTimeout_keepsTimeless s, extGmLost_keepsTimeless s, beatMarker_keepsTimeless s p mk, beatAck_keepsTimeless s p mk,
      beatAckTimeout_keepsTimeless s p w, List.forall_mem_nil _⟩
  exact eq_of_timeless (hall c hc t h)

end Sys2Proof.Machine
end

section
/-! The PTP messages that a die sends and takes, the timeouts of its time states, and the beat exchange (R127, R131, R133 to R140,
R147 to R149, Tables 7.3 and 7.5). -/

namespace Sys2Proof.Machine

/-! ### PTP messages (R127, R133 to R138) -/

section
variable {s : State} {p : Nat} {m : PtpMsg} {o : Host.Outcome State Fault Refusal}

theorem syncDone_accepted (hc : s.candidate p = true) (ha : syncAccepted s m = true) : syncDone s p m = syncTake s p m :=
  if_pos (by rw [hc, ha]; rfl)

theorem syncDone_refused (h : s.candidate p = false ∨ syncAccepted s m = false) : syncDone s p m = ptpDiscard s :=
  if_neg (by rw [Bool.and_eq_true]; rintro ⟨hc, ha⟩; simp [hc, ha] at h)

/-- A message kept for a port is found there again. -/
theorem sget_keptPtp {l : Sparse (Option PtpMsg)} : sget noPtp (sset noPtp l p (some m)) p = some m := by
  rw [sset, if_neg (by simp [noPtp]), sget_sput, if_pos rfl]

variable (hd : s.ddlOn = true) (hl : s.linkUp p = true)
include hd hl

theorem ptpReceive_other (hm : ptpMine s m = false) : ptpReceive s p m o = .next (ptpDiscard s) := by
  simp [ptpReceive, hd, hl, hm]

theorem ptpReceive_mine (hm : ptpMine s m = true) : ptpReceive s p m o = o := by
  simp [ptpReceive, hd, hl, hm]

/-- One of another domain or kind is discarded, whichever message it is. -/
theorem ptpMessages_discarded (hm : ptpMine s m = false) : ∀ c ∈ [Instr.syncReceived p m, .followUpReceived p m, .pdelayReqReceived p m,
    .pdelayRespReceived p m, .pdelayRespFuReceived p m, .announceReceived p m], exec c s = .next (ptpDiscard s) := by
  simp only [List.forall_mem_cons, syncReceived_eq, followUpReceived_eq, pdelayReqReceived_eq, pdelayRespReceived_eq,
    pdelayRespFuReceived_eq, announceReceived_eq, ptpReceive_other hd hl hm, true_and]
  exact List.forall_mem_nil _

variable (hm : ptpMine s m = true)
include hm

theorem syncReceived_oneStep (h1 : m.twoStep = false) : exec (.syncReceived p m) s = .next (syncDone s p m) := by
  rw [syncReceived_eq, ptpReceive_mine hd hl hm, h1]
  rfl

theorem syncReceived_twoStep (h2 : m.twoStep = true) : exec (.syncReceived p m) s =
    .next { s with time := { s.time with twoStep := sset noPtp s.time.twoStep p (some m) } } := by
  rw [syncReceived_eq, ptpReceive_mine hd hl hm, h2]
  rfl

theorem followUpReceived_completes {k : PtpMsg} (hk : sget noPtp s.time.twoStep p = some k) (hseq : k.seqNo = m.seqNo)
    (hid : k.clockId = m.clockId) : exec (.followUpReceived p m) s =
      .next (syncDone { s with time := { s.time with twoStep := sset noPtp s.time.twoStep p none } } p { k with offset := m.offset }) := by
  rw [followUpReceived_eq, ptpReceive_mine hd hl hm, hk]
  exact if_pos ⟨hseq, hid⟩

theorem pdelayReqReceived_answered (ht : s.timePort p = true) :
    exec (.pdelayReqReceived p m) s = .next (s.emit (.ptp p 3 (s.ptpMsg p m.seqNo))) := by
  rw [pdelayReqReceived_eq, ptpReceive_mine hd hl hm, if_pos ht]

theorem pdelayReqReceived_unanswered (ht : s.timePort p = false) : exec (.pdelayReqReceived p m) s = .next s := by
  rw [pdelayReqReceived_eq, ptpReceive_mine hd hl hm, if_neg (Bool.eq_false_iff.1 ht)]

theorem pdelayRespReceived_oneStep (h1 : m.twoStep = false) : exec (.pdelayRespReceived p m) s = .next (takeDelay s p m.offset) := by
  rw [pdelayRespReceived_eq, ptpReceive_mine hd hl hm, h1]
  rfl

theorem pdelayRespReceived_twoStep (h2 : m.twoStep = true) : exec (.pdelayRespReceived p m) s =
    .next { s with time := { s.time with pdResp := sset noPtp s.time.pdResp p (some m) } } := by
  rw [pdelayRespReceived_eq, ptpReceive_mine hd hl hm, h2]
  rfl

theorem pdelayRespFuReceived_completes {k : PtpMsg} (hk : sget noPtp s.time.pdResp p = some k) (hseq : k.seqNo = m.seqNo) :
    exec (.pdelayRespFuReceived p m) s =
      .next (takeDelay { s with time := { s.time with pdResp := sset noPtp s.time.pdResp p none } } p m.offset) := by
  rw [pdelayRespFuReceived_eq, ptpReceive_mine hd hl hm, hk]
  exact if_pos hseq

end

/-- Settles O30: a message is sent wherever a port carries it; one received is discarded before anything else, or taken by the
row of its kind. -/
theorem ptpMessagesAreSentAndTaken : Obligations.PtpMessagesAreSentAndTaken := by
  refine ⟨fun s => ⟨fun h => if_neg (mt List.isEmpty_iff.1 h), fun h => if_neg (mt List.isEmpty_iff.1 h),
    fun h => ⟨if_pos (List.isEmpty_iff.2 h), if_pos (List.isEmpty_iff.2 h)⟩, fun p h => if_pos h,
    fun p n => ⟨rfl, rfl, rfl, rfl, rfl, rfl, rfl, rfl, rfl⟩, fun p => ⟨rfl, rfl, rfl, rfl⟩⟩,
    fun s p m hd hl => ⟨ptpMessages_discarded hd hl, fun hm => ⟨?_, pdelayReqReceived_answered hd hl hm,
      pdelayReqReceived_unanswered hd hl hm, fun h1 hc ha => ?_, fun h1 hr => ?_, fun h2 => ⟨syncReceived_twoStep hd hl hm h2, sget_keptPtp⟩,
      fun k => followUpReceived_completes hd hl hm, pdelayRespReceived_oneStep hd hl hm, pdelayRespReceived_twoStep hd hl hm,
      fun k => pdelayRespFuReceived_completes hd hl hm⟩⟩⟩
  · rw [announceReceived_eq, ptpReceive_mine hd hl hm]
  · rw [syncReceived_oneStep hd hl hm h1, syncDone_accepted hc ha]
  · rw [syncReceived_oneStep hd hl hm h1, syncDone_refused hr]

/-! ### Timeouts of the time states (R131, R139, R140, Table 7.5) -/

section
variable {s : State}

/-- A fold whose every step keeps what `g` reads of the state keeps it. -/
theorem foldl_keeps {α β : Type} {f : State → α → State} {g : State → β} (hf : ∀ t a, g (f t a) = g t) (l : List α) (s : State) :
    g (l.foldl f s) = g s := by
  induction l generalizing s with
  | nil => rfl
  | cons a l ih => rw [List.foldl_cons, ih, hf]

/-! A port whose source is gone -/

theorem sourceGone_valid (p : Nat) : (sourceGone s p).time.valid = clrBit s.time.valid p := by
  rw [sourceGone, showAlt, setFld_time]
  split <;> rfl

theorem sourceGone_state (p : Nat) : (sourceGone s p).time.state = s.time.state := by
  rw [sourceGone, showAlt, setFld_time]
  split <;> rfl

/-- A LOCKED die that loses its time port's source has a move decided: to an alternate, or into HOLDOVER. -/
theorem sourceGone_moves {p : Nat} (hp : p = s.fld Reg.ddlStatus_timePort) (hs : s.time.state = .locked) : (sourceGone s p).time.move ≠ none := by
  rw [sourceGone, showAlt, setFld_time, if_pos ⟨hp, hs⟩]
  dsimp only
  split <;> exact Option.some_ne_none _

/-! What entry to OUT_OF_STEP leaves of the time, and the die state that it ends in -/

@[simp] theorem time_raiseInt (b : Nat) : (raiseInt s b).time = s.time := by rw [raiseInt_eq]

@[simp] theorem dieState_raiseInt (b : Nat) : (raiseInt s b).dieState = s.dieState := by rw [raiseInt_eq]

@[simp] theorem time_enterState (d : DieState) : (enterState s d).time = s.time := time_raiseInt _

@[simp] theorem dieState_enterState (d : DieState) : (enterState s d).dieState = d := dieState_raiseInt _

/-- A job that ends changes mailboxes, and what its owner is signalled with. -/
theorem jobDone_eq (m k st : Nat) (d : List Byte) : jobDone s m k st d = { s with
    mbx := (jobDone s m k st d).mbx, csr := (jobDone s m k st d).csr, out := (jobDone s m k st d).out
    intWin := (jobDone s m k st d).intWin, fab := (jobDone s m k st d).fab } := by
  unfold jobDone
  split
  · dsimp only
    split
    · split <;> rfl
    · rw [raiseInt_eq]; rfl
  · rfl

@[simp] theorem time_jobDone (m k st : Nat) (d : List Byte) : (jobDone s m k st d).time = s.time := by rw [jobDone_eq]

@[simp] theorem time_finishAll (op st : Nat) (d : List Byte) : (finishAll s op st d).time = s.time :=
  foldl_keeps (fun _ _ => time_jobDone _ _ _ _) _ s

@[simp] theorem time_recordFault (cls cause dom kind locus : Nat) (ctx : FaultCtx) (syn : List Byte) :
    (recordFault s cls cause dom kind locus ctx syn).time = s.time := by
  have hnew : (recordFault.new s cls cause dom kind locus ctx syn).time = s.time := by
    rw [recordFault.new, time_raiseInt]
    split <;> rfl
  unfold recordFault
  split
  · split
    · rfl
    · exact hnew
  · exact hnew

@[simp] theorem time_markFailed (f mb : Nat) : (markFailed s f mb).time = s.time :=
  foldl_keeps (fun _ _ => by split <;> rfl) _ s

@[simp] theorem time_failMb (f v : Nat) : (failMb s f v).time = s.time := by
  unfold failMb
  dsimp only
  split
  · exact time_markFailed f _
  · rw [count_time, time_markFailed]
    split <;> rfl

@[simp] theorem time_failField (f : Nat) : (failField s f).time = s.time := by
  refine foldl_keeps (fun t v => ?_) _ s
  split
  · split
    · rfl
    · exact time_failMb f v
  · rfl

@[simp] theorem time_failAllSteps : (failAllSteps s).time = s.time := foldl_keeps (fun _ f => time_failField f) _ s

@[simp] theorem time_stopFiring : (stopFiring s).time = s.time := rfl

@[simp] theorem time_enterOutOfStep : (enterOutOfStep s).time = s.time := by
  rw [enterOutOfStep, time_enterState, time_finishAll, time_stopFiring, time_recordFault, time_failAllSteps]

theorem dieState_enterOutOfStep : (enterOutOfStep s).dieState = .outOfStep := dieState_enterState _

theorem enterLost_state : (enterLost s).time.state = .lost := by
  rw [enterLost]
  split
  · rw [time_enterOutOfStep]; rfl
  · rfl

theorem enterLost_dieState (h : joinedPlus s.dieState = true ∨ s.dieState = .holdover) : (enterLost s).dieState = .outOfStep := by
  unfold enterLost
  extract_lets before lost counted
  have hkept : counted.dieState = s.dieState := by
    unfold counted
    rw [count_dieState, setFld_dieState, setFld_dieState]
  rw [if_pos (by rwa [hkept, Bool.or_eq_true, beq_iff_eq])]
  exact dieState_enterOutOfStep

/-! The commands under their conditions -/

theorem acquireTimeout_slow (h : s.time.state = .acquiring) : exec .acquireTimeout s = .next (s.setFld Reg.ddlStatus_acqSlow 1) := by
  show execAcquireTimeout s = _
  rw [execAcquireTimeout, if_pos h]

theorem holdLeftExpire_lost (h : s.time.state = .holdover) (h0 : s.fld Reg.holdStat_holdLeft = 0) :
    exec .holdLeftExpire s = .next (enterLost s) := by
  show execHoldLeftExpire s = _
  rw [execHoldLeftExpire, if_pos ⟨h, h0⟩]

theorem extGmLost_noted (h : s.time.state = .root) (hg : s.fld Reg.ddlCfg_gmSource = 1) :
    exec .extGmLost s = .next (s.setFld Reg.ddlStatus_extLost 1) := by
  show execExtGmLost s = _
  rw [execExtGmLost, if_pos ⟨h, hg⟩]

end

/-- Settles O31: each timeout's guard is met; LOST takes the die OUT_OF_STEP, which leaves its time as it is. -/
theorem timeTimeoutsComplete : Obligations.TimeTimeoutsComplete := fun _ =>
  ⟨fun p hv => ⟨if_pos hv, sourceGone_valid p, sourceGone_state p, sourceGone_moves⟩, acquireTimeout_slow,
    fun h h0 => ⟨holdLeftExpire_lost h h0, fun _ => ⟨enterLost_state, enterLost_dieState⟩⟩, extGmLost_noted⟩

/-! ### Beat exchange (R147 to R149) -/

section
variable {s : State} {n : Nat} {mk : Marker} (hd : s.ddlOn = true) (hl : s.linkUp n = true)
include hd hl

section
variable (hk : markerLink n = true)
include hk

theorem beatMarker_guard : ¬ (!(s.ddlOn && markerLink n && s.linkUp n)) = true := by
  simp [hd, hl, hk]

/-- The state of a marker's arrival: it is acknowledged, its FRAMES are compared, and the count of frames begins again. -/
def markerNoted (s : State) (n : Nat) (mk : Marker) : State :=
  let l := s.lnk n
  let a := s.emit (.marker n true { beat := mk.beat, tstate := s.time.state.code, frames := l.rcvd, skew := mk.arrival })
  (if mk.frames ≠ l.rcvd then a.count (Reg.linkBeat_frameMismatch n) 1 else a).updLnk n (fun l => { l with rcvd := 0, peerT := mk.tstate })

/-- A marker outside its beat counts as late, and not as missing. -/
def markerLate (s : State) (n : Nat) (mk : Marker) : State :=
  let next := mk.beat == (s.beat + 1) % 2 ^ 32
  ((markerNoted s n mk).count (Reg.linkBeat_ackLate n) 1).updLnk n (fun l => { l with
    offBeat := l.offBeat + 1, early := l.early || next, missed := if next then l.missed else l.missed - 1 })

theorem beatMarker_eq : exec (.beatMarker n mk) s = if mk.beat = s.beat % 2 ^ 32 then
      .next ((markerNoted s n mk).updLnk n (fun l => { l with markIn := true, offBeat := 0, missed := 0 }))
    else if 4 ≤ (s.lnk n).offBeat + 1 then .next (beatEvent (markerLate s n mk) n mk.beat) else .next (markerLate s n mk) :=
  if_neg (beatMarker_guard hd hl hk)

end

section
variable (he : s.exchanges n = true)
include he

theorem beatExchange_guard : ¬ (!(s.ddlOn && s.exchanges n && s.linkUp n)) = true := by
  simp [hd, hl, he]

theorem beatAck_unawaited (h : ∀ b ∈ (s.lnk n).acks, b % 2 ^ 32 ≠ mk.beat % 2 ^ 32) : exec (.beatAck n mk) s = .next s := by
  have hf : (s.lnk n).acks.find? (fun b => b % 2 ^ 32 == mk.beat % 2 ^ 32) = none := by
    rw [List.find?_eq_none]
    exact fun b hb => by simpa using h b hb
  show execBeatAck n mk s = _
  simp only [execBeatAck, if_neg (beatExchange_guard hd hl he), hf]

/-- An acknowledgement that a marker waits for is late from boundary `b + 2` on. -/
theorem beatAck_awaited {b : Nat} (hb : (s.lnk n).acks.find? (fun b => b % 2 ^ 32 == mk.beat % 2 ^ 32) = some b) :
    let t := s.updLnk n (fun l => { l with acks := l.acks.filter (fun x => x != b) })
    let sent := if b = s.beat then (s.lnk n).sentPrev else (s.lnk n).sentPrev2
    exec (.beatAck n mk) s = if b + 2 ≤ s.beat then .next (beatEvent (t.count (Reg.linkBeat_ackLate n) 1) n mk.beat)
      else .next ((if mk.frames ≠ sent then t.count (Reg.linkBeat_frameMismatch n) 1 else t).updLnk n (fun l =>
        { l with peerT := if markerLink n then mk.tstate else l.peerT })) := by
  show execBeatAck n mk s = _
  simp only [execBeatAck, if_neg (beatExchange_guard hd hl he), hb]

theorem beatAckTimeout_missingAck {b : Nat} (hb : (s.lnk n).acks.find? (fun b => decide (b + 2 ≤ s.beat)) = some b) :
    exec (.beatAckTimeout n 0) s = .next (beatEvent ((s.updLnk n (fun l =>
      { l with acks := l.acks.filter (fun x => x != b) })).count (Reg.linkBeat_ackLate n) 1) n b) := by
  show execBeatAckTimeout n 0 s = _
  simp only [execBeatAckTimeout, if_neg (beatExchange_guard hd hl he), hb]

theorem beatAckTimeout_noneDue (h : ∀ b ∈ (s.lnk n).acks, s.beat < b + 2) : exec (.beatAckTimeout n 0) s = .next s := by
  have hf : (s.lnk n).acks.find? (fun b => decide (b + 2 ≤ s.beat)) = none := by
    rw [List.find?_eq_none]
    exact fun b hb => by simpa using h b hb
  show execBeatAckTimeout n 0 s = _
  simp only [execBeatAckTimeout, if_neg (beatExchange_guard hd hl he), hf]

theorem beatAckTimeout_missingMarkers (hk : markerLink n = true) (h : 2 ≤ (s.lnk n).missed) :
    exec (.beatAckTimeout n 1) s = .next (beatEvent s n (s.beat - 1)) := by
  show execBeatAckTimeout n 1 s = _
  simp [execBeatAckTimeout, hd, hl, he, hk, h]

theorem beatAckTimeout_lateMarkers (hk : markerLink n = true) (h : 4 ≤ (s.lnk n).offBeat) :
    exec (.beatAckTimeout n 2) s = .next (beatEvent s n s.beat) := by
  show execBeatAckTimeout n 2 s = _
  simp [execBeatAckTimeout, hd, hl, he, hk, h]

end
end

/-- Settles O32: on a link in service that exchanges beats, what decides is whether the marker comes in its beat, or how many were
late before; and whether the acknowledged marker waits, and since when. -/
theorem beatExchangeCompletes : Obligations.BeatExchangeCompletes := by
  intro s n mk hd hl
  refine ⟨fun hk => ⟨fun hb => ?_, fun hb h3 => ?_, fun hb h3 => ?_⟩,
    fun he => ⟨beatAck_unawaited hd hl he, fun b hb => ⟨fun h => ?_, fun h => ?_⟩⟩,
    fun he => ⟨fun b => beatAckTimeout_missingAck hd hl he, beatAckTimeout_noneDue hd hl he, beatAckTimeout_missingMarkers hd hl he,
      beatAckTimeout_lateMarkers hd hl he⟩⟩
  · exact (beatMarker_eq hd hl hk).trans (if_pos hb)
  · exact (beatMarker_eq hd hl hk).trans ((if_neg hb).trans (if_neg (by omega)))
  · exact (beatMarker_eq hd hl hk).trans ((if_neg hb).trans (if_pos (by omega)))
  · exact (beatAck_awaited hd hl he hb).trans (if_pos h)
  · exact (beatAck_awaited hd hl he hb).trans (if_neg (by omega))

end Sys2Proof.Machine
end

section
/-! The beat boundary, the start of serving and the end of draining (R128, R137 to R149, R207, R332, R333). -/

namespace Sys2Proof.Machine

section
variable {s : State}

/-- An interrupt bit that rises is the one field it changes: every other register's fields read as before. -/
theorem fld_raiseInt {x : Fld} {b : Nat} (hx : x.reg ≠ 0x10014) : (raiseInt s b).fld x = s.fld x := by
  rw [raiseInt]
  split
  · exact (congrArg (fun w => fget w x.lo x.n) (word_intCause (s.setFld (intBit b) 1) b x.reg)).trans (fld_setFld_other hx)
  · exact fld_setFld_other hx

/-! ### The end of draining (R333) -/

theorem dieState_jobDone (m k st : Nat) (d : List Byte) : (jobDone s m k st d).dieState = s.dieState := by rw [jobDone_eq]

theorem fld_jobDone {x : Fld} (hx : x.reg ≠ 0x10014) (m k st : Nat) (d : List Byte) : (jobDone s m k st d).fld x = s.fld x := by
  unfold jobDone
  split
  · dsimp only
    split
    · split <;> rfl
    · exact fld_raiseInt hx
  · rfl

theorem dieState_drainEnds : (drainEnds s).dieState = s.dieState := foldl_keeps (fun _ _ => dieState_jobDone _ _ _ _) _ s

theorem fld_drainEnds {x : Fld} (hx : x.reg ≠ 0x10014) : (drainEnds s).fld x = s.fld x :=
  foldl_keeps (g := fun t => t.fld x) (fun _ _ => fld_jobDone hx _ _ _ _) _ s

theorem firing_stopFiring (h : s.sound) : (stopFiring s).fld Reg.schedStatus_firing = 0 := by
  obtain ⟨hcsr, -, -⟩ := h
  exact fld_setFld_same (x := Reg.schedStatus_firing) hcsr (by decide)

/-- A drained die fires nothing. -/
theorem firing_drained (h : s.sound) (d : DieState) : (drainEnds (enterState (stopFiring s) d)).fld Reg.schedStatus_firing = 0 := by
  have hreg : Reg.schedStatus_firing.reg ≠ 0x10014 := by decide
  rw [fld_drainEnds hreg, enterState, fld_raiseInt hreg]
  exact firing_stopFiring h

/-! ### The start of serving (R332) -/

section
variable {b : Nat} (hb : s.sched.startAt = some b) (hle : b ≤ s.beat) (hi : s.installed = true)
include hb hle hi

/-- From START_BEAT on an installed die serves by the state that it is in. -/
theorem serveBegin_reached : exec .serveBegin s =
    if s.dieState = .loaded then .next (enterState (beginFiring s b) .serving)
    else if s.dieState = .holdover ∧ s.left = .loaded then .next { beginFiring s b with left := .serving }
    else .next s := by
  show execServeBegin s = _
  simp only [execServeBegin, hb]
  exact if_neg (by simp [hi, hle])

theorem serveBegin_loaded (hs : s.dieState = .loaded) : exec .serveBegin s = .next (enterState (beginFiring s b) .serving) :=
  (serveBegin_reached hb hle hi).trans (if_pos hs)

/-- A die in HOLDOVER that remembers LOADED fires, and remembers SERVING. -/
theorem serveBegin_holdover (hs : s.dieState = .holdover) (hleft : s.left = .loaded) :
    exec .serveBegin s = .next { beginFiring s b with left := .serving } :=
  (serveBegin_reached hb hle hi).trans ((if_neg (by simp [hs])).trans (if_pos ⟨hs, hleft⟩))

end
end

/-- Settles O58: the three guards are met; ending the DRAIN jobs touches neither the die state nor SCHED_STATUS nor memory. -/
theorem beatGridCompletes : Obligations.BeatGridCompletes := fun _ =>
  ⟨fun hs => if_neg hs, ⟨rfl, rfl⟩,
    fun _ hb hle hi => ⟨fun hs => ⟨serveBegin_loaded hb hle hi hs, dieState_enterState _⟩, serveBegin_holdover hb hle hi⟩,
    fun hs hq => ⟨if_pos ⟨hs, hq⟩, dieState_drainEnds.trans (dieState_enterState _), fun h => firing_drained h _,
      mem_drainEnds (mem_enterState (mem_stopFiring rfl))⟩⟩

end Sys2Proof.Machine
end

section
/-! The sequence table's events beside the results: the map of a step, the commit of the oldest step, a deadline, and the stores that
land in the directory (R165, R275, R279, R281 to R283, R286, R293). -/

namespace Sys2Proof.Machine

section
variable {s : State}

/-- A plan entry's step lasts one beat at least. -/
theorem planBeats_pos (e : Nat) : 0 < planBeats e := Nat.succ_pos _

/-! ### Maps and commits (R165, R275, R279) -/

/-- An entry field's map that is not written yet is written at the latest a beat before its step, and at the earliest two steps before. -/
theorem vectorMapWrite_inTime {f n b : Nat} (hb : s.stepBegin f n = some b) (he : s.isEntry f = true) (hen : s.fld Reg.seqCfg_en = 1)
    (hnew : n ∉ s.seqs.maps) (hlast : s.beat * 5120 + s.cyc ≤ (b - 1) * 5120) (hfirst : b ≤ s.beat + 2 * planBeats (s.plan f)) :
    exec (.vectorMapWrite f n) s = .next (pumpAll (writeMap s f n b)) := by
  show execVectorMapWrite f n s = _
  simp only [execVectorMapWrite, hb]
  exact if_neg (by simp [he, hen, hnew, Nat.not_lt.2 hlast, Nat.not_lt.2 hfirst])

/-- The end of the return step commits the oldest step, whether or not its records have landed. -/
theorem seqCommit_returnEnded {p f : Nat} (hp : (s.seqs.places.map (fun p => p.step)).min? = some p) (hfire : s.firing = true)
    (hf : s.entryField = some f)
    (hend : s.startBeat + (p + s.seqs.lag) * planBeats (s.plan f) + planBeats (s.plan f) ≤ s.beat) :
    exec .seqCommit s = .next (commitStep s true p (p + s.seqs.lag)) := by
  show execSeqCommit s = _
  have hbegun := Nat.lt_of_lt_of_le (Nat.lt_add_of_pos_right (planBeats_pos (s.plan f))) hend
  simp only [execSeqCommit, hp, hfire, hf, Bool.not_true, Bool.false_eq_true, if_false]
  exact if_pos ⟨hbegun, .inr hend⟩

/-! ### Deadlines (R293) -/

theorem deadlineExpire_reached {i : Nat} (ha : (s.seq i).alive = true) (hc : (s.seq i).contLate = false) (h0 : (s.seq i).deadline ≠ 0)
    (hd : (s.seq i).deadline ≤ s.beat * 2048) (hp : ∀ p ∈ s.seqs.places, p.idx ≠ i) :
    exec (.deadlineExpire i) s = .next (pumpAll (endSeq s i 3)) := by
  have hflight : s.seqs.places.any (fun p => p.idx == i) = false := List.any_eq_false.2 (fun p hm => by simp [hp p hm])
  exact if_pos (by simp [ha, hc, h0, hd, hflight])

/-! ### Stores in the directory (R282, R283, R286) -/

section
variable {i : Nat} (hh : s.dirHere i = true)
include hh

theorem dirBind_unbound (hb : deBound (s.dirEntry i) = false) (hr : deRelease (s.dirEntry i) = false) (hg : deGen (s.dirEntry i) ≠ 0) :
    exec (.dirBind i) s = .next (bindEntry s i) :=
  if_pos (by simp [hh, hb, hr, hg])

theorem dirRelease_bound (hb : deBound (s.dirEntry i) = true) (hr : deRelease (s.dirEntry i) = true) (hq : s.parkReqs i = false) :
    exec (.dirRelease i) s = .next (releaseEntry s i) :=
  if_pos (by simp [hh, hb, hr, hq])

section
variable (hb : deBound (s.dirEntry i) = true) (hr : deRelease (s.dirEntry i) = false)
include hb hr

theorem dirLength_home (hm : deHome (s.dirEntry i) = true) : exec (.dirLength i) s = .next (allocatePages s i) :=
  if_pos (by simp [hh, hb, hr, hm])

/-- A bound entry that is not moving parks with PARK while its frames are at home, and comes back without it while they are not. -/
theorem dirPark_still (hp : s.parkingOf i = false) : exec (.dirPark i) s =
    if (dePark (s.dirEntry i) && deHome (s.dirEntry i)) = true then .next (pumpAll (startPark s i))
    else if (!dePark (s.dirEntry i) && !deHome (s.dirEntry i)) = true then .next (pumpAll (startUnpark s i))
    else .next s :=
  if_neg (by simp [hh, hb, hr, hp])

theorem dirPark_home (hp : s.parkingOf i = false) (hk : dePark (s.dirEntry i) = true) (hm : deHome (s.dirEntry i) = true) :
    exec (.dirPark i) s = .next (pumpAll (startPark s i)) :=
  (dirPark_still hh hb hr hp).trans (if_pos (by simp [hk, hm]))

theorem dirPark_away (hp : s.parkingOf i = false) (hk : dePark (s.dirEntry i) = false) (hm : deHome (s.dirEntry i) = false) :
    exec (.dirPark i) s = .next (pumpAll (startUnpark s i)) :=
  (dirPark_still hh hb hr hp).trans ((if_neg (by simp [hk])).trans (if_pos (by simp [hk, hm])))

end
end
end

/-- Settles O57: each event meets the guards before its effect; a return step that has ended has begun, as a step lasts one beat at
least, and PARK and HOME, equal in both clauses, say which way the frames move. -/
theorem sequenceEventsComplete : Obligations.SequenceEventsComplete := fun _ =>
  ⟨fun _ _ _ => vectorMapWrite_inTime, fun _ _ => seqCommit_returnEnded, fun _ => deadlineExpire_reached,
    fun _ hh => ⟨dirBind_unbound hh, dirLength_home hh,
      fun hb hr hp => ⟨dirPark_home hh hb hr hp, dirPark_away hh hb hr hp⟩, dirRelease_bound hh⟩⟩

end Sys2Proof.Machine
end

section
/-! Links: what the commands of link training and of the identity exchange leave as it is (R176 to R191). -/

namespace Sys2Proof.Machine

/-! ### What the link commands leave as it is -/

/-- The state without what a link command may change: registers, links, faults, sent messages, and what reports a change of state. -/
@[irreducible] def linkless (s : State) : State := { s with csr := [], links := [], faults := [], out := [], intWin := [], healthEv := 0 }

/-- Two states that agree without those parts differ in nothing else. -/
theorem eq_of_linkless {s t : State} (h : linkless t = linkless s) :
    t = { s with csr := t.csr, links := t.links, faults := t.faults, out := t.out, intWin := t.intWin, healthEv := t.healthEv } := by
  unfold linkless at h
  exact congrArg (fun u : State => { u with
    csr := t.csr, links := t.links, faults := t.faults, out := t.out, intWin := t.intWin, healthEv := t.healthEv }) h

/-- Every next state of the outcome is `s` but for those parts. -/
def KeepsLinkless (s : State) (o : Host.Outcome State Fault Refusal) : Prop := ∀ t, o = .next t → linkless t = linkless s

/-- What both branches of a choice agree on, the choice has. -/
theorem linkless_ite {a b r : State} {c : Prop} [Decidable c] (ha : linkless a = r) (hb : linkless b = r) :
    linkless (if c then a else b) = r := by
  split
  · exact ha
  · exact hb

section
variable {s t : State} {c : Prop} [Decidable c] {o o' : Host.Outcome State Fault Refusal}

theorem keepsLinkless_next (h : linkless t = linkless s) : KeepsLinkless s (.next t) := fun _ e => Host.Outcome.next.inj e ▸ h

theorem keepsLinkless_same : KeepsLinkless s (.next s) := keepsLinkless_next rfl

theorem keepsLinkless_ite (h : KeepsLinkless s o) (h' : KeepsLinkless s o') : KeepsLinkless s (if c then o else o') := by
  split
  · exact h
  · exact h'

end

section
variable {s : State} {n : Nat}

/-! One equation for each operation that the link commands share. -/

@[simp] theorem linkless_setWord (o : Nat) (w : Word) : linkless (s.setWord o w) = linkless s := by unfold linkless; rfl
@[simp] theorem linkless_setFld (x : Fld) (v : Nat) : linkless (s.setFld x v) = linkless s := by unfold linkless; rfl
@[simp] theorem linkless_count (x : Fld) (k : Nat) : linkless (s.count x k) = linkless s := by unfold linkless; rfl
@[simp] theorem linkless_updLnk (g : Link → Link) : linkless (s.updLnk n g) = linkless s := by unfold linkless; rfl
@[simp] theorem linkless_emit (m : Msg) : linkless (s.emit m) = linkless s := by unfold linkless; rfl
@[simp] theorem linkless_recordNbr (h : Hello) : linkless (recordNbr s n h) = linkless s := by
  simp only [recordNbr, linkless_setFld]

@[simp] theorem linkless_raiseInt (b : Nat) : linkless (raiseInt s b) = linkless s := by
  rw [raiseInt_eq]
  unfold linkless
  rfl

@[simp] theorem linkless_setFaults (l : List FaultRec) : linkless { s with faults := l } = linkless s := by unfold linkless; rfl

@[simp] theorem linkless_setHealthEv (v : Nat) : linkless { s with healthEv := v } = linkless s := by unfold linkless; rfl

/-- A fault is merged into the log's newest record, or becomes a new one (R384, R385). -/
theorem recordFault_cases (s : State) (cls cause dom kind locus : Nat) (ctx : FaultCtx) (syn : List Byte) :
    (∃ l, recordFault s cls cause dom kind locus ctx syn = { s with faults := l }) ∨
      recordFault s cls cause dom kind locus ctx syn = recordFault.new s cls cause dom kind locus ctx syn := by
  unfold recordFault
  split
  · split
    · exact .inl ⟨_, rfl⟩
    · exact .inr rfl
  · exact .inr rfl

@[simp] theorem linkless_recordFault (cls cause dom kind locus : Nat) (ctx : FaultCtx) (syn : List Byte) :
    linkless (recordFault s cls cause dom kind locus ctx syn) = linkless s := by
  obtain ⟨l, h⟩ | h := recordFault_cases s cls cause dom kind locus ctx syn
  · rw [h, linkless_setFaults]
  · simp [h, recordFault.new, apply_ite linkless]

/-- Fields set one lane after the other. -/
@[simp] theorem linkless_setLanes (x : Nat → Fld) (v : Nat → Nat) (l : List Nat) :
    linkless (l.foldl (fun t i => t.setFld (x i) (v i)) s) = linkless s :=
  foldl_keeps (g := linkless) (fun _ i => linkless_setFld (x i) (v i)) l s

@[simp] theorem linkless_dropLanes : linkless (dropLanes s n) = linkless s := by simp [dropLanes, apply_ite linkless]

@[simp] theorem linkless_setLink (st : LinkState) : linkless (setLink s n st) = linkless s := by
  simp [setLink, apply_ite linkless]

@[simp] theorem linkless_startTraining : linkless (startTraining s n) = linkless s := by simp [startTraining, apply_ite linkless]

@[simp] theorem linkless_retrainLink : linkless (retrainLink s n) = linkless s :=
  linkless_ite linkless_startTraining (linkless_setLink _)

@[simp] theorem linkless_rowState (r : Nat) (ok : LinkState → Bool) : linkless (rowState s n r ok) = linkless s := by
  unfold rowState
  split
  · exact linkless_ite (by simp) rfl
  · rfl

@[simp] theorem linkless_rowTook (r : Nat) (t : State) : linkless (rowTook s n r t) = linkless t := linkless_updLnk _

/-- The lanes of a finished training: UCIe has none to choose, a port may have too few. -/
@[simp] theorem linkless_takeLanes (good delay : Nat) : linkless (takeLanes s n good delay).1 = linkless s := by
  unfold takeLanes
  split
  · exact linkless_setFld _ _
  · dsimp only
    split
    · exact linkless_setFld _ _
    · simp

@[simp] theorem linkless_quarantine (cause : Nat) (h : Option Hello) : linkless (quarantine s n cause h) = linkless s := by
  cases h <;> simp [quarantine]

@[simp] theorem linkless_helloIdentify (h : Hello) : linkless (helloIdentify s n h) = linkless s := by
  simp [helloIdentify, apply_ite linkless]

@[simp] theorem linkless_aligned (good delay : Nat) : linkless (aligned s n good delay) = linkless s := by simp [aligned]

@[simp] theorem linkless_laneFail (lane : Nat) : linkless (laneFail s n lane) = linkless s := linkless_ite (by simp) rfl

end

/-! ### The frame of the link commands -/

section
variable (s : State) (n : Nat)

theorem pcsAligned_keepsLinkless (good delay : Nat) : KeepsLinkless s (exec (.pcsAligned n good delay) s) := by
  show KeepsLinkless s (execPcsAligned n good delay s)
  unfold execPcsAligned
  exact keepsLinkless_ite (keepsLinkless_next (by simp)) (keepsLinkless_next (linkless_rowState _ _))

theorem phyTrainTimeout_keepsLinkless : KeepsLinkless s (exec (.phyTrainTimeout n) s) :=
  keepsLinkless_ite (c := (s.lnk n).state = .phyTrain) (keepsLinkless_next (by simp)) keepsLinkless_same

theorem downRetry_keepsLinkless : KeepsLinkless s (exec (.downRetry n) s) :=
  keepsLinkless_ite (c := (s.lnk n).state = .down) (keepsLinkless_next linkless_startTraining) keepsLinkless_same

theorem laneFail_keepsLinkless (lane : Nat) : KeepsLinkless s (exec (.laneFail n lane) s) := keepsLinkless_next (linkless_laneFail lane)

/-- A fast retrain that has ended, with the row that gives way to it taken back first. -/
theorem fastRetrainDone_keepsLinkless (ok : Bool) (good delay : Nat) : KeepsLinkless s (exec (.fastRetrainDone n ok good delay) s) := by
  show KeepsLinkless s (execFastRetrainDone n ok good delay s)
  unfold execFastRetrainDone
  extract_lets u r
  have hu : linkless u = linkless s := linkless_ite (linkless_rowState _ _) rfl
  have hr : linkless r.1 = linkless s := (linkless_takeLanes _ _).trans hu
  refine keepsLinkless_ite (keepsLinkless_ite (keepsLinkless_next ?_) (keepsLinkless_next ?_)) (keepsLinkless_next hu)
  · exact (linkless_rowTook _ _).trans (linkless_ite (by simpa using hr) (by simpa using hr))
  · exact (linkless_rowTook _ _).trans (linkless_startTraining.trans hu)

theorem ucieRepairFail_keepsLinkless : KeepsLinkless s (exec (.ucieRepairFail n) s) := by
  show KeepsLinkless s (execUcieRepairFail n s)
  unfold execUcieRepairFail
  exact keepsLinkless_ite (keepsLinkless_next linkless_startTraining) keepsLinkless_same

theorem helloSend_keepsLinkless : KeepsLinkless s (exec (.helloSend n) s) := by
  show KeepsLinkless s (execHelloSend n s)
  unfold execHelloSend
  exact keepsLinkless_ite (keepsLinkless_next (linkless_emit _)) keepsLinkless_same

theorem hello_keepsLinkless (b : List Byte) : KeepsLinkless s (exec (.hello n b) s) := by
  show KeepsLinkless s (execHello n b s)
  unfold execHello
  extract_lets h st u
  have hu : linkless u = linkless s := linkless_rowState _ _
  refine keepsLinkless_ite keepsLinkless_same (keepsLinkless_ite (keepsLinkless_next (linkless_count _ _)) ?_)
  split
  · exact keepsLinkless_next ((linkless_helloIdentify h).trans hu)
  · exact keepsLinkless_next ((linkless_updLnk _).trans hu)
  · exact keepsLinkless_next hu

theorem helloTimeout_keepsLinkless : KeepsLinkless s (exec (.helloTimeout n) s) := by
  show KeepsLinkless s (execHelloTimeout n s)
  unfold execHelloTimeout
  exact keepsLinkless_ite (keepsLinkless_next ((linkless_rowTook _ _).trans (linkless_quarantine _ _))) keepsLinkless_same

theorem epochWaitTimeout_keepsLinkless : KeepsLinkless s (exec (.epochWaitTimeout n) s) := by
  show KeepsLinkless s (execEpochWaitTimeout n s)
  unfold execEpochWaitTimeout
  split
  · exact keepsLinkless_ite (keepsLinkless_next ((linkless_rowTook _ _).trans (linkless_quarantine _ _))) keepsLinkless_same
  · exact keepsLinkless_same

theorem linkAdmit_keepsLinkless : KeepsLinkless s (exec (.linkAdmit n) s) :=
  keepsLinkless_ite (c := admissible s n = true) (keepsLinkless_next ((linkless_setLink _).trans (linkless_setFld _ _)))
    keepsLinkless_same

end

/-- Settles O37: each command changes nothing but those parts, by the branches of its meaning. -/
theorem linkCommandsFrame : Obligations.LinkCommandsFrame := by
  intro s t n lane good delay ok b c hc h
  have hall : ∀ c ∈ [Instr.pcsAligned n good delay, .phyTrainTimeout n, .downRetry n, .laneFail n lane, .fastRetrainDone n ok good delay,
      .ucieRepairFail n, .helloSend n, .hello n b, .helloTimeout n, .epochWaitTimeout n, .linkAdmit n], KeepsLinkless s (exec c s) := by
    simp only [List.forall_mem_cons]
    exact ⟨pcsAligned_keepsLinkless s n good delay, phyTrainTimeout_keepsLinkless s n, downRetry_keepsLinkless s n,
      laneFail_keepsLinkless s n lane, fastRetrainDone_keepsLinkless s n ok good delay, ucieRepairFail_keepsLinkless s n,
      helloSend_keepsLinkless s n, hello_keepsLinkless s n b, helloTimeout_keepsLinkless s n, epochWaitTimeout_keepsLinkless s n,
      linkAdmit_keepsLinkless s n, List.forall_mem_nil _⟩
  exact eq_of_linkless (hall c hc t h)

end Sys2Proof.Machine
end

section
/-! The identity exchange: the bytes of a HELLO, what a HELLO in IDENTIFY leads to, and the events of training and admission under their
conditions (R174, R176, R180 to R191, R298, Tables 9.4 to 9.7). -/

namespace Sys2Proof.Machine

/-! ### The 72 bytes of a HELLO (R185, Table 9.5) -/

/-- A field at the front of a byte string. -/
theorem fieldAt_leBytes_append {w v : Nat} {y : List Byte} : fieldAt (leBytes w v ++ y) 0 w = v % 256 ^ w := by
  rw [fieldAt_append_left (by simp), fieldAt_leBytes]

/-- A slice that begins behind the first part of a byte string. -/
theorem slice_append_right {x y : List Byte} {o n : Nat} (h : x.length ≤ o) : slice (x ++ y) o n = slice y (o - x.length) n := by
  unfold slice
  rw [List.drop_append, List.drop_eq_nil_of_le h, List.nil_append]

/-- A slice that is the first part of a byte string. -/
theorem slice_append_left {x y : List Byte} {n : Nat} (h : x.length = n) : slice (x ++ y) 0 n = x := by
  simp [slice, ← h]

/-- A string of the slice's length is the whole slice. -/
theorem slice_whole {x : List Byte} {n : Nat} (h : x.length = n) : slice x 0 n = x := by
  simp [slice, ← h]

theorem length_slice (x : List Byte) (o n : Nat) : (slice x o n).length = n := by
  unfold slice
  rw [List.length_append, List.length_replicate, List.length_take]
  omega

theorem length_helloBytes (h : Hello) : (helloBytes h).length = 72 := by
  unfold helloBytes
  simp [length_slice]

/-- FLAGS gives PEER_OK, QUAR and SWITCH back, and sets no reserved bit. -/
theorem helloFlags_read (p q w : Bool) : let f := b2n p + 2 * b2n q + 4 * b2n w
    hasBit f 0 = p ∧ hasBit f 1 = q ∧ hasBit f 2 = w ∧ f < 8 := by
  revert p q w
  decide

/-- Every field of the HELLO fits the bytes and bits that Table 9.5 gives it, and it sets no reserved bit. -/
structure HelloFits (h : Hello) : Prop where
  kind     : h.kind < 256
  fpvMin   : h.fpvMin < 256
  fpvMax   : h.fpvMax < 256
  dieId    : h.dieId < 262144
  port     : h.port < 256
  lanes    : h.goodLanes < 16
  romRev   : h.romRev < 2 ^ 32
  patch    : h.patch < 2 ^ 32
  epoch    : h.mapEpoch < 2 ^ 32
  expDie   : h.expDie < 262144
  expPort  : h.expPort < 256
  tstate   : h.tstate < 256
  digest   : h.mapDigest.length = 32
  modelGen : h.modelGen < 2 ^ 32
  resv     : h.resvBits = false

/-- Each field lies behind the fields before it, and its value fits its bytes. -/
theorem readHello_helloBytes {h : Hello} (hfits : HelloFits h) : readHello (helloBytes h) = h := by
  obtain ⟨hkind, hmin, hmax, hdie, hport, hgood, hrom, hpatch, hepoch, hxdie, hxport, htime, hdigest, hgen, hresv⟩ := hfits
  obtain ⟨hpeerOk, hquar, hswitch, hflags⟩ := helloFlags_read h.peerOk h.quar h.isSwitch
  have hword {v w : Nat} (hv : v < w) (hw : w ≤ 2 ^ 32 := by decide) : v % 4294967296 = v := Nat.mod_eq_of_lt (Nat.lt_of_lt_of_le hv hw)
  have hbyte {v w : Nat} (hv : v < w) (hw : w ≤ 256 := by decide) : v % 256 = v := Nat.mod_eq_of_lt (Nat.lt_of_lt_of_le hv hw)
  unfold readHello
  rw [length_helloBytes]
  unfold helloBytes
  simp only [List.append_assoc]
  rw [slice_whole hdigest]
  simp [fieldAt_append_right, fieldAt_leBytes_append, fieldAt_leBytes, slice_append_right, slice_append_left hdigest, hdigest]
  simp only [hbyte hkind, hbyte hmin, hbyte hmax, hbyte hport, hbyte hgood, hbyte hxport, hbyte htime, hbyte hflags, hword hdie, hword hxdie,
    hword hrom, hword hpatch, hword hepoch, hword hgen]
  simp only [hpeerOk, hquar, hswitch, decide_eq_false (Nat.not_le.2 hflags), decide_eq_false (Nat.not_le.2 hdie),
    decide_eq_false (Nat.not_le.2 hgood), decide_eq_false (Nat.not_le.2 hxdie), Bool.or_false]
  rw [← hresv]

/-! ### How links and their registers read after a change -/

section
variable {s : State} {n : Nat} {x : Fld}

theorem lnk_updLnk {g : Link → Link} (h : n < s.links.length) : (s.updLnk n g).lnk n = g (s.lnk n) :=
  (getAt_updAt h).trans (if_pos rfl)

@[simp] theorem length_links_updLnk (m : Nat) (g : Link → Link) : (s.updLnk m g).links.length = s.links.length := length_updAt

theorem links_ite {a b : State} {r : List Link} {c : Prop} [Decidable c] (ha : a.links = r) (hb : b.links = r) :
    (if c then a else b).links = r := by
  split
  · exact ha
  · exact hb

@[simp] theorem links_raiseInt (b : Nat) : (raiseInt s b).links = s.links := by rw [raiseInt_eq]

@[simp] theorem links_dropLanes : (dropLanes s n).links = s.links := by
  have hlanes (t : State) : ((List.range 4).foldl (fun t l => t.setFld (Reg.laneStat_locked n l) 0) t).links = t.links :=
    foldl_keeps (g := State.links) (fun t l => setFld_links t (Reg.laneStat_locked n l) 0) _ t
  simp [dropLanes, apply_ite State.links, hlanes]

/-- A fault's record leaves every link as it is. -/
@[simp] theorem links_recordFault (cls cause dom kind locus : Nat) (ctx : FaultCtx) (syn : List Byte) :
    (recordFault s cls cause dom kind locus ctx syn).links = s.links := by
  obtain ⟨l, h⟩ | h := recordFault_cases s cls cause dom kind locus ctx syn
  · rw [h]
  · rw [h, recordFault.new, links_raiseInt]
    split <;> rfl

@[simp] theorem links_recordNbr (h : Hello) : (recordNbr s n h).links = s.links := by
  unfold recordNbr
  rw [setFld_links, setFld_links, setFld_links, setFld_links]

theorem lnk_congr {t : State} (h : t.links = s.links) : t.lnk n = s.lnk n := congrArg (fun l => getAt noLink l n) h

/-- A change of state moves the one link, where it is not in that state already. -/
theorem links_setLink (st : LinkState) : setLink s n st = s ∧ (s.lnk n).state = st ∨
    ∃ g, (setLink s n st).links = updAt s.links n g ∧ ∀ l, (g l).state = st := by
  unfold setLink
  extract_lets old ev ev' s1 s2 s3 s4 s5
  split
  case isTrue h => exact .inl ⟨rfl, h⟩
  case isFalse =>
    have h3 : s3.links = s2.links := links_ite rfl (setFld_links ..)
    have h4 : s4.links = s2.links := links_ite ((setFld_links ..).trans h3) h3
    have h5 : s5.links = s2.links := links_ite (links_dropLanes.trans h4) h4
    exact .inr ⟨_, (links_raiseInt 12).trans h5, fun _ => rfl⟩

@[simp] theorem length_links_setLink (st : LinkState) : (setLink s n st).links.length = s.links.length := by
  obtain ⟨hsame, -⟩ | ⟨g, hlinks, -⟩ := links_setLink (s := s) (n := n) st
  · rw [hsame]
  · rw [hlinks, length_updAt]

/-- A link that is moved to a state is in it. -/
theorem state_setLink (st : LinkState) (hn : n < s.links.length) : ((setLink s n st).lnk n).state = st := by
  obtain ⟨hsame, hst⟩ | ⟨g, hlinks, hst⟩ := links_setLink (s := s) (n := n) st
  · rw [hsame, hst]
  · rw [lnk_congr (s := s.updLnk n g) hlinks, lnk_updLnk hn, hst]

/-- A row that is noted keeps the state that it led to. -/
theorem state_rowTook (r : Nat) {t : State} (hn : n < t.links.length) : ((rowTook s n r t).lnk n).state = (t.lnk n).state := by
  rw [rowTook, lnk_updLnk hn]

/-- A row that moves a link leaves it in the state that it moves it to. -/
theorem state_rowTook_setLink (r : Nat) (st : LinkState) {t : State} (hn : n < t.links.length) :
    ((rowTook s n r (setLink t n st)).lnk n).state = st := by
  rw [state_rowTook r (by rwa [length_links_setLink]), state_setLink st hn]

/-- Before a quarantined link is moved, its cause, its neighbour and its count are written. -/
theorem links_quarantine (cause : Nat) (h : Option Hello) :
    ∃ t, (quarantine s n cause h).links = (setLink t n .quarantine).links ∧ t.links = s.links := by
  refine ⟨_, links_recordFault .., ?_⟩
  rw [count_links]
  cases h with
  | none => exact setFld_links ..
  | some x => exact (links_recordNbr x).trans (setFld_links ..)

theorem state_rowTook_quarantine (r cause : Nat) (h : Option Hello) {t : State} (hn : n < t.links.length) :
    ((rowTook s n r (quarantine t n cause h)).lnk n).state = .quarantine := by
  obtain ⟨u, hlinks, hu⟩ := links_quarantine (s := t) (n := n) cause h
  have hlen : n < u.links.length := hu ▸ hn
  rw [state_rowTook r (by rwa [hlinks, length_links_setLink]), lnk_congr hlinks, state_setLink _ hlen]

/-- A later row of this beat gives way: the link is back in the state before it (R183). -/
theorem state_rowState {r k : Nat} {ok : LinkState → Bool} {st : LinkState} {w : Word} (hn : n < s.links.length)
    (hb : (s.lnk n).before = some (k, st, w)) (hr : r < k) (hok : ok st = true) : ((rowState s n r ok).lnk n).state = st := by
  simp only [rowState, hb]
  rw [if_pos ⟨hr, hok⟩, lnk_updLnk]
  rwa [setFld_links, setWord_links]

/-! QUAR_CAUSE after a quarantine -/

/-- A fault's record writes FAULT_TOTAL, FAULT_LOST and INT_STATUS, and no other register. -/
theorem fld_recordFault (htotal : x.reg ≠ Reg.faultTotal_total.reg) (hlost : x.reg ≠ Reg.faultLost_lost.reg) (hint : x.reg ≠ 0x10014)
    (cls cause dom kind locus : Nat) (ctx : FaultCtx) (syn : List Byte) :
    (recordFault s cls cause dom kind locus ctx syn).fld x = s.fld x := by
  obtain ⟨l, h⟩ | h := recordFault_cases s cls cause dom kind locus ctx syn
  · rw [h]
    rfl
  · rw [h]
    unfold recordFault.new
    extract_lets r full s1 s2 s3
    have h2 : s2.fld x = s.fld x := fld_setFld_other htotal
    rw [fld_raiseInt hint]
    unfold s3
    split
    · exact (fld_setFld_other hlost).trans h2
    · exact h2

/-- A link that enters QUARANTINE keeps what its registers say (Table 9.7). -/
theorem fld_setLink_quarantine (hx : x.reg ≠ 0x10014) : (setLink s n .quarantine).fld x = s.fld x := by
  unfold setLink
  extract_lets old ev ev' s1 s2 s3 s4 s5
  split
  · rfl
  · exact fld_raiseInt hx

theorem quarCause_recordNbr (h : Hello) : (recordNbr s n h).fld (Reg.linkStatus_quarCause n) = s.fld (Reg.linkStatus_quarCause n) := by
  unfold recordNbr
  rw [fld_setFld_other, fld_setFld_other, fld_setFld_other, fld_setFld_other] <;>
    simp [Reg.linkStatus_quarCause, Reg.nbrId_nbrDie, Reg.nbrId_nbrPort, Reg.nbrRom_romRev, Reg.nbrPatch_patchLevel]

/-- LINK_STATUS lies in a link's block, behind the fault log's registers and INT_STATUS. -/
theorem quarCause_reg (n : Nat) : 0x100000 < (Reg.linkStatus_quarCause n).reg := by
  simp [Reg.linkStatus_quarCause, linkBase]
  omega

/-- LINK_STATUS shows the cause of the quarantine (R189). -/
theorem quarCause_quarantine {cause : Nat} (hc : cause < 16) (h : Option Hello) (hs : swf regReset s.csr = true) :
    (quarantine s n cause h).fld (Reg.linkStatus_quarCause n) = cause := by
  have hreg := quarCause_reg n
  have hset : (s.setFld (Reg.linkStatus_quarCause n) cause).fld (Reg.linkStatus_quarCause n) = cause :=
    (fld_setFld_same hs (show 28 + 4 ≤ 32 by decide)).trans (Nat.mod_eq_of_lt hc)
  have hfixed {r : Nat} (hr : r ≤ 0x100000) : (Reg.linkStatus_quarCause n).reg ≠ r := Nat.ne_of_gt (Nat.lt_of_le_of_lt hr hreg)
  unfold quarantine
  rw [fld_recordFault (hfixed (by decide)) (hfixed (by decide)) (hfixed (by decide)), fld_setLink_quarantine (hfixed (by decide)),
    State.count, fld_setFld_other (by simp [Reg.linkStatus_quarCause, Reg.trainCnt_quarCnt])]
  cases h with
  | none => exact hset
  | some x => exact (quarCause_recordNbr x).trans hset

theorem fld_rowTook (r : Nat) (t : State) : (rowTook s n r t).fld x = t.fld x := rfl

end

/-! ### A HELLO in IDENTIFY (R186, R189, Table 9.6) -/

section
variable {s : State} {n : Nat} {h : Hello}

/-- The numbers of the checks are those of Table 9.6. -/
theorem helloCheck_le : helloCheck s n h ≤ 6 := by
  unfold helloCheck
  extract_lets e typ mapped near rev
  repeat' split
  all_goals decide

/-- A HELLO that is judged has named the neighbour, and is the link's latest. -/
def helloNoted (s : State) (n : Nat) (h : Hello) : State :=
  (recordNbr s n h).updLnk n (fun l => { l with peer := some h, peerT := h.tstate })

theorem length_links_helloNoted : (helloNoted s n h).links.length = s.links.length := by
  rw [helloNoted, length_links_updLnk, links_recordNbr]

theorem swf_helloNoted (hs : s.sound) : swf regReset (helloNoted s n h).csr = true := by
  obtain ⟨hcsr, -⟩ := sound_recordNbr (x1 := n) (x2 := h) (sound_of hs)
  rwa [helloNoted, updLnk_csr]

/-- QUAR decides before the checks. -/
theorem helloIdentify_quar (hq : h.quar = true) :
    helloIdentify s n h = rowTook s n 7 (quarantine (helloNoted s n h) n 7 (some h)) := if_pos hq

/-- The first check that fails quarantines, but for the check of the epoch, which waits. -/
theorem helloIdentify_failed (hq : h.quar = false) (h0 : helloCheck s n h ≠ 0) (h3 : helloCheck s n h ≠ 3) :
    helloIdentify s n h = rowTook s n 8 (quarantine (helloNoted s n h) n (helloCheck s n h) (some h)) :=
  (if_neg (by simp [hq])).trans ((if_neg h3).trans (if_pos h0))

/-- A HELLO that passes every check, from a partner that has accepted the die's. -/
theorem helloIdentify_passed (hq : h.quar = false) (hm : s.sec.map.isSome = true) (h0 : helloCheck s n h = 0) (hp : h.peerOk = true) :
    helloIdentify s n h = rowTook s n 9 (setLink (((helloNoted s n h).updLnk n (fun l => { l with accepted := true })).setFld
      (Reg.linkStatus_fpv n) (min 2 h.fpvMax)) n .probation) := by
  refine (if_neg (by simp [hq])).trans ((if_neg (by omega)).trans ((if_neg (not_not_intro h0)).trans ((if_neg ?_).trans (if_pos hp))))
  simpa using Option.isSome_iff_ne_none.1 hm

theorem helloIdentify_quarantines {r cause : Nat} (hs : s.sound) (hn : n < s.links.length) (hc : cause < 16)
    (he : helloIdentify s n h = rowTook s n r (quarantine (helloNoted s n h) n cause (some h))) :
    ((helloIdentify s n h).lnk n).state = .quarantine ∧ (helloIdentify s n h).fld (Reg.linkStatus_quarCause n) = cause := by
  rw [he, fld_rowTook]
  exact ⟨state_rowTook_quarantine r cause _ (by rwa [length_links_helloNoted]), quarCause_quarantine hc _ (swf_helloNoted hs)⟩

end

/-- Settles O36: QUAR, the first failing check and the passed checks in the order of Table 9.4; the bytes read back field by field. -/
theorem helloQuarantinesOrAdmits : Obligations.HelloQuarantinesOrAdmits := by
  refine ⟨fun s n h hs hn hlen hst => ⟨fun hq => ?_, fun hq h0 h3 => ?_, fun hq hm h0 hp => ?_⟩, ?_⟩
  · exact helloIdentify_quarantines hs (by omega) (by decide) (helloIdentify_quar hq)
  · exact helloIdentify_quarantines hs (by omega) (Nat.lt_of_le_of_lt helloCheck_le (by decide)) (helloIdentify_failed hq h0 h3)
  · rw [helloIdentify_passed hq hm h0 hp]
    refine state_rowTook_setLink 9 .probation ?_
    rw [setFld_links, length_links_updLnk, length_links_helloNoted]
    omega
  · intro h hkind hmin hmax hdie hport hgood hrom hpatch hepoch hxdie hxport htime hdigest hgen hresv
    exact ⟨length_helloBytes h, readHello_helloBytes
      ⟨hkind, hmin, hmax, hdie, hport, hgood, hrom, hpatch, hepoch, hxdie, hxport, htime, hdigest, hgen, hresv⟩⟩

/-! ### Training (R176, R180 to R184, Table 9.4) -/

section
variable {s u : State} {n good delay : Nat}

theorem pcsAligned_training (hu : u = rowState s n 2 (fun x => x == .phyTrain)) (hst : (u.lnk n).state = .phyTrain) :
    exec (.pcsAligned n good delay) s = .next (aligned u n good delay) := by
  subst hu
  exact if_pos hst

/-- Enough lanes: U4 is in service, an OPEN link goes to PROBATION, any other to IDENTIFY. -/
theorem aligned_enough (h : (takeLanes s n good delay).2 = true) : aligned s n good delay = rowTook s n 2
    (setLink (takeLanes s n good delay).1 n (if n = 12 then .inService else if s.isOpen n then .probation else .identify)) := by
  simp [aligned, h]

theorem aligned_tooFew (h : (takeLanes s n good delay).2 = false) :
    aligned s n good delay = rowTook s n 18 (setLink (takeLanes s n good delay).1 n .down) := by
  simp [aligned, h]

theorem laneFail_retrains {lane : Nat} (hst : laneFailState (s.lnk n).state = true) (hn : n < 8) (hl : lane < 4) :
    exec (.laneFail n lane) s =
      .next (retrainLink (((s.setFld (Reg.linkStatus_failedLanes n) (setBit (s.fld (Reg.linkStatus_failedLanes n)) lane)).updLnk n
        (fun l => { l with berBad := setAt l.berBad lane 0 })).setFld (Reg.laneStat_failed n lane) 1) n) :=
  congrArg Host.Outcome.next (if_pos (by simp [hst, hn, hl]))

section
variable (hu : u = rowState s n 15 (fun x => x == .retrain)) (hst : (u.lnk n).state = .retrain)
include hu hst

theorem fastRetrainDone_enough (h : (takeLanes u n good delay).2 = true) : exec (.fastRetrainDone n true good delay) s =
    .next (rowTook u n 15 (setLink ((takeLanes u n good delay).1.count (Reg.trainCnt_retrainCnt n) 1) n
      (if u.isOpen n then .probation else .identify))) := by
  subst hu
  show execFastRetrainDone n true good delay s = _
  simp [execFastRetrainDone, hst, h]

theorem fastRetrainDone_tooFew (h : (takeLanes u n good delay).2 = false) : exec (.fastRetrainDone n true good delay) s =
    .next (rowTook u n 18 (setLink (takeLanes u n good delay).1 n .down)) := by
  subst hu
  show execFastRetrainDone n true good delay s = _
  simp [execFastRetrainDone, hst, h]

end

/-- A fast retrain that fails goes on to full training. -/
theorem fastRetrainDone_failed (hst : (s.lnk n).state = .retrain) :
    exec (.fastRetrainDone n false good delay) s = .next (rowTook s n 16 (startTraining s n)) := if_pos hst

theorem ucieRepairFail_retrains (hn : 8 ≤ n) (hst : laneFailState (s.lnk n).state = true ∨ (s.lnk n).state = .retrain) :
    exec (.ucieRepairFail n) s = .next (startTraining s n) := if_pos ⟨hn, by simpa using hst⟩

theorem rowState_none {r : Nat} {ok : LinkState → Bool} (hb : (s.lnk n).before = none) : rowState s n r ok = s := by
  rw [rowState, hb]

end

/-! ### The identity exchange and admission (R185 to R191) -/

section
variable {s u : State} {n : Nat} {b : List Byte} {h : Hello}

theorem helloSend_sends (hst : (s.lnk n).state = .identify ∨ (s.lnk n).state = .quarantine ∨ (s.lnk n).state = .probation)
    (ho : s.isOpen n = false) : exec (.helloSend n) s = .next (s.emit (.hello n (helloBytes (s.helloOf n)))) :=
  if_pos (by simpa [ho, or_assoc] using hst)

section
variable (hst : laneFailState (s.lnk n).state = true)
include hst

/-- The states that a lane failure ends are those that accept a HELLO. -/
theorem hello_guard : ((s.lnk n).state != .identify && (s.lnk n).state != .quarantine && (s.lnk n).state != .probation &&
    (s.lnk n).state != .inService) = false := by
  revert hst
  cases (s.lnk n).state <;> decide

theorem hello_counted (hb : (readHello b).kind ≠ 0x10 ∨ (readHello b).resvBits = true) :
    exec (.hello n b) s = .next (s.count (Reg.trainCnt_helloBad n) 1) := by
  have hbad : ((readHello b).kind != 0x10 || (readHello b).resvBits) = true := by simpa using hb
  exact (if_neg (by simp [hello_guard hst])).trans (if_pos hbad)

section
variable (hkind : (readHello b).kind = 0x10) (hresv : (readHello b).resvBits = false)
  (hu : u = rowState s n (helloRow s n (readHello b)) (fun x => x == .identify))
include hkind hresv hu

theorem hello_judged (hi : (u.lnk n).state = .identify) : exec (.hello n b) s = .next (helloIdentify u n (readHello b)) := by
  subst hu
  show execHello n b s = _
  simp [execHello, hello_guard hst, hkind, hresv, hi]

theorem hello_refreshed (hp : (u.lnk n).state = .probation) : exec (.hello n b) s =
    .next (u.updLnk n (fun l => { l with peer := some (readHello b), peerT := (readHello b).tstate })) := by
  subst hu
  show execHello n b s = _
  simp [execHello, hello_guard hst, hkind, hresv, hp]

end
end

theorem helloTimeout_quarantines (hst : (s.lnk n).state = .identify) (hm : s.sec.map.isSome = true) (ho : s.isOpen n = false) :
    exec (.helloTimeout n) s = .next (rowTook s n 10 (quarantine s n 8 none)) := if_pos ⟨hst, hm, ho⟩

theorem epochWaitTimeout_quarantines (hp : (s.lnk n).peer = some h) (hst : (s.lnk n).state = .identify) (hm : s.sec.map.isSome = true)
    (hc : helloCheck s n h = 3) : exec (.epochWaitTimeout n) s = .next (rowTook s n 8 (quarantine s n 3 (some h))) := by
  show execEpochWaitTimeout n s = _
  rw [execEpochWaitTimeout, hp]
  exact if_pos ⟨hst, hm, hc⟩

theorem linkAdmit_admits (ha : admissible s n = true) :
    exec (.linkAdmit n) s = .next (setLink (s.setFld (Reg.linkBeat_outOfStep n) 0) n .inService) := if_pos ha

end

/-- Settles O34: each event's guard is met in the state without a later row of this beat; that state is the one before, where there is
such a row. -/
theorem linkEventsComplete : Obligations.LinkEventsComplete := by
  refine ⟨fun s n => ⟨fun good delay hst => ⟨pcsAligned_training rfl hst, aligned_enough, aligned_tooFew⟩, fun hst => if_pos hst,
    fun hst => if_pos hst, fun lane => laneFail_retrains,
    fun good delay hst => ⟨fastRetrainDone_enough rfl hst, fastRetrainDone_tooFew rfl hst⟩, fun good delay => fastRetrainDone_failed,
    ucieRepairFail_retrains, fun r ok => rowState_none, fun r ok k st w hn hb hr hok => state_rowState hn hb hr hok⟩,
    fun s n => ⟨fun hst ho => ⟨helloSend_sends hst ho, length_helloBytes _⟩, fun b => hello_counted,
      fun b hst hkind hresv => ⟨hello_judged hst hkind hresv rfl, hello_refreshed hst hkind hresv rfl⟩, helloTimeout_quarantines,
      fun h => epochWaitTimeout_quarantines, linkAdmit_admits⟩⟩

end Sys2Proof.Machine
end

section
/-! Shards, serving and model swap: the commands where they are accepted, and the events of swap, programming, fetch and re-digest
(R228 to R241, R287, R330 to R336). -/

namespace Sys2Proof.Machine

/-! ### What an answer leaves of the memory -/

/-- An answer writes no memory, and no granule becomes uncorrectable or correct by it. -/
theorem memory_respond {s : State} {m acc st jobNo : Nat} {h : CmdHdr} {data : List Byte} :
    (respond s m h acc st jobNo data).mem = s.mem ∧ (respond s m h acc st jobNo data).ue = s.ue ∧
      (respond s m h acc st jobNo data).sue = s.sue := by
  obtain ⟨_, _, _, e⟩ := respond_eq (s := s) (m := m) (h := h) (acc := acc) (st := st) (jobNo := jobNo) (data := data)
  rw [e]
  exact ⟨rfl, rfl, rfl⟩

@[simp] theorem read_begun {s : State} {m k a n : Nat} {data : List Byte} : (s.begun m k data).read a n = s.read a n :=
  congrArg (rdBytes · a n) memory_respond.1

@[simp] theorem ueIn_begun {s : State} {m k a n : Nat} {data : List Byte} : (s.begun m k data).ueIn a n = s.ueIn a n := by
  obtain ⟨_, hue, hsue⟩ := memory_respond (s := startJob (s.cmdCounted m) m k (s.hdr m) (s.args m)) (m := m) (h := s.hdr m)
    (acc := s.ns) (st := 1) (jobNo := nextJobNo s m k) (data := data)
  simp only [State.ueIn, State.begun, hue, hsue]
  rfl

/-! ### Fetch, repair, activate, program, install, adapters and reference runs -/

section
variable {s : State} {m k : Nat}

/-- The job of a fetch or repair goes on with the sources of a table that reads without error. -/
theorem withSources_begun {a : List Byte} {go : State → List Src → State} (hu : s.ueIn (sfBuf a) (64 * sfCount a) = false) :
    withSources m a k (s.begun m k []) go = go (s.begun m k []) (srcsOf (s.read (sfBuf a) (64 * sfCount a)) (sfCount a)) := by
  simp [withSources, hu]

theorem fetchBusy_of_none {a : List Byte} (h : s.shard.fetch = none) : fetchBusy a s = none := by simp [fetchBusy, h]

theorem noShard_of_valid {a : List Byte} {x : Fld} (h : s.fld x = 1) : noShard x a s = none := if_pos h

theorem shardFetch_accepted (hk : freeSlot s m = some k) (h : s.accepts m 0x0301) (hw : s.swapState = 0)
    (ha : fetchArgs (s.args m) s = false) (hf : s.shard.fetch = none)
    (hu : s.ueIn (sfBuf (s.args m)) (64 * sfCount (s.args m)) = false) :
    exec (.shardFetch m) s = .next (startFetch (s.begun m k []) (m, k)
      (srcsOf (s.read (sfBuf (s.args m)) (64 * sfCount (s.args m))) (sfCount (s.args m)))) :=
  congrArg Host.Outcome.next ((takeCommand_job h (by simp [hw]) ha (fetchBusy_of_none hf) hk).trans (withSources_begun hu))

/-- A repair is accepted in every swap state. -/
theorem shardRepair_accepted (hk : freeSlot s m = some k) (h : s.accepts m 0x0304) (ha : fetchArgs (s.args m) s = false)
    (hf : s.shard.fetch = none) (hu : s.ueIn (sfBuf (s.args m)) (64 * sfCount (s.args m)) = false) :
    exec (.shardRepair m) s = .next (startRepair (s.begun m k []) (some (m, k))
      (srcsOf (s.read (sfBuf (s.args m)) (64 * sfCount (s.args m))) (sfCount (s.args m)))) :=
  congrArg Host.Outcome.next ((takeCommand_job h rfl ha (fetchBusy_of_none hf) hk).trans (withSources_begun hu))

theorem shardActivate_accepted (h : s.accepts m 0x0302) (hv : s.fld Reg.shardStatus_stageValid = 1) :
    exec (.shardActivate m) s =
      .next (s.answer m (activate (s.cmdCounted m)) (leBytes 4 (activate (s.cmdCounted m)).modelGen)) :=
  congrArg Host.Outcome.next (takeCommand_now h rfl rfl (noShard_of_valid hv))

theorem shardProgram_accepted (hk : freeSlot s m = some k) (h : s.accepts m 0x0303) (hm : fieldAt (s.args m) 0 1 ≤ 1)
    (hz : fieldAt (s.args m) 1 3 = 0) (hv : s.fld Reg.shardStatus_activeValid = 1) :
    exec (.shardProgram m) s = .next (addProg (s.begun m k []) { why := .shard, job := some (m, k) }) :=
  congrArg Host.Outcome.next (takeCommand_job h rfl (by simp [hm, hz]) (noShard_of_valid hv) hk)

theorem schedInstall_accepted (hk : freeSlot s m = some k) (h : s.accepts m 0x0305) (hw : s.swapState = 0)
    (h0 : siVocab (s.args m) ≠ 0) (hmax : siVocab (s.args m) ≤ 2 ^ 31) (hb : bufOk s (siBuf (s.args m)) 64 = true)
    (hv : s.fld Reg.shardStatus_activeValid = 1) : exec (.schedInstall m) s = .next (runInstall (s.begun m k []) m k) :=
  congrArg Host.Outcome.next (takeCommand_job h (by simp [hw]) (by simpa [h0, hb] using hmax) (noShard_of_valid hv) hk)

theorem adapterLoad_accepted (hk : freeSlot s m = some k) (h : s.accepts m 0x030C) (hlo : 64 ≤ alLen (s.args m))
    (hhi : alLen (s.args m) ≤ 0x4000000) (h0 : alHandle (s.args m) ≠ 0) (hz : fieldAt (s.args m) 14 2 = 0)
    (ht : alTenant (s.args m) < 2 ^ 20) (hb : bufOk s (alBuf (s.args m)) (alLen (s.args m)) = true)
    (hn : ∀ x ∈ s.grid.adapters, x.handle ≠ alHandle (s.args m)) :
    exec (.adapterLoad m) s = .next (loadAdapter m (s.args m) k (s.begun m k [])) :=
  congrArg Host.Outcome.next (takeCommand_job h rfl (by simpa [h0, hz, hb] using ⟨⟨hlo, hhi⟩, ht⟩) (if_neg (by simpa using hn)) hk)

theorem refRun_accepted (hk : freeSlot s m = some k) (h : s.accepts m 0x030E) (ha : refArgs (s.args m) s = false)
    (hv : s.fld Reg.shardStatus_activeValid = 1) (hu : s.usable (fieldAt (s.args m) 0 2) = true)
    (hb : s.objBad (fieldAt (s.args m) 0 2) = false) :
    exec (.refRun m) s = .next (refStart m (s.args m) k (s.begun m k [])) :=
  congrArg Host.Outcome.next (takeCommand_job h rfl ha (if_pos ⟨hv, hu, hb⟩) hk)

/-! ### Serving and model swap -/

theorem serveStart_accepted (h : s.accepts m 0x0306) (hmax : beatArg (s.args m) < 2 ^ 53) (hlo : s.beat + 64 ≤ beatArg (s.args m))
    (hhi : beatArg (s.args m) ≤ s.beat + 2 ^ 24) (ht : s.time.state = .locked ∨ s.time.state = .root) :
    exec (.serveStart m) s =
      .next (s.answer m { s.cmdCounted m with sched := { s.sched with startAt := some (beatArg (s.args m)) } } []) := by
  have hsync : ¬ (s.time.state ≠ .locked ∧ s.time.state ≠ .root) := fun ⟨hl, hr⟩ => ht.elim hl hr
  exact congrArg Host.Outcome.next (takeCommand_now h rfl (by simpa using ⟨hmax, hhi⟩)
    ((if_neg hsync).trans (if_neg (Nat.not_lt.2 hlo))))

theorem drain_accepted (hk : freeSlot s m = some k) (h : s.accepts m 0x0307) (hm : fieldAt (s.args m) 0 1 ≤ 1)
    (hz : fieldAt (s.args m) 1 3 = 0) : exec (.drain m) s = .next (drainStart m (s.args m) k (s.begun m k [])) :=
  congrArg Host.Outcome.next (takeCommand_job h rfl (by simp [hm, hz]) rfl hk)

theorem swapStage_accepted (h : s.accepts m 0x0308) (hw : s.swapState = 0) (hv : s.fld Reg.shardStatus_stageValid ≠ 0)
    (hfit : swapFits s = true) :
    exec (.swapStage m) s = .next (s.answer m
      { ((s.cmdCounted m).setFld Reg.shardStatus_swapState 1).setFld Reg.modelGenNext_gen (s.shardGen s.stageBase) with
        shard := { s.shard with rewritten := [], unitNext := none } } (leBytes 4 (s.shardGen s.stageBase))) :=
  congrArg Host.Outcome.next (takeCommand_now h (by simp [hw]) rfl ((if_neg hv).trans (if_pos hfit)))

theorem unitRewrite_accepted {t : State} (hk : freeSlot s m = some k)
    (ht : t = ((s.begun m k []).setFld Reg.shardStatus_swapState 2).setFld Reg.swapUnit_unitId (fieldAt (s.args m) 0 4))
    (h : s.accepts m 0x0309) (hw : s.swapState = 1 ∨ s.swapState = 3) (hc : s.tileUnits.contains (fieldAt (s.args m) 0 4) = true)
    (hg : s.unitGen (fieldAt (s.args m) 0 4) ≠ s.fld Reg.modelGenNext_gen) :
    exec (.unitRewrite m) s = .next (addProg { t with shard := { t.shard with unitNext := some (fieldAt (s.args m) 0 4, t.beat) } }
      { why := .rewrite, job := some (m, k) }) := by
  subst ht
  have hstate : (s.swapState != 1 && s.swapState != 3) = false := by
    rcases hw with hw | hw <;> rw [hw] <;> rfl
  exact congrArg Host.Outcome.next (takeCommand_job h hstate rfl ((if_neg (by rw [hc]; decide)).trans (if_neg hg)) hk)

theorem commitPrepare_accepted {t : State} (hk : freeSlot s m = some k)
    (ht : t = loadGood ((s.begun m k []).setFld Reg.shardStatus_swapState 4) (s.begun m k []).stageBase (fun _ => true))
    (h : s.accepts m 0x030A) (hw : s.swapState = 3) (hmax : beatArg (s.args m) < 2 ^ 53)
    (hu : ∀ u ∈ s.tileUnits, s.unitGen u ≠ s.modelGen) (hb : s.beat + 64 ≤ beatArg (s.args m)) :
    exec (.commitPrepare m) s =
      .next { t with shard := { t.shard with commitAt := some (beatArg (s.args m), some (m, k)) } } := by
  subst ht
  have hdone : ¬ s.tileUnits.any (fun u => s.unitGen u == s.modelGen) = true := by simpa using hu
  exact congrArg Host.Outcome.next (takeCommand_job h (by simp [hw]) (by simpa using hmax)
    ((if_neg hdone).trans (if_neg (Nat.not_lt.2 hb))) hk)

theorem swapAbort_accepted (hk : freeSlot s m = some k) (h : s.accepts m 0x030B) (hlo : 1 ≤ s.swapState) (hhi : s.swapState ≤ 3) :
    exec (.swapAbort m) s = .next (abortStart m k (s.begun m k [])) := by
  have h0 : s.swapState ≠ 0 := Nat.one_le_iff_ne_zero.1 hlo
  exact congrArg Host.Outcome.next (takeCommand_job h (by simp [h0, hhi]) rfl rfl hk)

end

/-- Settles O20: each command is accepted by the rule of `takeCommand` for it; what shows that nothing refuses it is its own lemma. -/
theorem shardAndSwapCommandsComplete : Obligations.ShardAndSwapCommandsComplete :=
  ⟨fun _ _ _ hk => ⟨shardFetch_accepted hk, shardRepair_accepted hk, shardActivate_accepted, shardProgram_accepted hk,
      schedInstall_accepted hk, adapterLoad_accepted hk, refRun_accepted hk⟩,
    fun _ _ _ hk => ⟨serveStart_accepted, drain_accepted hk, swapStage_accepted,
      unitRewrite_accepted hk rfl, commitPrepare_accepted hk rfl, swapAbort_accepted hk⟩⟩

/-! ### Swap commit, RoCEv2 and re-digest -/

section
variable {s : State}

theorem swapCommit_commits {b : Nat} {j : Option (Nat × Nat)} (hc : s.shard.commitAt = some (b, j)) (hw : s.swapState = 4)
    (hb : b ≤ s.beat) : exec .swapCommit s = .next (commitSwap s j) := by
  show execSwapCommit s = _
  rw [execSwapCommit, hc]
  exact if_pos ⟨hw, hb⟩

/-- A NAK goes back to a PSN in flight; one outside those in flight is discarded. -/
theorem roceNak_during_fetch {src psn n d : Nat} {f : Fetch} (hf : s.shard.fetch = some f)
    (hn : n = f.objs.foldl (fun n o => if o.src = src then n + o.pagesOut else n) 0)
    (hd : d = ((getAt noSrc f.srcs src).psn + 2 ^ 24 - psn % 2 ^ 24) % 2 ^ 24) :
    (1 ≤ d → d ≤ n → exec (.roceNak src psn) s = .next (afterFetch (retryOrDrop s src))) ∧
    ((d = 0 ∨ n < d) → exec (.roceNak src psn) s = .next s) := by
  have he : exec (.roceNak src psn) s = if 1 ≤ d ∧ d ≤ n then .next (afterFetch (retryOrDrop s src)) else .next s := by
    subst hn hd
    show execRoceNak src psn s = _
    rw [execRoceNak, hf]
  rw [he]
  exact ⟨fun h1 h2 => if_pos ⟨h1, h2⟩, fun h => if_neg (by omega)⟩

theorem shardRedigest_rereads (ha : s.coreAwake = true) (hv : s.fld Reg.shardStatus_activeValid ≠ 0)
    (hp : s.rangePresent s.activeBase (2 ^ 32) = true) :
    exec .shardRedigest s = .next (reread (((badNow s).foldl markBad (s.setFld Reg.redigestStat_lastPass (s.ns / 10 ^ 9))).count
      Reg.shardErrCnt_redigestFail ((badNow s).filter (fun k => !s.shard.bad.contains k)).length)) := by
  have hg : (!s.coreAwake || s.fld Reg.shardStatus_activeValid == 0 || !s.rangePresent s.activeBase (2 ^ 32)) = false := by
    rw [ha, hp, beq_false_of_ne hv]
    rfl
  exact if_neg (ne_true_of_eq_false hg)

end

/-- A tile has columns 0 to 519; an outcome that names another one names none of the tile. -/
theorem failedOf_lt {outs : List ProgOutcome} {t c : Nat} (hc : c ∈ failedOf outs t) : c < 520 := by
  unfold failedOf at hc
  split at hc
  · exact of_decide_eq_true (List.mem_filter.1 hc).2
  · cases hc

/-- Settles O56: a wave's end, data, an acknowledgement and a timeout have no guard; a commit, a NAK and a re-digest meet theirs. -/
theorem shardEventsComplete : Obligations.ShardEventsComplete := fun _ =>
  ⟨fun _ _ => swapCommit_commits, fun _ => rfl, fun _ _ => rfl, fun _ _ _ => rfl, fun _ _ => rfl,
    fun _ _ _ hf => roceNak_during_fetch hf rfl rfl, fun _ => rfl, shardRedigest_rereads, fun _ _ _ => failedOf_lt⟩

end Sys2Proof.Machine
end

section
/-! The end of a Speedwell pass, and domains that are powered or come out of reset (R240, R354 to R360, R364, R388). -/

namespace Sys2Proof.Machine

variable {s : State}

theorem speedwellPassEnd_running {t u v : State} (hs : s.dieState ≠ .off)
    (ht : t = { s with clk := max s.clk (s.spw.start + 133760) })
    (hu : u = ((((passRegs t).countWrap Reg.spwPassCnt_passes).setFld Reg.spwStatus_passDone 1).setFld Reg.spwStatus_match
      (b2n t.passMatches)).setFld Reg.spwStatus_agreeFail (b2n (!t.dissenting.isEmpty)))
    (hv : v = u.setFld Reg.spwStatus_clean (b2n (!s.spw.written))) :
    exec .speedwellPassEnd s = .next (waitsMove (nextPass (commitEnds (configIntegrity v v.corrupt) t.passMatches))) := by
  subst ht hu hv
  exact if_neg hs

/-- A domain that is ready no longer waits for its switch; a field is brought up, installs that
waited for Thistle or Bindweed go on, and links train. -/
theorem domainPowerReady_begun {d : Nat} {t u : State} (hd : s.pow.pdBegun.contains d = true)
    (ht : t = { s with pow := { s.pow with pdBegun := s.pow.pdBegun.filter (fun x => x != d) } })
    (hu : u = { t with pow := { t.pow with pdOn := setBit t.pow.pdOn d } }) :
    exec (.domainPowerReady d) s = .next (if d < 64 then fieldReady t d else if d < 70 then resumeInstalls u else trainDomain u d) := by
  subst ht hu
  have hg : ¬ (!s.pow.pdBegun.contains d) = true := by rw [hd]; decide
  exact (if_neg hg).trans (apply_ite Host.Outcome.next ..).symm

theorem domainResetRelease_inReset {d : Nat} {r : DomReset}
    (hr : s.domResets.find? (fun r => r.domain == d && r.inReset) = some r) :
    exec (.domainResetRelease d) s = .next (releaseReset s r) := by
  show execDomainResetRelease d s = _
  rw [execDomainResetRelease, hr]

/-- Settles O52: the die is not OFF, the domain's switch is closing, or a reset of the domain is there to be released. -/
theorem integrityAndDomainsComplete : Obligations.IntegrityAndDomainsComplete := fun _ =>
  ⟨fun hs => speedwellPassEnd_running hs rfl rfl rfl, fun _ hd => domainPowerReady_begun hd rfl rfl,
    fun _ _ => domainResetRelease_inReset⟩

end Sys2Proof.Machine
end

section
/-! The step (R304), the invariant that every step keeps, and what every command leaves as it is: the queue, the fuses, the memory
and, of a register field's write, every other field (R402, R419). -/

namespace Sys2Proof.Machine

/-! ### The invariant: registers, memory, clock -/

/-- Every command but the test port's keeps registers, memory and clock sound, and leaves queue and fuses: one lemma of
Laws/Sound2.lean for each. -/
theorem soundOut_exec {c : Instr} {s : State} {q : List Instr} {z : Fuses} (hc : ∀ op, c ≠ .testPortAccess op)
    (h : Sound q z s.pending s.sec.fuses s.csr s.mem s.cyc) : SoundOut q z (exec c s) := by
  cases c with
  | testPortAccess op => exact absurd rfl (hc op)
  | echo => exact sound_execEcho h | getInfo => exact sound_execGetInfo h | healthRead => exact sound_execHealthRead h
  | setDieId => exact sound_execSetDieId h | setRole => exact sound_execSetRole h | timeRoot => exact sound_execTimeRoot h
  | cfgCommit => exact sound_execCfgCommit h | configure => exact sound_execConfigure h
  | mapInstall => exact sound_execMapInstall h | mapPublish => exact sound_execMapPublish h
  | keySlotWrite => exact sound_execKeySlotWrite h | keySlotClear => exact sound_execKeySlotClear h
  | patchInstall => exact sound_execPatchInstall h | attest => exact sound_execAttest h
  | identityRead => exact sound_execIdentityRead h | endorseInstall => exact sound_execEndorseInstall h
  | rejoin => exact sound_execRejoin h | distRead => exact sound_execDistRead h | remoteOp => exact sound_execRemoteOp h
  | protectSet => exact sound_execProtectSet h | protectClear => exact sound_execProtectClear h
  | kvRecvOpen => exact sound_execKvRecvOpen h | kvRecvClose => exact sound_execKvRecvClose h
  | shardFetch => exact sound_execShardFetch h | shardActivate => exact sound_execShardActivate h
  | shardProgram => exact sound_execShardProgram h | shardRepair => exact sound_execShardRepair h
  | schedInstall => exact sound_execSchedInstall h | serveStart => exact sound_execServeStart h
  | drain => exact sound_execDrain h | swapStage => exact sound_execSwapStage h | unitRewrite => exact sound_execUnitRewrite h
  | commitPrepare => exact sound_execCommitPrepare h | swapAbort => exact sound_execSwapAbort h
  | adapterLoad => exact sound_execAdapterLoad h | adapterEvict => exact sound_execAdapterEvict h
  | refRun => exact sound_execRefRun h | seqSubmit => exact sound_execSeqSubmit h | seqCancel => exact sound_execSeqCancel h
  | seqPause => exact sound_execSeqPause h | seqResume => exact sound_execSeqResume h | seqRead => exact sound_execSeqRead h
  | seqNotify => exact sound_execSeqNotify h | budgetSet => exact sound_execBudgetSet h
  | fieldPower => exact sound_execFieldPower h | powerCap => exact sound_execPowerCap h
  | thermalClear => exact sound_execThermalClear h | domainReset => exact sound_execDomainReset h
  | faultLogRead => exact sound_execFaultLogRead h | eventLogRead => exact sound_execEventLogRead h
  | serviceClear => exact sound_execServiceClear h | mbxGo => exact sound_execMbxGo h
  | mbxCmdWrite => exact sound_execMbxCmdWrite h | jobAck => exact sound_execJobAck h
  | intMaskWrite => exact sound_execIntMaskWrite h | configWrite => exact sound_execConfigWrite h
  | enableWrite => exact sound_execEnableWrite h | disableWrite => exact sound_execDisableWrite h
  | readClear => exact sound_execReadClear h | ftNsLoRead => exact sound_execFtNsLoRead h
  | registerWrite => exact sound_execRegisterWrite h | u4Rd => exact sound_execU4Rd h | u4Wr => exact sound_execU4Wr h
  | intWindowEnd => exact sound_execIntWindowEnd h | resetNAssert => exact sound_execResetNAssert h
  | resetNRelease => exact sound_execResetNRelease h | supplyLoss => exact sound_execSupplyLoss h
  | romBootDone => exact sound_execRomBootDone h | wholeDieReset => exact sound_execWholeDieReset h
  | housekeepingRound => exact sound_execHousekeepingRound h | sensorFastRead => exact sound_execSensorFastRead h
  | bandChange => exact sound_execBandChange h | brownout => exact sound_execBrownout h
  | brownoutClear => exact sound_execBrownoutClear h | busOver => exact sound_execBusOver h
  | timingMonitorLow => exact sound_execTimingMonitorLow h | pmbAlert => exact sound_execPmbAlert h
  | aliveSecond => exact sound_execAliveSecond h | headerCheckpoint => exact sound_execHeaderCheckpoint h
  | beatBoundary => exact sound_execBeatBoundary h | serveBegin => exact sound_execServeBegin h
  | drainComplete => exact sound_execDrainComplete h | tileDrive => exact sound_execTileDrive h
  | sSlotDrive => exact sound_execSSlotDrive h | rerunCommit => exact sound_execRerunCommit h
  | mSlot => exact sound_execMSlot h | rangeWindowClose => exact sound_execRangeWindowClose h
  | rangeChange => exact sound_execRangeChange h | fieldScan => exact sound_execFieldScan h
  | fieldExponent => exact sound_execFieldExponent h | fieldAlign => exact sound_execFieldAlign h
  | fieldOpen => exact sound_execFieldOpen h | fieldClose => exact sound_execFieldClose h
  | fieldSelect => exact sound_execFieldSelect h | tqWindowClose => exact sound_execTqWindowClose h
  | tqChange => exact sound_execTqChange h | routerEntry => exact sound_execRouterEntry h
  | departure => exact sound_execDeparture h | schedFrame => exact sound_execSchedFrame h
  | attWindow => exact sound_execAttWindow h | attGather => exact sound_execAttGather h
  | beatMarker => exact sound_execBeatMarker h | beatAck => exact sound_execBeatAck h
  | beatAckTimeout => exact sound_execBeatAckTimeout h | syncSend => exact sound_execSyncSend h
  | pdelayReqSend => exact sound_execPdelayReqSend h | announceSend => exact sound_execAnnounceSend h
  | syncReceived => exact sound_execSyncReceived h | followUpReceived => exact sound_execFollowUpReceived h
  | pdelayReqReceived => exact sound_execPdelayReqReceived h | pdelayRespReceived => exact sound_execPdelayRespReceived h
  | pdelayRespFuReceived => exact sound_execPdelayRespFuReceived h | announceReceived => exact sound_execAnnounceReceived h
  | syncSourceTimeout => exact sound_execSyncSourceTimeout h | acquireTimeout => exact sound_execAcquireTimeout h
  | holdLeftExpire => exact sound_execHoldLeftExpire h | extGmLost => exact sound_execExtGmLost h
  | helloSend => exact sound_execHelloSend h | hello => exact sound_execHello h
  | helloTimeout => exact sound_execHelloTimeout h | epochWaitTimeout => exact sound_execEpochWaitTimeout h
  | pcsAligned => exact sound_execPcsAligned h | phyTrainTimeout => exact sound_execPhyTrainTimeout h
  | downRetry => exact sound_execDownRetry h | laneFail => exact sound_execLaneFail h
  | fastRetrainDone => exact sound_execFastRetrainDone h | ucieRepairFail => exact sound_execUcieRepairFail h
  | linkAdmit => exact sound_execLinkAdmit h | reqLoad => exact sound_execReqLoad h | reqStore => exact sound_execReqStore h
  | reqFaa64 => exact sound_execReqFaa64 h | reqCas64 => exact sound_execReqCas64 h | reqCopy => exact sound_execReqCopy h
  | copyComplete => exact sound_execCopyComplete h | reqKvx => exact sound_execReqKvx h
  | kvxPartWrite => exact sound_execKvxPartWrite h | respFrame => exact sound_execRespFrame h
  | reqTimeout => exact sound_execReqTimeout h | transitFrame => exact sound_execTransitFrame h
  | managerAlive _ e t => exact sound_execManagerAlive (x1 := e) (x2 := t) h
  | managerAliveSend => exact sound_execManagerAliveSend h
  | standbyTakeover => exact sound_execStandbyTakeover h | mapNotice => exact sound_execMapNotice h
  | mapNoticeResend => exact sound_execMapNoticeResend h | mapObey => exact sound_execMapObey h
  | takeoverMapReady => exact sound_execTakeoverMapReady h | mapPublishSigned => exact sound_execMapPublishSigned h
  | budgetReq => exact sound_execBudgetReq h | budgetGrant => exact sound_execBudgetGrant h
  | shedReport _ _ c r => exact sound_execShedReport (x2 := c) (x3 := r) h | healthReport => exact sound_execHealthReport h
  | vectorMapWrite => exact sound_execVectorMapWrite h | seqCommit => exact sound_execSeqCommit h
  | deadlineExpire => exact sound_execDeadlineExpire h | dirBind => exact sound_execDirBind h
  | dirLength => exact sound_execDirLength h | dirPark => exact sound_execDirPark h
  | dirRelease => exact sound_execDirRelease h | swapCommit => exact sound_execSwapCommit h
  | progWaveEnd => exact sound_execProgWaveEnd h | progWaveTimeout => exact sound_execProgWaveTimeout h
  | tileRetirement => exact sound_execTileRetirement h | roceReadResponse => exact sound_execRoceReadResponse h
  | roceAck p n => exact sound_execRoceAck (x0 := p) (x1 := n) h
  | roceNak => exact sound_execRoceNak h | roceTimeout => exact sound_execRoceTimeout h
  | shardRedigest => exact sound_execShardRedigest h | patrolScrub => exact sound_execPatrolScrub h
  | placementWindowClose => exact sound_execPlacementWindowClose h | migrationCopyDone => exact sound_execMigrationCopyDone h
  | oldFrameReturn => exact sound_execOldFrameReturn h | trimPeriodExpire => exact sound_execTrimPeriodExpire h
  | trimTakeoverStart => exact sound_execTrimTakeoverStart h | trimAttempt => exact sound_execTrimAttempt h
  | driftAgeTick => exact sound_execDriftAgeTick h | refreshPending => exact sound_execRefreshPending h
  | refreshOverdue => exact sound_execRefreshOverdue h | sampledCheckStart => exact sound_execSampledCheckStart h
  | checkAbandon => exact sound_execCheckAbandon h | nettleRefDone => exact sound_execNettleRefDone h
  | tileRecordCheckpoint => exact sound_execTileRecordCheckpoint h | speedwellPassEnd => exact sound_execSpeedwellPassEnd h
  | domainPowerReady => exact sound_execDomainPowerReady h | domainResetRelease => exact sound_execDomainResetRelease h
  | coreFatal => exact sound_execCoreFatal h | routerLost => exact sound_execRouterLost h
  | powerOnResetRelease => exact sound_execPowerOnResetRelease h | hbmStackTrained => exact sound_execHbmStackTrained h

/-- A next state of a sound outcome. -/
theorem sound_of_soundOut {q : List Instr} {z : Fuses} {o : Host.Outcome State Fault Refusal} {t : State} (h : SoundOut q z o)
    (e : o = .next t) : Sound q z t.pending t.sec.fuses t.csr t.mem t.cyc := by
  subst e
  exact h

/-- What a command leaves sound and as it was; the fuses may change at the test port. -/
theorem sound_exec {c : Instr} {s t : State} (h : s.sound) (e : exec c s = .next t) :
    t.sound ∧ t.pending = s.pending ∧ ((∀ op, c ≠ .testPortAccess op) → t.sec.fuses = s.sec.fuses) := by
  by_cases hc : ∃ op, c = .testPortAccess op
  · obtain ⟨op, rfl⟩ := hc
    obtain ⟨hcsr, hmem, hcyc, hq, _⟩ := sound_execTestPortAccess (sound_of h) e
    exact ⟨⟨hcsr, hmem, hcyc⟩, hq, fun hn => absurd rfl (hn op)⟩
  · have hn : ∀ op, c ≠ .testPortAccess op := fun op he => hc ⟨op, he⟩
    obtain ⟨hcsr, hmem, hcyc, hq, hz⟩ := sound_of_soundOut (soundOut_exec hn (sound_of h)) e
    exact ⟨⟨hcsr, hmem, hcyc⟩, hq, fun _ => hz⟩

/-- Settles O4: a step is a command of the queue, a mailbox command or a cycle of the clock. -/
theorem everyStepKeepsSound : Obligations.EveryStepKeepsSound := by
  intro s t h e
  unfold step at e
  split at e
  · next c rest _ => exact (sound_exec (s := { s with pending := rest }) h e).1
  · split at e
    · exact (sound_exec h e).1
    · obtain ⟨hcsr, hmem, hcyc, _, _⟩ := sound_tick (sound_of h)
      exact Host.Outcome.next.inj e ▸ ⟨hcsr, hmem, hcyc⟩

/-- Settles O5: both are what `sound_exec` says of a command beside the invariant. -/
theorem queueKeptAndFusesChangeOnlyAtTestPort : Obligations.QueueKeptAndFusesChangeOnlyAtTestPort :=
  fun _ _ _ h e => (sound_exec h e).2

/-- Settles O3: no register and no byte is listed, and the beat is at cycle 0. -/
theorem resetIsSound : Obligations.ResetIsSound := ⟨rfl, rfl, by decide⟩

/-! ### The memory -/

/-- A command outside `writesMemory` keeps the memory: one lemma of Laws/MemoryFrame.lean for each. -/
theorem memOut_exec {c : Instr} {s : State} (hc : writesMemory c = false) : MemOut s.mem (exec c s) := by
  have h : s.mem = s.mem := rfl
  cases c with
  | echo => exact mem_execEcho h | getInfo => exact mem_execGetInfo h | healthRead => exact mem_execHealthRead h
  | setDieId => exact mem_execSetDieId h | setRole => exact mem_execSetRole h | timeRoot => exact mem_execTimeRoot h
  | cfgCommit => exact mem_execCfgCommit h | configure => exact mem_execConfigure h | mapInstall => exact mem_execMapInstall h
  | mapPublish => exact mem_execMapPublish h | keySlotWrite => exact mem_execKeySlotWrite h
  | keySlotClear => exact mem_execKeySlotClear h | patchInstall => exact mem_execPatchInstall h
  | identityRead => exact mem_execIdentityRead h | endorseInstall => exact mem_execEndorseInstall h
  | rejoin => exact mem_execRejoin h | remoteOp => exact mem_execRemoteOp h | protectSet => exact mem_execProtectSet h
  | protectClear => exact mem_execProtectClear h | kvRecvOpen => exact mem_execKvRecvOpen h
  | kvRecvClose => exact mem_execKvRecvClose h | shardFetch => exact mem_execShardFetch h
  | shardActivate => exact mem_execShardActivate h | shardRepair => exact mem_execShardRepair h
  | schedInstall => exact mem_execSchedInstall h | serveStart => exact mem_execServeStart h
  | swapStage => exact mem_execSwapStage h | adapterLoad => exact mem_execAdapterLoad h
  | adapterEvict => exact mem_execAdapterEvict h | refRun => exact mem_execRefRun h | seqRead => exact mem_execSeqRead h
  | seqNotify => exact mem_execSeqNotify h | budgetSet => exact mem_execBudgetSet h | powerCap => exact mem_execPowerCap h
  | thermalClear => exact mem_execThermalClear h | domainReset => exact mem_execDomainReset h
  | serviceClear => exact mem_execServiceClear h | mbxGo => exact mem_execMbxGo h | mbxCmdWrite => exact mem_execMbxCmdWrite h
  | jobAck => exact mem_execJobAck h | intMaskWrite => exact mem_execIntMaskWrite h
  | configWrite => exact mem_execConfigWrite h | enableWrite => exact mem_execEnableWrite h
  | disableWrite => exact mem_execDisableWrite h | readClear => exact mem_execReadClear h
  | ftNsLoRead => exact mem_execFtNsLoRead h | registerWrite => exact mem_execRegisterWrite h | u4Rd => exact mem_execU4Rd h
  | intWindowEnd => exact mem_execIntWindowEnd h | romBootDone => exact mem_execRomBootDone h
  | sensorFastRead => exact mem_execSensorFastRead h | bandChange => exact mem_execBandChange h
  | brownout => exact mem_execBrownout h | brownoutClear => exact mem_execBrownoutClear h | busOver => exact mem_execBusOver h
  | timingMonitorLow => exact mem_execTimingMonitorLow h | pmbAlert => exact mem_execPmbAlert h
  | aliveSecond => exact mem_execAliveSecond h | headerCheckpoint => exact mem_execHeaderCheckpoint h
  | serveBegin => exact mem_execServeBegin h | drainComplete => exact mem_execDrainComplete h
  | tileDrive => exact mem_execTileDrive h | sSlotDrive => exact mem_execSSlotDrive h
  | rerunCommit => exact mem_execRerunCommit h | rangeWindowClose => exact mem_execRangeWindowClose h
  | rangeChange => exact mem_execRangeChange h | fieldScan => exact mem_execFieldScan h
  | fieldExponent => exact mem_execFieldExponent h | fieldOpen => exact mem_execFieldOpen h
  | tqWindowClose => exact mem_execTqWindowClose h | tqChange => exact mem_execTqChange h
  | departure => exact mem_execDeparture h | schedFrame => exact mem_execSchedFrame h
  | beatMarker => exact mem_execBeatMarker h | beatAck => exact mem_execBeatAck h
  | beatAckTimeout => exact mem_execBeatAckTimeout h | syncSend => exact mem_execSyncSend h
  | pdelayReqSend => exact mem_execPdelayReqSend h | announceSend => exact mem_execAnnounceSend h
  | syncReceived => exact mem_execSyncReceived h | followUpReceived => exact mem_execFollowUpReceived h
  | pdelayReqReceived => exact mem_execPdelayReqReceived h | pdelayRespReceived => exact mem_execPdelayRespReceived h
  | pdelayRespFuReceived => exact mem_execPdelayRespFuReceived h | announceReceived => exact mem_execAnnounceReceived h
  | syncSourceTimeout => exact mem_execSyncSourceTimeout h | acquireTimeout => exact mem_execAcquireTimeout h
  | holdLeftExpire => exact mem_execHoldLeftExpire h | extGmLost => exact mem_execExtGmLost h
  | helloSend => exact mem_execHelloSend h | hello => exact mem_execHello h | helloTimeout => exact mem_execHelloTimeout h
  | epochWaitTimeout => exact mem_execEpochWaitTimeout h | pcsAligned => exact mem_execPcsAligned h
  | phyTrainTimeout => exact mem_execPhyTrainTimeout h | downRetry => exact mem_execDownRetry h
  | laneFail => exact mem_execLaneFail h | fastRetrainDone => exact mem_execFastRetrainDone h
  | ucieRepairFail => exact mem_execUcieRepairFail h | linkAdmit => exact mem_execLinkAdmit h
  | transitFrame => exact mem_execTransitFrame h | managerAlive _ e t => exact mem_execManagerAlive (x1 := e) (x2 := t) h
  | managerAliveSend => exact mem_execManagerAliveSend h | standbyTakeover => exact mem_execStandbyTakeover h
  | mapNoticeResend => exact mem_execMapNoticeResend h | mapObey => exact mem_execMapObey h
  | budgetReq => exact mem_execBudgetReq h | budgetGrant => exact mem_execBudgetGrant h
  | shedReport _ _ c r => exact mem_execShedReport (x2 := c) (x3 := r) h | tileRetirement => exact mem_execTileRetirement h
  | roceAck p n => exact mem_execRoceAck (x0 := p) (x1 := n) h
  | roceNak => exact mem_execRoceNak h | roceTimeout => exact mem_execRoceTimeout h
  | shardRedigest => exact mem_execShardRedigest h | patrolScrub => exact mem_execPatrolScrub h
  | placementWindowClose => exact mem_execPlacementWindowClose h | oldFrameReturn => exact mem_execOldFrameReturn h
  | trimPeriodExpire => exact mem_execTrimPeriodExpire h | trimTakeoverStart => exact mem_execTrimTakeoverStart h
  | trimAttempt => exact mem_execTrimAttempt h | driftAgeTick => exact mem_execDriftAgeTick h
  | refreshPending => exact mem_execRefreshPending h | refreshOverdue => exact mem_execRefreshOverdue h
  | sampledCheckStart => exact mem_execSampledCheckStart h | checkAbandon => exact mem_execCheckAbandon h
  | tileRecordCheckpoint => exact mem_execTileRecordCheckpoint h | coreFatal => exact mem_execCoreFatal h
  | routerLost => exact mem_execRouterLost h | testPortAccess => exact mem_execTestPortAccess h
  | hbmStackTrained => exact mem_execHbmStackTrained h
  | _ => exact Bool.noConfusion hc

/-- Settles O6: such a command keeps the whole memory, so every byte. -/
theorem otherCommandsKeepMemory : Obligations.OtherCommandsKeepMemory := by
  intro c s t hc e a
  have h : MemOut s.mem (exec c s) := memOut_exec hc
  rw [e] at h
  exact congrArg (rdByte · a) h

/-! ### Fields of one register -/

theorem bits_eq_mod_div (w lo n : Nat) : bits w lo n = w % 2 ^ (lo + n) / 2 ^ lo := by
  rw [bits, Nat.pow_add, Nat.mod_mul_right_div_self]

theorem pow_mul_add_lt {lo n v : Nat} (w : Nat) : v % 2 ^ n * 2 ^ lo + w % 2 ^ lo < 2 ^ (lo + n) := by
  have hw : w % 2 ^ lo < 2 ^ lo := Nat.mod_lt _ (Nat.two_pow_pos lo)
  have hv := Nat.mul_le_mul_right (2 ^ lo) (Nat.succ_le_of_lt (Nat.mod_lt v (Nat.two_pow_pos n)))
  rw [Nat.succ_mul, ← Nat.pow_add, Nat.add_comm n lo] at hv
  omega

/-- Setting a field keeps the bits above it. -/
theorem fset_div {w : Word} {lo n v : Nat} (h : lo + n ≤ 32) : (fset w lo n v).toNat / 2 ^ (lo + n) = w.toNat / 2 ^ (lo + n) := by
  rw [fset_toNat h, Nat.add_assoc, Nat.add_comm, Nat.add_mul_div_right _ _ (Nat.two_pow_pos _), Nat.div_eq_of_lt (pow_mul_add_lt _),
    Nat.zero_add]

/-- Setting a field keeps the bits below it. -/
theorem fset_mod {w : Word} {lo n v : Nat} (h : lo + n ≤ 32) : (fset w lo n v).toNat % 2 ^ lo = w.toNat % 2 ^ lo := by
  have e : w.toNat / 2 ^ (lo + n) * 2 ^ (lo + n) + v % 2 ^ n * 2 ^ lo = (w.toNat / 2 ^ (lo + n) * 2 ^ n + v % 2 ^ n) * 2 ^ lo := by
    rw [Nat.add_mul, Nat.mul_assoc, ← Nat.pow_add, Nat.add_comm n lo]
  rw [fset_toNat h, e, Nat.mul_comm, Nat.mul_add_mod_self_left, Nat.mod_mod]

/-- A field that shares no bit with the field set reads as before. -/
theorem fget_fset_disjoint {w : Word} {lo n v k l : Nat} (h : lo + n ≤ 32) (hd : k + l ≤ lo ∨ lo + n ≤ k) :
    fget (fset w lo n v) k l = fget w k l := by
  unfold fget
  rcases hd with hd | hd
  · have hdvd : 2 ^ (k + l) ∣ 2 ^ lo := Nat.pow_dvd_pow 2 hd
    rw [bits_eq_mod_div, bits_eq_mod_div, ← Nat.mod_mod_of_dvd _ hdvd, fset_mod h, Nat.mod_mod_of_dvd _ hdvd]
  · obtain ⟨j, rfl⟩ := Nat.exists_eq_add_of_le hd
    rw [bits, bits, Nat.pow_add 2 (lo + n), ← Nat.div_div_eq_div_mul, ← Nat.div_div_eq_div_mul, fset_div h]

theorem word_setFld_same {s : State} {x : Fld} {v : Nat} (h : swf regReset s.csr = true) :
    (s.setFld x v).word x.reg = fset (s.word x.reg) x.lo x.n v :=
  (sget_sset h).trans (if_pos rfl)

theorem fld_setFld_disjoint {s : State} {x y : Fld} {v : Nat} (h : swf regReset s.csr = true) (hx : x.lo + x.n ≤ 32)
    (hr : y.reg = x.reg) (hd : y.lo + y.n ≤ x.lo ∨ x.lo + x.n ≤ y.lo) : (s.setFld x v).fld y = s.fld y := by
  rw [State.fld, hr, word_setFld_same h, fget_fset_disjoint hx hd, State.fld, hr]

/-- Settles O7: the field itself, the other registers, and the other fields of the register, whose bits lie above or below. -/
theorem registerFieldWriteFrame : Obligations.RegisterFieldWriteFrame := by
  intro s x v ⟨hcsr, _, _⟩ hx
  exact ⟨fld_setFld_same hcsr hx, fun _ hp => word_setFld_other hp, fun _ hr _ hd => fld_setFld_disjoint hcsr hx hr hd,
    rfl, rfl, rfl, rfl, rfl, rfl, rfl⟩

/-! ### The step -/

/-- Settles O1: `step` takes the queue's first command. -/
theorem stepRunsFrontCommand : Obligations.StepRunsFrontCommand := fun _ _ _ => rfl

theorem step_takes {s : State} {c : Instr} (h : s.pending = []) (hc : coreTakes s = some c) : step s = exec c s := by
  simp only [step, h, hc]

theorem step_ticks {s : State} (h : s.pending = []) (hc : coreTakes s = none) : step s = .next (tick s) := by
  simp only [step, h, hc]

/-- Of MBX1 to MBX6, `find?` gives the first from the one after `r` on: the one of least distance from it. -/
theorem find?_roundRobin {p : Nat → Bool} {r m : Nat} : ((List.range 6).map (fun j => (r + j) % 6 + 1)).find? p = some m ↔
    p m = true ∧ 1 ≤ m ∧ m ≤ 6 ∧ ∀ k, 1 ≤ k → k ≤ 6 → p k = true → (m + 5 - r % 6) % 6 ≤ (k + 5 - r % 6) % 6 := by
  rw [List.find?_map, Option.map_eq_some_iff]
  simp only [List.find?_range_eq_some, List.mem_range, Function.comp]
  constructor
  · rintro ⟨j, ⟨hp, hj, hfirst⟩, rfl⟩
    refine ⟨hp, by omega, by omega, fun k h1 h6 hk => Nat.le_of_not_lt fun hlt => ?_⟩
    have hi := hfirst ((k + 5 - r % 6) % 6) (by omega)
    rw [show (r + (k + 5 - r % 6) % 6) % 6 + 1 = k by omega, hk] at hi
    exact Bool.noConfusion hi
  · rintro ⟨hp, h1, h6, hfirst⟩
    have hm : (r + (m + 5 - r % 6) % 6) % 6 + 1 = m := by omega
    refine ⟨(m + 5 - r % 6) % 6, ⟨by rw [hm]; exact hp, by omega, fun i hi => ?_⟩, hm⟩
    rw [Bool.not_eq_true']
    refine Bool.eq_false_iff.2 fun hpi => ?_
    have := hfirst _ (by omega) (by omega) hpi
    omega

theorem nextMailbox_eq_some {s : State} {m : Nat} : nextMailbox s = some m ↔
    s.coreUp = true ∧ s.dieState ≠ .off ∧ s.dieState ≠ .romBoot ∧ (s.mb m).state = .running ∧
      (m = 0 ∨ (s.mb 0).state ≠ .running ∧ (m = 7 ∨ (s.mb 7).state ≠ .running ∧ 1 ≤ m ∧ m ≤ 6 ∧
        ∀ k, 1 ≤ k → k ≤ 6 → (s.mb k).state = .running → (m + 5 - s.rr % 6) % 6 ≤ (k + 5 - s.rr % 6) % 6)) := by
  unfold nextMailbox
  split
  case isTrue hdown =>
    simp only [Bool.or_eq_true, Bool.not_eq_true', beq_iff_eq] at hdown
    constructor
    · intro h; cases h
    · rintro ⟨hup, hoff, hboot, _⟩
      simp [hup, hoff, hboot] at hdown
  case isFalse hup =>
    simp only [Bool.or_eq_true, Bool.not_eq_true', beq_iff_eq, not_or, Bool.not_eq_false] at hup
    obtain ⟨⟨hup, hoff⟩, hboot⟩ := hup
    simp only [hup, hoff, hboot, ne_eq, not_false_eq_true, true_and, List.cons_append, List.nil_append, List.find?_cons]
    by_cases h0 : (s.mb 0).state = .running
    · simp only [h0, beq_self_eq_true, Option.some.injEq, not_true, false_and, or_false]
      exact ⟨fun h => h ▸ ⟨h0, rfl⟩, fun h => h.2.symm⟩
    rw [beq_false_of_ne h0]
    by_cases h7 : (s.mb 7).state = .running
    · simp only [h7, beq_self_eq_true, Option.some.injEq, not_true, false_and, or_false]
      exact ⟨fun h => h ▸ ⟨h7, .inr ⟨h0, rfl⟩⟩, fun ⟨hm, h⟩ => h.elim (fun h => absurd (h ▸ hm) h0) fun h => h.2.symm⟩
    simp only [beq_false_of_ne h7, find?_roundRobin, beq_iff_eq]
    refine and_congr_right fun hm => ⟨fun h => .inr ⟨h0, .inr ⟨h7, h⟩⟩, fun h => ?_⟩
    rcases h with rfl | ⟨_, rfl | ⟨_, h⟩⟩
    · exact absurd hm h0
    · exact absurd hm h7
    · exact h

/-- Settles O2: `step` asks `coreTakes`, and `nextMailbox` searches the mailboxes in R304's order. -/
theorem emptyQueueServesMailboxOrTicks : Obligations.EmptyQueueServesMailboxOrTicks :=
  ⟨fun _ h => ⟨fun _ hc => step_takes h hc, fun hc => step_ticks h hc⟩, fun _ _ => nextMailbox_eq_some⟩

end Sys2Proof.Machine
end

section
/-! Mailboxes: their classes and who reaches them, the refusals that every command shares, the bytes of a response, the slot of a job,
GO and acknowledgement, and interrupt windows (R301 to R311). -/

namespace Sys2Proof.Machine

/-! ### Commands that are not carried out (R301, R303, R304, R306)

Every mailbox command is `takeCommand`; three of them also count or record a command-specific refusal of their own. -/

section
variable {c : Instr} {s t : State} {m op : Nat} {ba : List Byte → State → Bool} {rf : List Byte → State → Option (Nat × List Byte)}

theorem refusal_idle (h : nextMailbox s ≠ some m) : refusal m op ba rf s = none := if_pos (bne_iff_ne.2 h)

theorem refusal_common (h : commonStatus s m (s.hdr m) ≠ 0) : refusal m op ba rf s = none := by
  unfold State.hdr at h
  unfold refusal
  dsimp only
  split
  · rfl
  · exact if_pos (.inr h)

/-- Nothing refuses a command whose own check is passed. -/
theorem refusal_of_none (h : rf (s.args m) s = none) : refusal m op ba rf s = none := by
  unfold State.args at h
  simp [refusal, h]

theorem countInvalid_of_none (h : refusal m 0x0108 keyArgs keyRefused s = none) : countInvalid m s t = t :=
  if_neg (by rw [h]; nofun)

theorem recordOpen_of_none (h : refusal m 0x0206 openArgs openRefused s = none) : recordOpen m s t = t :=
  if_neg (by rw [h]; nofun)

theorem countRefused_of_none (h : refusal m 0x0401 submitArgs submitRefused s = none) : countRefused m s t = t := by
  unfold countRefused
  rw [h]

/-- What `takeCommand` leads to whatever the command's own checks and effect are, the command leads to. -/
theorem exec_of_takeCommand (hm : mailboxOf c = some (m, op)) (hr : ∀ ba rf, refusal m op ba rf s = none)
    (ht : ∀ bs ba rf a, takeCommand m op bs ba rf a s = t) : exec c s = .next t := by
  cases c with
  | keySlotWrite =>
    cases hm
    exact congrArg Host.Outcome.next ((countInvalid_of_none (hr _ _)).trans (ht _ _ _ _))
  | kvRecvOpen =>
    cases hm
    exact congrArg Host.Outcome.next ((recordOpen_of_none (hr _ _)).trans (ht _ _ _ _))
  | seqSubmit =>
    cases hm
    exact congrArg Host.Outcome.next ((countRefused_of_none (hr _ _)).trans (ht _ _ _ _))
  | _ => cases hm <;> exact congrArg Host.Outcome.next (ht _ _ _ _)

/-- Settles O9: a failing common check comes before every check and every effect of the command's own. -/
theorem commonRefusalsHaveNoSideEffect : Obligations.CommonRefusalsHaveNoSideEffect := fun _ _ _ _ hm hw _ ho hc =>
  exec_of_takeCommand hm (fun _ _ => refusal_common hc) (fun _ _ _ _ => takeCommand_common hw ho hc)

/-- Settles O10: in each of the five cases the mailbox is not the one that the core serves next. -/
theorem nothingIsTakenWithoutCommandOrCore : Obligations.NothingIsTakenWithoutCommandOrCore := by
  intro c m op s hm h
  have hn : nextMailbox s ≠ some m := by
    intro he
    obtain ⟨hup, hoff, hboot, hrun⟩ := waiting_running he
    rcases h with h | h | h | h | h
    · rw [hup] at h; cases h
    · exact hoff h
    · exact hboot h
    · exact h hrun
    · exact h he
  exact exec_of_takeCommand hm (fun _ _ => refusal_idle hn) (fun _ _ _ _ => takeCommand_idle hn)

/-- A command on a mailbox outside its class has the status WRONG_MAILBOX. -/
theorem commonStatus_wrongMailbox {k : CmdSpec} {h : CmdHdr} (hb : badHeader h = false) (hk : cmdSpec h.opcode = some k)
    (hc : k.cls.accepts m = false) : commonStatus s m h = 0x04 := by
  simp [commonStatus, hb, hk, hc]

/-! ### Who reaches a mailbox page (R301, R302, R310) -/

variable {g : State → State} {d : Nat}

theorem mbxAccess_host (hs : s.dieState ≠ .off) (hm : m ≠ 7) : mbxAccess s m none g = g s := (if_neg hs).trans (if_neg hm)

theorem mbxAccess_host7 (hs : s.dieState ≠ .off) : mbxAccess s 7 none g = hostDenied s := (if_neg hs).trans (if_pos rfl)

theorem mbxAccess_manager (hs : s.dieState ≠ .off) (hd : s.manager = some d) : mbxAccess s 7 (some d) g = g s :=
  (if_neg hs).trans (if_pos ⟨rfl, hd⟩)

theorem mbxAccess_denied (hs : s.dieState ≠ .off) (hd : m ≠ 7 ∨ s.manager ≠ some d) :
    mbxAccess s m (some d) g = s.count Reg.fabDenyCnt_denied 1 :=
  (if_neg hs).trans (if_neg fun ⟨hm, hn⟩ => hd.elim (· hm) (· hn))

/-- The host on MBX0 to MBX6 and the obeyed manager on MBX7 reach the page. -/
theorem mbxAccess_allowed {src : Option Nat} (hs : s.dieState ≠ .off)
    (h : (src = none ∧ m ≠ 7) ∨ (m = 7 ∧ src.isSome = true ∧ src = s.manager)) : mbxAccess s m src g = g s := by
  rcases h with ⟨rfl, hm⟩ | ⟨rfl, hsome, hman⟩
  · exact mbxAccess_host hs hm
  · obtain ⟨d, rfl⟩ := Option.isSome_iff_exists.1 hsome
    exact mbxAccess_manager hs hman.symm

end

/-- Settles O60: the classes are a table of eight rows; a command outside its class fails a common check, and each of the three accesses
to a mailbox page is `mbxAccess`. -/
theorem mailboxClasses : Obligations.MailboxClasses := by
  refine ⟨rfl, by decide, fun c m op s k hm hw hb ho hk hcls => ?_, fun m d off n b s hs => ⟨fun hm => ?_, ?_, fun hd => ?_, fun hd => ?_⟩⟩
  · have hst : commonStatus s m (s.hdr m) = 0x04 := commonStatus_wrongMailbox hb (ho ▸ hk) hcls
    have h := commonRefusalsHaveNoSideEffect c m op s hm hw hb ho (by rw [hst]; decide)
    rwa [hst] at h
  · exact ⟨congrArg _ (mbxAccess_host hs hm), congrArg _ (mbxAccess_host hs hm), congrArg _ (mbxAccess_host hs hm)⟩
  · simp only [List.forall_mem_cons, List.not_mem_nil, false_implies, implies_true, and_true]
    exact ⟨congrArg _ (mbxAccess_host7 hs), congrArg _ (mbxAccess_host7 hs), congrArg _ (mbxAccess_host7 hs)⟩
  · exact ⟨congrArg _ (mbxAccess_manager hs hd), congrArg _ (mbxAccess_manager hs hd), congrArg _ (mbxAccess_manager hs hd)⟩
  · simp only [List.forall_mem_cons, List.not_mem_nil, false_implies, implies_true, and_true]
    exact ⟨congrArg _ (mbxAccess_denied hs hd), congrArg _ (mbxAccess_denied hs hd), congrArg _ (mbxAccess_denied hs hd)⟩

/-! ### The bytes of a response (R306, Table 14.6) -/

section
variable {s : State} {m n acc st jobNo : Nat} {h : CmdHdr} {data : List Byte}

/-- The header of a response: OPCODE, STATUS, FLAGS, TAG, DATA_LEN, JOB_NO, reserved bytes and ACCEPT_TIME. -/
def respHead (h : CmdHdr) (acc st jobNo len : Nat) : List Byte :=
  leBytes 2 h.opcode ++ leBytes 1 st ++ leBytes 1 (b2n (jobNo != 0)) ++ leBytes 4 h.tag ++ leBytes 2 (min 232 len) ++ leBytes 2 jobNo ++
    leBytes 4 0 ++ leBytes 8 acc

@[simp] theorem length_respHead {len : Nat} : (respHead h acc st jobNo len).length = 24 := by simp [respHead]

theorem fieldAt_respHead {len : Nat} : fieldAt (respHead h acc st jobNo len) 0 2 = h.opcode % 65536 ∧
    fieldAt (respHead h acc st jobNo len) 2 1 = st % 256 ∧ fieldAt (respHead h acc st jobNo len) 8 2 = min 232 len ∧
    fieldAt (respHead h acc st jobNo len) 10 2 = jobNo % 65536 := by
  have hlen : min 232 len % 65536 = min 232 len := Nat.mod_eq_of_lt (by omega)
  simp only [respHead, List.append_assoc]
  simp [fieldAt_append_right, fieldAt_leBytes_append, hlen]

/-- The mailbox after a response: RESPONDED, with the response's bytes. -/
theorem mb_respond (hm : m < s.mbx.length) : (respond s m h acc st jobNo data).mb m =
    { s.mb m with state := .responded, resp := slice (respHead h acc st jobNo data.length ++ data.take 232) 0 256 } := by
  obtain ⟨resp, rfl, hmbx, _⟩ := respond_eq (s := s) (m := m) (h := h) (acc := acc) (st := st) (jobNo := jobNo) (data := data)
  rw [State.mb, hmbx, getAt_updAt hm, if_pos rfl]
  rfl

theorem mb_respond_other (hn : n ≠ m) : (respond s m h acc st jobNo data).mb n = s.mb n := by
  obtain ⟨_, _, hmbx, _⟩ := respond_eq (s := s) (m := m) (h := h) (acc := acc) (st := st) (jobNo := jobNo) (data := data)
  rw [State.mb, hmbx, getAt_updAt_other hn]
  rfl

/-- A response takes no time. -/
theorem clock_respond : (respond s m h acc st jobNo data).time = s.time ∧ (respond s m h acc st jobNo data).beat = s.beat ∧
    (respond s m h acc st jobNo data).cyc = s.cyc := by
  obtain ⟨_, _, _, e⟩ := respond_eq (s := s) (m := m) (h := h) (acc := acc) (st := st) (jobNo := jobNo) (data := data)
  rw [e]
  exact ⟨rfl, rfl, rfl⟩

/-- A field of the header is the response's. -/
theorem fieldAt_resp {x y : List Byte} {o w : Nat} (hx : x.length = 24) (ho : o + w ≤ 24) : fieldAt (slice (x ++ y) 0 256) o w = fieldAt x o w := by
  rw [fieldAt_slice (by omega) (by rw [List.length_append]; omega), fieldAt_append_left (by omega)]

/-- The data of a response follow its header. -/
theorem slice_resp {x y : List Byte} (hx : x.length = 24) (hy : y.length ≤ 232) : slice (slice (x ++ y) 0 256) 24 y.length = y := by
  have hz : slice (x ++ y) 0 256 = x ++ (y ++ List.replicate (232 - y.length) 0) := by
    unfold slice
    rw [List.drop_zero, List.take_of_length_le (by rw [List.length_append]; omega), List.append_assoc, List.length_append, hx]
    congr 3
    omega
  rw [hz, slice_append_right (Nat.le_of_eq hx), hx, slice_append_left rfl]

/-- Settles O11: the response is its header and its data, padded to 256 bytes; memory, clock and the other mailboxes stay. -/
theorem responseLayout : Obligations.ResponseLayout := by
  intro s m acc st jobNo h data hm hlen hst hjob t
  obtain ⟨hop, hstatus, hdata, hno⟩ := fieldAt_respHead (h := h) (acc := acc) (st := st) (jobNo := jobNo) (len := data.length)
  refine ⟨?_, ?_, ?_, ?_, ?_, ?_, ?_, fun n hn => mb_respond_other hn, memory_respond.1, clock_respond⟩
  · rw [mb_respond hm]
  · rw [mb_respond hm]
    exact length_slice _ _ _
  · rw [mb_respond hm]
    exact (fieldAt_resp length_respHead (by decide)).trans hop
  · rw [mb_respond hm]
    exact ((fieldAt_resp length_respHead (by decide)).trans hstatus).trans (Nat.mod_eq_of_lt hst)
  · rw [mb_respond hm]
    exact ((fieldAt_resp length_respHead (by decide)).trans hdata).trans (Nat.min_eq_right hlen)
  · rw [mb_respond hm]
    exact ((fieldAt_resp length_respHead (by decide)).trans hno).trans (Nat.mod_eq_of_lt hjob)
  · rw [mb_respond hm, List.take_of_length_le hlen]
    exact slice_resp length_respHead hlen

end

/-! ### Job slots (R307) -/

section
variable {s : State} {m n j k : Nat}

/-- A change of a mailbox that keeps its jobs keeps every job. -/
theorem job_updMb {g : Mailbox → Mailbox} (hm : m < s.mbx.length) (hg : ∀ b, (g b).jobs = b.jobs) : (s.updMb m g).job n j = s.job n j := by
  by_cases hn : n = m
  · rw [hn, State.job, mb_updMb hm, hg, State.job]
  · rw [State.job, mb_updMb_other hn, State.job]

theorem job_updJob_same {g : Job → Job} (hm : m < s.mbx.length) (hk : k < (s.mb m).jobs.length) : (s.updJob m k g).job m k = g (s.job m k) := by
  rw [State.job, State.updJob, mb_updMb hm]
  exact (getAt_updAt hk).trans (if_pos rfl)

theorem job_updJob_other {g : Job → Job} (hm : m < s.mbx.length) (h : n ≠ m ∨ j ≠ k) : (s.updJob m k g).job n j = s.job n j := by
  by_cases hn : n = m
  · rw [hn, State.job, State.updJob, mb_updMb hm]
    exact getAt_updAt_other (h.resolve_left (· hn))
  · rw [State.job, State.updJob, mb_updMb_other hn, State.job]

theorem job_respond {h : CmdHdr} {acc st jobNo : Nat} {data : List Byte} (hm : m < s.mbx.length) :
    (respond s m h acc st jobNo data).job n j = s.job n j := by
  by_cases hn : n = m
  · rw [hn, State.job, mb_respond hm, State.job]
  · rw [State.job, mb_respond_other hn, State.job]

theorem job_cmdCounted (hm : m < s.mbx.length) : (s.cmdCounted m).job n j = s.job n j :=
  job_updMb (s := s) hm (fun _ => rfl)

theorem length_mbx_updMb {g : Mailbox → Mailbox} : (s.updMb m g).mbx.length = s.mbx.length := length_updAt

/-- The counted acceptance keeps the number of mailboxes and of job slots. -/
theorem length_cmdCounted (hm : m < s.mbx.length) :
    (s.cmdCounted m).mbx.length = s.mbx.length ∧ ((s.cmdCounted m).mb m).jobs.length = (s.mb m).jobs.length := by
  have hmb : (s.cmdCounted m).mb m = { s.mb m with commands := min 0xFFFF ((s.mb m).commands + 1) } := mb_updMb (s := s) hm
  exact ⟨length_mbx_updMb (s := s), by rw [hmb]⟩

theorem freeSlot_eq_some : freeSlot s m = some k ↔
    (s.job m k).state = .free ∧ k < 8 ∧ ∀ j, j < k → (s.job m j).state ≠ .free := by
  simp only [freeSlot, List.find?_range_eq_some, List.mem_range, beq_iff_eq, Bool.not_eq_true', beq_eq_false_iff_ne]

section
variable {data : List Byte} (hm : m < s.mbx.length)
include hm

theorem length_mbx_startJob (h : CmdHdr) (args : List Byte) : m < (startJob (s.cmdCounted m) m k h args).mbx.length := by
  rw [startJob, State.updJob, length_mbx_updMb, (length_cmdCounted hm).1]
  exact hm

/-- The job that a job command starts runs with the command's opcode, tag and arguments. -/
theorem job_begun_same (hk : k < (s.mb m).jobs.length) : (s.begun m k data).job m k =
    { state := .running, gen := nextGen (s.job m k).gen, jobNo := nextJobNo s m k, opcode := (s.hdr m).opcode, status := 0
      progress := 0, tag := (s.hdr m).tag, doneTime := 0, detail := List.replicate 8 0, args := s.args m } := by
  obtain ⟨hlen, hjobs⟩ := length_cmdCounted hm
  have hno : nextJobNo (s.cmdCounted m) m k = nextJobNo s m k := by rw [nextJobNo, job_cmdCounted hm, nextJobNo]
  refine (job_respond (length_mbx_startJob hm _ _)).trans ?_
  rw [startJob, job_updJob_same (hlen ▸ hm) (hjobs ▸ hk), hno, job_cmdCounted hm]

theorem job_begun_other (h : n ≠ m ∨ j ≠ k) : (s.begun m k data).job n j = s.job n j :=
  (job_respond (length_mbx_startJob hm _ _)).trans
    ((job_updJob_other ((length_cmdCounted hm).1 ▸ hm) h).trans (job_cmdCounted hm))

theorem responded_begun : ((s.begun m k data).mb m).state = .responded :=
  congrArg Mailbox.state (mb_respond (length_mbx_startJob hm _ _))

end

/-- Settles O16: the answer keeps the jobs as the start of the job left them. -/
theorem jobStartsInLowestFreeSlot : Obligations.JobStartsInLowestFreeSlot := by
  intro s m k data hm hmbx hjobs hk _ t
  obtain ⟨hfree, hk8, hlow⟩ := freeSlot_eq_some.1 hk
  have hms : m < s.mbx.length := hmbx ▸ hm
  have hjob := job_begun_same (data := data) hms (hjobs ▸ hk8)
  exact ⟨hfree, hlow, by rw [hjob], by rw [hjob], by rw [hjob], by rw [hjob], fun n j => job_begun_other hms, responded_begun hms⟩

end

/-! ### GO, command area, acknowledgement (R302, R303, R307, R310) -/

section
variable {s : State} {m n : Nat}

/-- Writes of a command area touch no other mailbox and nothing else. -/
theorem cmdWords_frame (k : Nat) : ∀ {s : State} {off : Nat} {d : List Byte},
    (∀ n, n ≠ m → (cmdWords s m off d k).mb n = s.mb n) ∧ cmdWords s m off d k = { s with mbx := (cmdWords s m off d k).mbx } := by
  induction k with
  | zero => exact ⟨fun _ _ => rfl, rfl⟩
  | succ k ih =>
    intro s off d
    obtain ⟨hother, hrest⟩ := ih (s := mbxCmd s m off (slice d 0 4)) (off := off + 4) (d := d.drop 4)
    exact ⟨fun n hn => (hother n hn).trans (mb_updMb_other hn), hrest⟩

/-! ### Interrupt windows (R308) -/

theorem intWindowEnd_none {b : Nat} (h : s.intWin.find? (fun e => e.1 == b) = none) : exec (.intWindowEnd b) s = .next s := by
  show execIntWindowEnd b s = _
  rw [execIntWindowEnd, h]

/-- A window that ends sends its message where a cause was noted in it and its bit is still set. -/
theorem intWindowEnd_open {b : Nat} {k : Bool} (h : s.intWin.find? (fun e => e.1 == b) = some (b, k)) : exec (.intWindowEnd b) s =
    if k = true ∧ s.fld (intBit b) = 1 then
      .next { s with out := s.out ++ [intMsg s b], intWin := s.intWin.filter (fun x => x.1 != b) ++ [(b, false)] }
    else .next { s with intWin := s.intWin.filter (fun x => x.1 != b) } := by
  show execIntWindowEnd b s = _
  rw [execIntWindowEnd, h]
  simp only [Bool.and_eq_true, beq_iff_eq]
  rfl

end

/-- Settles O27: the accesses are `mbxAccess`, for whom it allows; what they change is a change of one mailbox; and a window is open or not. -/
theorem mailboxPagesAndInterruptWindows : Obligations.MailboxPagesAndInterruptWindows := by
  refine ⟨fun s m src hs hsrc => ⟨?_, fun off d hd => ?_, fun off d => ?_, fun n => ?_⟩, fun s m off d g hm => ⟨?_, ?_, rfl, ?_⟩,
    fun s b => ⟨fun h hbit => ?_, fun k h hk => ?_, intWindowEnd_none⟩⟩
  · exact congrArg _ (mbxAccess_allowed hs hsrc)
  · refine congrArg _ ((mbxAccess_allowed hs hsrc).trans ?_)
    rw [hd]
    show mbxCmd s m off (slice d 0 4) = _
    rw [slice_whole hd, mbxCmd]
  · exact congrArg _ (mbxAccess_allowed hs hsrc)
  · exact congrArg _ (mbxAccess_allowed hs hsrc)
  · exact mb_updMb hm
  · exact fun n hn => mb_updMb_other hn
  · exact fun k => cmdWords_frame k
  · exact (intWindowEnd_open h).trans (if_pos ⟨rfl, hbit⟩)
  · exact (intWindowEnd_open h).trans (if_neg fun ⟨h1, h2⟩ => hk.elim (fun h => by rw [h1] at h; cases h) (· h2))

end Sys2Proof.Machine
end

section
/-! Host accesses to registers and memory: register writes and their refusals (R302, R308, R348), Speedwell's locks and gates (R352,
R353), and a U4 read after a U4 write (R309). -/

namespace Sys2Proof.Machine

/-! ### Register writes (R302, R308, R348) -/

section
variable {s : State} {off : Nat} {v : Word}

theorem hostWrite_reaches (hs : s.dieState ≠ .off) (h7 : isMbx7 off = false) (h4 : off % 4 = 0) (hr : csrReserved off = false) :
    hostWrite s off v = csrWrite1 s off v none := by
  simp [hostWrite, hs, h7, h4, hr]

theorem hostWrite_mbx7 (hs : s.dieState ≠ .off) (h7 : isMbx7 off = true) : hostWrite s off v = hostDenied s := by
  simp [hostWrite, hs, h7]

theorem hostWrite_reserved (hs : s.dieState ≠ .off) (h7 : isMbx7 off = false) (hr : off % 4 ≠ 0 ∨ csrReserved off = true) :
    hostWrite s off v = busError s (csrBase + off) true 0 := by
  simp only [hostWrite, hs, h7, hr, if_true, if_false, Bool.false_eq_true]

theorem hostWrite_off (hs : s.dieState = .off) : hostWrite s off v = s := if_pos hs

/-- The four register writes of the host are one. -/
theorem exec_registerWrite {c : Instr} (hc : c ∈ [Instr.configWrite off v, .enableWrite off v, .disableWrite off v, .registerWrite off v]) :
    exec c s = .next (hostWrite s off v) := by
  simp only [List.mem_cons, List.not_mem_nil, or_false] at hc
  rcases hc with rfl | rfl | rfl | rfl <;> rfl

/-- INT_MASK lies outside the mailbox pages, at a register's place. -/
theorem intMaskWrite_reaches (hs : s.dieState ≠ .off) : exec (.intMaskWrite v) s = .next (writeReg s 0x10018 v) :=
  congrArg Host.Outcome.next (hostWrite_reaches hs rfl rfl rfl)

/-- INT_MASK holds thirteen RW bits and nothing that configures or enables. -/
theorem word_writeReg_intMask {p : Nat} (h : swf regReset s.csr = true) : (writeReg s 0x10018 v).word p =
    if p = 0x10018 then (s.word 0x10018 &&& ~~~0x3F7F#32) ||| (v &&& 0x3F7F#32) else s.word p := by
  obtain ⟨r, hr, hcfg, hen, hrw, hw1c⟩ : ∃ r, regSpec 0x10018 = some r ∧ r.cfgMask = 0 ∧ r.maskOf [.en] = 0 ∧
      r.maskOf [.rw, .rws] = 0x3F7F ∧ r.maskOf [.w1c] = 0 := ⟨_, rfl, rfl, rfl, rfl, rfl⟩
  rw [word_writeReg h hr hcfg hen rfl, hrw, hw1c, BitVec.and_zero, BitVec.not_zero, BitVec.and_allOnes]
  rfl

end

/-- Settles O23: `hostWrite` takes one of four ways, and INT_MASK's write goes to its register. -/
theorem hostWritesReachTheRegister : Obligations.HostWritesReachTheRegister := by
  refine ⟨fun s off v => ⟨intMaskWrite_reaches, fun c hc => ?_⟩, fun s v ⟨hcsr, _, _⟩ hs => ⟨_, intMaskWrite_reaches hs, ?_, fun p hp => ?_⟩⟩
  · rw [exec_registerWrite hc]
    exact ⟨fun hs h7 h4 hr => congrArg _ (hostWrite_reaches hs h7 h4 hr), fun hs h7 => congrArg _ (hostWrite_mbx7 hs h7),
      fun hs h7 hr => congrArg _ (hostWrite_reserved hs h7 hr), fun hs => congrArg _ (hostWrite_off hs)⟩
  · rw [word_writeReg_intMask hcsr, if_pos rfl]
  · rw [word_writeReg_intMask hcsr, if_neg hp]

/-! ### Speedwell's locks and gates (R352, R353) -/

section
variable {s : State} {x : Fld}

theorem swf_setFld {v : Nat} (h : swf regReset s.csr = true) : swf regReset (s.setFld x v).csr = true := swf_sset h

theorem swf_ite_setFld {c : Prop} [Decidable c] {v : Nat} (h : swf regReset s.csr = true) :
    swf regReset (if c then s.setFld x v else s).csr = true := by
  split
  · exact swf_setFld h
  · exact h

/-- What an optional write of a field leaves of another register. -/
theorem word_ite_setFld {c : Prop} [Decidable c] {v p : Nat} (h : p ≠ x.reg) : (if c then s.setFld x v else s).word p = s.word p := by
  split
  · exact word_setFld_other h
  · rfl

theorem fld_congr {t : State} {y : Fld} (h : t.word y.reg = s.word y.reg) : t.fld y = s.fld y := congrArg (fun w => fget w y.lo y.n) h

/-- A blocked configuration write is flagged and counted; it leaves every register but the flag's, the capture's and the counter's. -/
theorem writeCfg_blocked {off mask : Nat} {v : Word} (hn : mergeBits (s.cfgWord off) v mask ≠ s.cfgWord off)
    (hb : s.blockEn (off / 0x10000) = true) : writeCfg s off mask v =
      ((if s.fld Reg.spwStatus_wrBlocked = 0 then s.setFld Reg.cfgWweAddr_offset off else s).setFld Reg.spwStatus_wrBlocked 1).count
        Reg.cfgEventCnt_wrBlocked 1 :=
  (if_neg hn).trans (if_pos hb)

/-- Enable bits lie in registers that Speedwell's flags and counters are no part of. -/
theorem enableOf_reg {b : Nat} (h : enableOf b = some x) : 0x30 ≤ x.reg := by
  unfold enableOf at h
  repeat' split at h
  all_goals cases h
  all_goals simp only [Reg.blockEnMisc_ddl, Reg.fabCfg_en, Reg.seqCfg_en, Reg.hbmCfg_en, Reg.blockEnMisc_power, Reg.blockEnMisc_sensor,
    Reg.blockEnMisc_fault, Reg.linkCfg_en, linkBase, Reg.fieldEnLo_en, Reg.fieldEnHi_en]
  all_goals omega

/-- Where the enable bits' registers read as before, each block is as enabled as before. -/
theorem blockEn_congr {t : State} {b : Nat} (h : ∀ p, 0x30 ≤ p → t.word p = s.word p) : t.blockEn b = s.blockEn b := by
  unfold State.blockEn
  cases he : enableOf b with
  | none => rfl
  | some x => exact congrArg (· == 1) (fld_congr (h _ (enableOf_reg he)))

theorem writeEnable_refused {off b : Nat} (hb : s.blockEn b = false)
    (hg : s.fld Reg.spwStatus_refValid = 0 ∨ s.fld Reg.spwStatus_match = 0 ∨ s.fld Reg.spwStatus_clean = 0) :
    writeEnable s off b 1 = refuseEnable s off := by
  have hok : enableOk s b = false := by
    unfold enableOk
    rcases hg with h | h | h <;> simp [h]
  simp [writeEnable, hb, hok]

theorem refuseEnable_refuses (h : swf regReset s.csr = true) (off : Nat) : (refuseEnable s off).fld Reg.spwStatus_enRefused = 1 ∧
    (refuseEnable s off).fld Reg.cfgEventCnt_enRefused =
      min (2 ^ Reg.cfgEventCnt_enRefused.n - 1) (s.fld Reg.cfgEventCnt_enRefused + 1) ∧
    ∀ p, 0x30 ≤ p → (refuseEnable s off).word p = s.word p := by
  unfold refuseEnable
  dsimp only
  refine ⟨?_, ?_, fun p hp => ?_⟩
  · rw [fld_congr (word_count_other (by decide))]
    exact fld_setFld_same (swf_ite_setFld h) (by decide)
  · rw [fld_count_same (swf_setFld (swf_ite_setFld h)) (by decide), fld_setFld_other (by decide), fld_congr (word_ite_setFld (by decide))]
  · have hne : ∀ r, r < 0x30 → p ≠ r := fun r hr => by omega
    rw [word_count_other (hne _ (by decide)), word_setFld_other (hne _ (by decide)), word_ite_setFld (hne _ (by decide))]

end

/-- Settles O25: both refusals write registers of Speedwell alone. -/
theorem speedwellLocksAndGates : Obligations.SpeedwellLocksAndGates := by
  refine ⟨fun s off mask v ⟨hcsr, _, _⟩ hb hoff hn => ?_, fun s off b ⟨hcsr, _, _⟩ hb hg => ?_⟩
  · have hne : ∀ r, r < 0x30000 → off ≠ r := fun r hr => by omega
    rw [writeCfg_blocked hn hb]
    refine ⟨?_, ?_, ?_⟩
    · rw [word_count_other (hne _ (by decide)), word_setFld_other (hne _ (by decide)), word_ite_setFld (hne _ (by decide))]
    · rw [fld_congr (word_count_other (by decide))]
      exact fld_setFld_same (swf_ite_setFld hcsr) (by decide)
    · show State.gated (if _ then _ else _) = _
      split <;> rfl
  · obtain ⟨hflag, hcount, hrest⟩ := refuseEnable_refuses hcsr off
    dsimp only
    rw [writeEnable_refused hb hg]
    exact ⟨(blockEn_congr hrest).trans hb, hflag, hcount⟩

/-! ### A U4 read after a U4 write (R25, R309) -/

section
variable {s t : State} {f a len : Nat} {y : Bool}

/-- The way of an access depends on the routers that work. -/
theorem reach_congr (h : t.routerOk = s.routerOk) : t.reach f a = s.reach f a := by
  have hroute : t.route = s.route := by
    funext x y
    rw [State.route, State.route, h]
  have hexit : t.exitField = s.exitField := by
    funext x y
    rw [State.exitField, State.exitField, State.hbmField, State.hbmField, h]
  rw [State.reach, State.reach, hroute, hexit]

/-- ALT_USED is a bit of its own beside ROUTER_OK. -/
theorem routerOk_noteRoute (h : swf regReset s.csr = true) : (noteRoute s f y).routerOk = s.routerOk := by
  funext g
  rcases noteRoute_eq s f y with e | e
  · rw [e]
  · rw [e]
    refine congrArg (· == 1) ?_
    by_cases hr : (Reg.routerStat_routerOk g).reg = (Reg.routerStat_altUsed f).reg
    · exact fld_setFld_disjoint h (show 2 + 1 ≤ 32 by decide) hr (.inl (show 0 + 1 ≤ 2 by decide))
    · exact fld_setFld_other hr

theorem rangePresent_noteRoute : (noteRoute s f y).rangePresent a len = s.rangePresent a len := by
  cases y <;> rfl

theorem dieState_noteRoute : (noteRoute s f y).dieState = s.dieState := by
  cases y <;> rfl

theorem out_noteRoute : (noteRoute s f y).out = s.out := by
  cases y <;> rfl

/-- A write makes no granule uncorrectable. -/
theorem ueIn_write {b : Nat} {d : List Byte} (h : s.ueIn a len = false) : (s.write b d).ueIn a len = false := by
  unfold State.ueIn at h ⊢
  rw [Bool.or_eq_false_iff, List.any_eq_false, List.any_eq_false] at h ⊢
  exact ⟨fun g hg => h.1 g (List.mem_of_mem_filter hg), fun g hg => h.2 g (List.mem_of_mem_filter hg)⟩

/-- The state after a U4 write of `d` that took the way `y` over the mesh. -/
def u4Written (s : State) (y : Bool) (tag addr : Nat) (d : List Byte) : State := wrResp ((noteRoute s hostField y).write addr d) tag 0 addr

section
variable {tag addr : Nat} {d : List Byte}

theorem mem_u4Written : (u4Written s y tag addr d).mem = wrBytes s.mem addr d := congrArg (wrBytes · addr d) (mem_noteRoute rfl)

theorem read_u4Written (h : memWf s.mem = true) : (u4Written s y tag addr d).read addr d.length = d := by
  rw [State.read, mem_u4Written]
  exact rdBytes_wrBytes h

theorem reach_u4Written (h : swf regReset s.csr = true) : (u4Written s y tag addr d).reach f a = s.reach f a :=
  reach_congr (t := u4Written s y tag addr d) (routerOk_noteRoute h)

theorem ueIn_u4Written (h : s.ueIn a len = false) : (u4Written s y tag addr d).ueIn a len = false :=
  ueIn_write (ueIn_noteRoute.trans h)

end

end

/-- Settles O29: the route of the write and its answer leave every condition of the read as it is, and bytes written are read again. -/
theorem u4ReadAfterWrite : Obligations.U4ReadAfterWrite := by
  intro s tag tag' addr d ⟨hcsr, hmem, _⟩ hs hw hr hreg hprot hpres hreach hue hpart
  obtain ⟨y, hy⟩ := Option.isSome_iff_exists.1 hreach
  have hread := u4Rd_memory (s := u4Written s y tag addr d) (tag := tag') (dieState_noteRoute.trans_ne hs) hr hreg
    (rangePresent_noteRoute.trans hpres) (meshTo_of_reach ((reach_u4Written hcsr).trans hy)) (ueIn_u4Written hue)
  rw [read_u4Written hmem] at hread
  refine ⟨_, _, u4Wr_memory hs hw hreg hprot hpres (meshTo_of_reach hy) hpart, hread, congrArg (· ++ _) out_noteRoute, fun a ha => ?_⟩
  exact (congrArg (rdByte · a) mem_u4Written).trans (rdByte_wrBytes_out ha)

end Sys2Proof.Machine
end

section
/-! Commands that complete: reads, boot and configuration, fabric, sequences, power and service (R318 to R345). -/

namespace Sys2Proof.Machine

section
variable {s : State} {m k : Nat}

/-! ### Reads (R318, R325, R337, R344, R420) -/

theorem seqRead_accepted (h : s.accepts m 0x0405) (hi : fieldAt (s.args m) 0 2 ≤ 16383) (hz : fieldAt (s.args m) 2 2 = 0) :
    exec (.seqRead m) s = .next (s.answer m (s.cmdCounted m) (seqBytes (s.cmdCounted m) (fieldAt (s.args m) 0 2))) :=
  congrArg Host.Outcome.next (takeCommand_now h rfl (by simp [hi, hz]) rfl)

/-- Arguments of a log read whose records go into the response. -/
theorem logArgs_response {first count maxFirst maxCount rest : Nat} (hr : rest = 0) (hf : first ≤ maxFirst) (h1 : 1 ≤ count)
    (hmax : 3 ≤ maxCount) (h3 : count ≤ 3) : logArgs s 0 first count maxFirst maxCount rest = false := by
  simp [logArgs, hr, hf, Nat.one_le_iff_ne_zero.1 h1, h3, Nat.le_trans h3 hmax]

/-- Arguments of a log read whose records go to a buffer. -/
theorem logArgs_buffer {buf first count maxFirst maxCount rest : Nat} (hr : rest = 0) (hf : first ≤ maxFirst) (h1 : 1 ≤ count)
    (hb : buf ≠ 0) (hmax : count ≤ maxCount) (hw : wbufOk s buf (64 * count) = true) :
    logArgs s buf first count maxFirst maxCount rest = false := by
  simp [logArgs, hr, hf, Nat.one_le_iff_ne_zero.1 h1, hb, hmax, hw]

theorem logRead_response {buf : Nat} {head recs : List Byte} (hb : buf = 0) : logRead s buf head recs = (s, head ++ recs) := if_pos hb

theorem logRead_buffer {buf : Nat} {head recs : List Byte} (hb : buf ≠ 0) : logRead s buf head recs = (s.write buf recs, head) := if_neg hb

theorem faultLogRead_accepted (h : s.accepts m 0x0505)
    (ha : logArgs s (fieldAt (s.args m) 0 8) (fieldAt (s.args m) 8 1) (fieldAt (s.args m) 9 1) 31 32 (fieldAt (s.args m) 10 6) = false)
    {t : State} {d : List Byte} (hr : logRead (s.cmdCounted m) (fieldAt (s.args m) 0 8)
      (leBytes 1 s.faults.length ++ leBytes 3 0 ++ leBytes 4 (s.fld Reg.faultTotal_total))
      (logBytes (s.faults.map FaultRec.bytes) (fieldAt (s.args m) 8 1) (fieldAt (s.args m) 9 1)) = (t, d)) :
    exec (.faultLogRead m) s = .next (s.answer m t d) := by
  refine congrArg Host.Outcome.next ((takeCommand_now h rfl ha rfl).trans ?_)
  exact congrArg (fun r : State × List Byte => s.answer m r.1 r.2) hr

theorem eventLogRead_accepted (h : s.accepts m 0x0506)
    (ha : logArgs s (fieldAt (s.args m) 0 8) (fieldAt (s.args m) 8 2) (fieldAt (s.args m) 10 2) 1023 1024 (fieldAt (s.args m) 12 4) = false)
    {t : State} {d : List Byte} (hr : logRead (s.cmdCounted m) (fieldAt (s.args m) 0 8) (leBytes 2 s.ev.records.length ++ leBytes 6 0)
      (logBytes (s.ev.records.map EvRec.bytes) (fieldAt (s.args m) 8 2) (fieldAt (s.args m) 10 2)) = (t, d)) :
    exec (.eventLogRead m) s = .next (s.answer m t d) := by
  refine congrArg Host.Outcome.next ((takeCommand_now h rfl ha rfl).trans ?_)
  exact congrArg (fun r : State × List Byte => s.answer m r.1 r.2) hr

theorem distRead_accepted (h : s.accepts m 0x0202) (hw : wbufOk s (fieldAt (s.args m) 0 8) 10384 = true) : exec (.distRead m) s =
    .next (s.answer m ((s.cmdCounted m).write (fieldAt (s.args m) 0 8) (distTable (s.cmdCounted m))) (leBytes 4 s.grid.change)) :=
  congrArg Host.Outcome.next (takeCommand_now h rfl (by simp [hw]) rfl)

end

/-- Settles O12: the rule of `takeCommand` for an immediate effect; a log's records go into the response or to the buffer. -/
theorem readCommandsComplete : Obligations.ReadCommandsComplete := by
  refine ⟨fun s m => ⟨fun h => congrArg _ (takeCommand_now h rfl rfl rfl), fun h => congrArg _ (takeCommand_now h rfl rfl rfl),
    fun h => congrArg _ (takeCommand_now h rfl rfl rfl), seqRead_accepted, fun h => congrArg _ (takeCommand_now h rfl rfl rfl)⟩,
    fun s m => ⟨fun h hz hf h1 => ⟨fun hb h3 => ?_, fun hb hc hw => ?_⟩, fun h hz hf h1 => ⟨fun hb h3 => ?_, fun hb hc hw => ?_⟩,
      distRead_accepted⟩⟩
  · exact faultLogRead_accepted h (by rw [hb]; exact logArgs_response hz hf h1 (by decide) h3) (logRead_response hb)
  · exact faultLogRead_accepted h (logArgs_buffer hz hf h1 hb hc hw) (logRead_buffer hb)
  · exact eventLogRead_accepted h (by rw [hb]; exact logArgs_response hz hf h1 (by decide) h3) (logRead_response hb)
  · exact eventLogRead_accepted h (logArgs_buffer hz hf h1 hb hc hw) (logRead_buffer hb)

/-! ### REJOIN (R324) -/

section
variable {s : State} {m k : Nat}

theorem rejoin_accepted (h : s.accepts m 0x0201) (hk : freeSlot s m = some k) : exec (.rejoin m) s =
    .next (if (s.begun m k []).time.state = .lost then enterAcquiring (s.begun m k []) else s.begun m k []) :=
  congrArg Host.Outcome.next (takeCommand_job h rfl rfl rfl hk)

@[simp] theorem time_begun {data : List Byte} : (s.begun m k data).time = s.time := clock_respond.1

theorem state_enterAcquiring : (enterAcquiring s).time.state = .acquiring := by
  unfold enterAcquiring
  dsimp only
  split <;> rfl

end

/-- Settles O17: the answer leaves the time state, which decides what the job does. -/
theorem rejoinMovesLostToAcquiring : Obligations.RejoinMovesLostToAcquiring := by
  intro s m k h hk
  rw [rejoin_accepted h hk, time_begun]
  refine ⟨fun hl => ?_, fun hl => ?_⟩
  · rw [if_pos hl]
    exact ⟨_, rfl, state_enterAcquiring, rfl⟩
  · rw [if_neg hl]
    exact ⟨rfl, rfl⟩

/-! ### Boot, maps, patches, attestation, remote operations, ranges (R320 to R328, R410, R412, R417) -/

section
variable {s : State} {m k : Nat}

/-- An answer takes no time, and no register's write is counted with it. -/
theorem clk_begun {data : List Byte} : (s.begun m k data).clk = s.clk ∧ (s.begun m k data).spw = s.spw := by
  obtain ⟨_, _, _, e⟩ := respond_eq (s := startJob (s.cmdCounted m) m k (s.hdr m) (s.args m)) (m := m) (h := s.hdr m) (acc := s.ns) (st := 1)
    (jobNo := nextJobNo s m k) (data := data)
  rw [State.begun, e]
  exact ⟨rfl, rfl⟩

theorem cfgCommit_accepted (hk : freeSlot s m = some k) (h : s.accepts m 0x0104) : exec (.cfgCommit m) s =
    .next ((snapshot (s.begun m k [])).updJob m k (fun j => { j with args := leBytes 16 s.clk ++ leBytes 8 s.spw.writes })) := by
  obtain ⟨hclk, hspw⟩ := clk_begun (s := s) (m := m) (k := k) (data := [])
  rw [← hclk, ← hspw]
  exact congrArg Host.Outcome.next (takeCommand_job h rfl rfl rfl hk)

theorem mapInstall_accepted (hk : freeSlot s m = some k) (h : s.accepts m 0x0106) (ha : mapArgs (s.args m) = false)
    (hb : bufOk s (mapBuf (s.args m)) (mapLen (s.args m)) = true) :
    exec (.mapInstall m) s = .next (installMap m (s.args m) k (s.begun m k [])) :=
  congrArg Host.Outcome.next (takeCommand_job h rfl (by simp [ha, hb]) rfl hk)

theorem mapPublish_accepted (hk : freeSlot s m = some k) (h : s.accepts m 0x0107) (ha : mapArgs (s.args m) = false)
    (hb : wbufOk s (mapBuf (s.args m)) (mapLen (s.args m) + sigLen) = true) (hp : s.mayPublish = true) :
    exec (.mapPublish m) s = .next (publishMap m (s.args m) k (s.begun m k [])) :=
  congrArg Host.Outcome.next (takeCommand_job h rfl (by simp [ha, hb]) (if_pos hp) hk)

theorem patchInstall_accepted (hk : freeSlot s m = some k) (h : s.accepts m 0x010A) (hlo : 64 ≤ fieldAt (s.args m) 8 4)
    (hhi : fieldAt (s.args m) 8 4 ≤ 262144) (hz : fieldAt (s.args m) 12 4 = 0)
    (hb : bufOk s (fieldAt (s.args m) 0 8) (fieldAt (s.args m) 8 4) = true) :
    exec (.patchInstall m) s = .next (installPatch m (s.args m) k (s.begun m k [])) :=
  congrArg Host.Outcome.next (takeCommand_job h rfl (by simp [hlo, hhi, hz, hb]) rfl hk)

theorem attest_accepted (hk : freeSlot s m = some k) (h : s.accepts m 0x010B) (hb : wbufOk s (fieldAt (s.args m) 32 8) 24576 = true) :
    exec (.attest m) s = .next (jobDone (((s.begun m k []).write (fieldAt (s.args m) 32 8)
      (reportBytes (s.begun m k []) ((s.args m).take 32))).count Reg.secCnt_attestCnt 1) m k 0 (leBytes 4 17600)) :=
  congrArg Host.Outcome.next (takeCommand_job h rfl (by simp [hb]) rfl hk)

theorem endorseInstall_accepted (hk : freeSlot s m = some k) (h : s.accepts m 0x010D) (hb : bufOk s (fieldAt (s.args m) 0 8) endorseLen = true)
    (hw : wbufOk s (fieldAt (s.args m) 8 8) 262144 = true) (hm : s.fld Reg.secRole_manager = 1) :
    exec (.endorseInstall m) s = .next (installEndorse m (s.args m) k (s.begun m k [])) :=
  congrArg Host.Outcome.next (takeCommand_job h rfl (by simp [hb, hw]) (if_pos hm) hk)

/-- An opened range leaves nothing to record. -/
theorem kvRecvOpen_accepted (h : s.accepts m 0x0206) (ha : openArgs (s.args m) s = false) (hr : openRefused (s.args m) s = none) :
    exec (.kvRecvOpen m) s =
      .next (s.answer m (openRange (s.args m) (s.cmdCounted m)).1 (openRange (s.args m) (s.cmdCounted m)).2) :=
  congrArg Host.Outcome.next ((recordOpen_of_none (refusal_of_none hr)).trans (takeCommand_now h rfl ha hr))

end

/-- Settles O18: each command by the rule of `takeCommand` for it, under what shows its arguments and its role. -/
theorem bootAndFabricCommandsComplete : Obligations.BootAndFabricCommandsComplete :=
  ⟨fun _ _ _ hk => ⟨cfgCommit_accepted hk, mapInstall_accepted hk, mapPublish_accepted hk,
      patchInstall_accepted hk, attest_accepted hk, endorseInstall_accepted hk⟩,
    fun _ _ _ => ⟨fun h hk ha => congrArg _ (takeCommand_job h rfl ha rfl hk), kvRecvOpen_accepted⟩⟩

/-! ### Patch bundles (R323) -/

section
variable {s : State} {m k : Nat} {a : List Byte}

@[simp] theorem sec_jobDone (st : Nat) (d : List Byte) : (jobDone s m k st d).sec = s.sec := by rw [jobDone_eq]

@[simp] theorem sec_sigInvalid (c : Check) : (sigInvalid s c m k).sec = s.sec := by
  rw [sigInvalid, sec_jobDone, apply_ite State.sec, sigFail, count_sec, ite_self]

theorem installPatch_verified (hu : s.ueIn (fieldAt a 0 8) (fieldAt a 8 4) = false)
    (hc : bundleCheck s (s.read (fieldAt a 0 8) (fieldAt a 8 4)) = .ok) :
    (installPatch m a k s).sec.patchStore = s.read (fieldAt a 0 8) (fieldAt a 8 4) := by
  simp [installPatch, hu, hc]

theorem installPatch_bad (hu : s.ueIn (fieldAt a 0 8) (fieldAt a 8 4) = false)
    (hc : bundleCheck s (s.read (fieldAt a 0 8) (fieldAt a 8 4)) ≠ .ok) :
    installPatch m a k s = sigInvalid s (bundleCheck s (s.read (fieldAt a 0 8) (fieldAt a 8 4))) m k := by
  simp [installPatch, hu, hc]

end

/-- Settles O19: the store is written behind the check, and a failed one ends the job alone. -/
theorem badPatchLeavesStoreUnchanged : Obligations.BadPatchLeavesStoreUnchanged := by
  intro s m k a hu
  refine ⟨fun hc => ⟨?_, installPatch_bad hu hc⟩, installPatch_verified hu⟩
  rw [installPatch_bad hu hc, sec_sigInvalid]

/-! ### Sequences (R273, R285, R286, R292, R338, R339) -/

section
variable {s : State} {m k : Nat}

/-- An admitted submit has no refusal to count. -/
theorem seqSubmit_accepted (hk : freeSlot s m = some k) (h : s.accepts m 0x0401) (ha : submitArgs (s.args m) s = false)
    (hr : submitRefused (s.args m) s = none) :
    exec (.seqSubmit m) s = .next (submit m (s.args m) k (s.begun m k (submitData (s.args m) (s.cmdCounted m)))) :=
  congrArg Host.Outcome.next ((countRefused_of_none (refusal_of_none hr)).trans (takeCommand_jobData h rfl ha hr hk))

theorem seqCancel_accepted (h : s.accepts m 0x0402) (hz : fieldAt (s.args m) 6 2 = 0) (hr : seqRefused (s.args m) s = none) :
    exec (.seqCancel m) s = .next (s.answer m (pumpAll (endSeq (s.cmdCounted m) (sqIdx (s.args m)) 2)) []) :=
  congrArg Host.Outcome.next (takeCommand_now h rfl (by simp [hz]) hr)

/-- Of a flag of one bit, the bit is the flag. -/
theorem hasBit_zero_iff {v : Nat} (h : v ≤ 1) : hasBit v 0 = true ↔ v = 1 := by
  rw [hasBit, beq_iff_eq]
  omega

theorem seqPause_accepted {t : State} (ht : t = pauseCheck ((s.cmdCounted m).updSeq (sqIdx (s.args m)) (fun e => { e with pHost := true }))
      (sqIdx (s.args m)))
    (h : s.accepts m 0x0403) (h1 : fieldAt (s.args m) 6 1 ≤ 1) (hz : fieldAt (s.args m) 7 1 = 0) (hr : seqRefused (s.args m) s = none) :
    exec (.seqPause m) s = .next (s.answer m
      (pumpAll (if fieldAt (s.args m) 6 1 = 1 ∧ (t.seq (sqIdx (s.args m))).park = false then parkSeq t (sqIdx (s.args m)) else t)) []) := by
  subst ht
  refine congrArg Host.Outcome.next ((takeCommand_now h rfl (by simp [h1, hz]) hr).trans ?_)
  simp only [Bool.and_eq_true, Bool.not_eq_true', hasBit_zero_iff h1]

theorem seqResume_accepted (h : s.accepts m 0x0404) (hz : fieldAt (s.args m) 6 2 = 0) (hr : seqRefused (s.args m) s = none)
    {e : SeqE} (he : e = s.seq (sqIdx (s.args m)))
    {t : State} (ht : t = (s.cmdCounted m).updSeq (sqIdx (s.args m)) (fun e => { e with pHost := false })) :
    (e.pHost = false → exec (.seqResume m) s = .next (s.answer m (s.cmdCounted m) [])) ∧
    (e.pHost = true → exec (.seqResume m) s = .next (s.answer m
      (pumpAll (resumeCheck (if e.pCap then t else unparkSeq t (sqIdx (s.args m))) (sqIdx (s.args m)))) [])) := by
  subst he ht
  have hseq : (s.cmdCounted m).seq (sqIdx (s.args m)) = s.seq (sqIdx (s.args m)) := rfl
  refine ⟨fun hp => ?_, fun hp => ?_⟩
  · refine congrArg Host.Outcome.next ((takeCommand_now h rfl (by simp [hz]) hr).trans ?_)
    simp [hseq, hp]
  · refine congrArg Host.Outcome.next ((takeCommand_now h rfl (by simp [hz]) hr).trans ?_)
    simp [hseq, hp]

theorem seqNotify_accepted (hk : freeSlot s m = some k) (h : s.accepts m 0x0406) (hn : ∀ j ∈ s.jobsOf 0x0406, j.1 ≠ m) :
    exec (.seqNotify m) s = .next (s.begun m k []) :=
  congrArg Host.Outcome.next (takeCommand_job h (by simpa using hn) rfl rfl hk)

end

/-- Settles O21: a submit and a notify begin a job; the other three move the sequence at once. -/
theorem sequenceCommandsComplete : Obligations.SequenceCommandsComplete := fun _ _ _ hk =>
  ⟨seqSubmit_accepted hk, seqCancel_accepted, seqPause_accepted rfl, fun h hz hr => seqResume_accepted h hz hr rfl rfl, seqNotify_accepted hk⟩

/-! ### Power and service (R341, R343, R345, R371, R372, R391, R394) -/

section
variable {s : State} {m k : Nat}

theorem thermalClear_accepted (h : s.accepts m 0x0503) (ht : s.tempNow < 340) : exec (.thermalClear m) s =
    .next (s.answer m (askReset (writeEvent (writeHeader (s.cmdCounted m) (fun h => { h with latch := false })) 0x04
      (leBytes 8 s.shutdownNs)) 3) []) :=
  congrArg Host.Outcome.next (takeCommand_now h rfl rfl (if_neg (Int.not_le.2 ht)))

theorem domainReset_whole (h : s.accepts m 0x0504) (hz : fieldAt (s.args m) 2 2 = 0) (hn : ∀ r ∈ s.domResets, r.domain ≠ drDomain (s.args m))
    (hd : drDomain (s.args m) = 0xFF) : exec (.domainReset m) s = .next (s.answer m (askReset (s.cmdCounted m) 2) []) := by
  show execDomainReset m s = _
  have hw : (drDomain (cmdArgs (s.mb m).cmd) == 0xFF) = true := beq_iff_eq.2 hd
  rw [execDomainReset, hw]
  exact congrArg Host.Outcome.next (takeCommand_now h (by simpa using hn) (by simp [hz, hd]) (if_neg fun ⟨hne, _⟩ => hne hd))

theorem domainReset_domain (h : s.accepts m 0x0504) (hz : fieldAt (s.args m) 2 2 = 0) (hn : ∀ r ∈ s.domResets, r.domain ≠ drDomain (s.args m))
    (hd : drDomain (s.args m) ≠ 0xFF) (hc : domainCode (drDomain (s.args m)) = true) (hr : s.retiredDom (drDomain (s.args m)) = false)
    (hk : freeSlot s m = some k) : exec (.domainReset m) s = .next (domainResetStart m (s.args m) k (s.begun m k [])) := by
  show execDomainReset m s = _
  have hw : (drDomain (cmdArgs (s.mb m).cmd) == 0xFF) = false := beq_false_of_ne hd
  rw [execDomainReset, hw]
  exact congrArg Host.Outcome.next (takeCommand_job h (by simpa using hn) (by simp [hz, hc])
    (if_neg fun ⟨_, ht⟩ => by rw [hr] at ht; cases ht) hk)

theorem serviceClear_accepted (h : s.accepts m 0x0507) (ha : fieldAt (s.args m) 0 4 = 0x5356434C) : exec (.serviceClear m) s =
    .next (s.answer m (askReset (writeHeader (writeEvent (s.cmdCounted m) 0x06 [])
      (fun h => { h with oos := false, at0 := 0, at1 := 0, at0v := false, at1v := false })) 4) []) :=
  congrArg Host.Outcome.next (takeCommand_now h rfl rfl (if_neg fun hn => hn ha))

end

/-- Settles O22: a reset of the whole die is an immediate effect, one of a domain a job. -/
theorem powerAndServiceCommandsComplete : Obligations.PowerAndServiceCommandsComplete := fun _ _ _ =>
  ⟨fun h hk ha hb => congrArg _ (takeCommand_job h rfl ha hb hk), thermalClear_accepted,
    fun h hz hn => ⟨domainReset_whole h hz hn, domainReset_domain h hz hn⟩, serviceClear_accepted⟩

end Sys2Proof.Machine
end

section
/-! Budgets (R289, R340), links that change state (R298), attention and gather windows (R249 to R256), HBM events (R262, R266, R380 to
R382) and power alarms (R365, R370, R373, R378). -/

namespace Sys2Proof.Machine

/-! ### Budgets (R289, R340) -/

section
variable {k : Nat} {l : List TenantRate} {f : TenantRate → TenantRate}

/-- A change of one tenant keeps the others. -/
theorem mem_mapTenant_other (hf : ∀ y, y.tenant = k → (f y).tenant = k) {t : TenantRate} (ht : t.tenant ≠ k) :
    t ∈ l.map (fun y => if y.tenant == k then f y else y) ↔ t ∈ l := by
  rw [List.mem_map]
  constructor
  · rintro ⟨y, hy, rfl⟩
    by_cases hk : y.tenant = k
    · rw [if_pos (beq_iff_eq.2 hk)] at ht
      exact absurd (hf y hk) ht
    · rwa [if_neg (by simpa using hk)]
  · exact fun h => ⟨t, h, if_neg (by simpa using ht)⟩

/-- After a change of one tenant that names it again, its entries are changed ones. -/
theorem of_mem_mapTenant {t : TenantRate} (h : t ∈ l.map (fun y => if y.tenant == k then f y else y)) (ht : t.tenant = k) :
    ∃ y ∈ l, y.tenant = k ∧ t = f y := by
  obtain ⟨y, hy, rfl⟩ := List.mem_map.1 h
  by_cases hk : y.tenant = k
  · exact ⟨y, hy, hk, if_pos (beq_iff_eq.2 hk)⟩
  · rw [if_neg (by simpa using hk)] at ht
    exact absurd ht hk

variable {s : State} {a : List Byte}

/-- A tenant with a new rate and burst, and its level capped. -/
def TenantRate.rebudget (t : TenantRate) (rate burst cap : Nat) : TenantRate :=
  { t with rate := rate, burst := burst, level := min t.level cap }

theorem rebudget_fields {t : TenantRate} {rate burst cap : Nat} :
    (t.rebudget rate burst cap).rate = rate ∧ (t.rebudget rate burst cap).burst = burst ∧ (t.rebudget rate burst cap).level ≤ cap :=
  ⟨rfl, rfl, Nat.min_le_right _ _⟩

theorem tenant_rebudget {t : TenantRate} {rate burst cap : Nat} : (t.rebudget rate burst cap).tenant = t.tenant := rfl

/-- What BUDGET_SET makes of the tenant that it names. -/
def budgeted (a : List Byte) (now : Nat) (t : TenantRate) : TenantRate :=
  (t.settle now).rebudget (bsRate a) (bsBurst a) (bsBurst a * 10 ^ 9)

theorem tenant_settle {t : TenantRate} {now : Nat} : (t.settle now).tenant = t.tenant := by
  cases t
  rfl

theorem tenant_budgeted {now : Nat} {t : TenantRate} : (budgeted a now t).tenant = t.tenant :=
  tenant_rebudget.trans tenant_settle

theorem setTenant_known (h : bsRate a ≠ 0 ∨ bsBurst a ≠ 0) (hk : ∃ t ∈ s.seqs.tenants, t.tenant = bsTenant a) :
    (setTenant a s).seqs.tenants = s.seqs.tenants.map (fun t => if t.tenant == bsTenant a then budgeted a s.ns t else t) := by
  have hany : s.seqs.tenants.any (fun t => t.tenant == bsTenant a) = true := by simpa using hk
  show (if _ then _ else if _ then _ else _) = _
  rw [if_neg (by omega), if_pos hany]
  rfl

theorem setTenant_new (h : bsRate a ≠ 0 ∨ bsBurst a ≠ 0) (hk : ¬ ∃ t ∈ s.seqs.tenants, t.tenant = bsTenant a) :
    (setTenant a s).seqs.tenants = s.seqs.tenants ++
      [{ tenant := bsTenant a, rate := bsRate a, burst := bsBurst a, level := bsBurst a * 10 ^ 9, at0 := s.ns }] := by
  have hany : ¬ s.seqs.tenants.any (fun t => t.tenant == bsTenant a) = true := by simpa using hk
  show (if _ then _ else if _ then _ else _) = _
  rw [if_neg (by omega), if_neg hany]

/-- BUDGET_SET of a tenant that stays. -/
theorem setTenant_budgets (h : bsRate a ≠ 0 ∨ bsBurst a ≠ 0) :
    (∃ t ∈ (setTenant a s).seqs.tenants, t.tenant = bsTenant a) ∧
    (∀ t ∈ (setTenant a s).seqs.tenants, t.tenant = bsTenant a →
      t.rate = bsRate a ∧ t.burst = bsBurst a ∧ t.level ≤ bsBurst a * 10 ^ 9) ∧
    (∀ t, t.tenant ≠ bsTenant a → (t ∈ (setTenant a s).seqs.tenants ↔ t ∈ s.seqs.tenants)) := by
  by_cases hk : ∃ t ∈ s.seqs.tenants, t.tenant = bsTenant a
  · rw [setTenant_known h hk]
    obtain ⟨x, hx, hxk⟩ := hk
    refine ⟨⟨budgeted a s.ns x, List.mem_map.2 ⟨x, hx, if_pos (beq_iff_eq.2 hxk)⟩, tenant_budgeted.trans hxk⟩, fun t ht htk => ?_,
      fun t ht => mem_mapTenant_other (fun _ hy => tenant_budgeted.trans hy) ht⟩
    obtain ⟨y, _, _, rfl⟩ := of_mem_mapTenant (f := budgeted a s.ns) ht htk
    exact rebudget_fields
  · rw [setTenant_new h hk]
    generalize bsBurst a * 10 ^ 9 = cap
    refine ⟨⟨_, List.mem_append_right _ (List.mem_singleton_self _), rfl⟩, fun t ht htk => ?_, fun t ht => ?_⟩
    · rcases List.mem_append.1 ht with ht | ht
      · exact absurd ⟨t, ht, htk⟩ hk
      · rw [List.mem_singleton.1 ht]
        exact ⟨rfl, rfl, Nat.le_refl _⟩
    · rw [List.mem_append, List.mem_singleton]
      exact or_iff_left fun he => ht (by rw [he])

variable {src no units : Nat} {x : TenantRate}

/-- A tenant after a grant of `g` to request `no` of die `src`, which takes `spent` of its level. -/
def TenantRate.grant (x : TenantRate) (src no g spent : Nat) : TenantRate :=
  { x with level := x.level - spent, answered := x.answered.filter (fun e => e.1 != src) ++ [(src, no, g)] }

theorem tenant_grant {g spent : Nat} : (x.grant src no g spent).tenant = x.tenant := rfl

theorem level_grant {g spent : Nat} : (x.grant src no g spent).level = x.level - spent := rfl

/-- The answer to a request that is answered for the first time. -/
theorem answerBudget_first (hx : s.seqs.tenants.find? (fun x => x.tenant == k) = some x)
    (hn : (x.settle s.ns).answered.find? (fun e => e.1 == src && e.2.1 == no) = none) :
    (answerBudget s src k no units).2 = min units ((x.settle s.ns).level / 10 ^ 9) ∧
    (answerBudget s src k no units).1.seqs.tenants = s.seqs.tenants.map (fun y => if y.tenant == k then
      (x.settle s.ns).grant src no (answerBudget s src k no units).2 ((answerBudget s src k no units).2 * 10 ^ 9) else y) := by
  simp only [answerBudget, hx, hn]
  exact ⟨rfl, rfl⟩

end

/-- Settles O15: a set budget caps the level, and a grant is at most the level's whole units. -/
theorem budgetsStayBounded : Obligations.BudgetsStayBounded := by
  refine ⟨fun a s h => setTenant_budgets h, fun s src k no units x hx hn => ?_⟩
  obtain ⟨hg, htenants⟩ := answerBudget_first (units := units) hx hn
  have hxk : x.tenant = k := by simpa using List.find?_some hx
  have hle : (answerBudget s src k no units).2 * 10 ^ 9 ≤ (x.settle s.ns).level := by
    rw [hg]
    exact Nat.le_trans (Nat.mul_le_mul_right _ (Nat.min_le_right _ _)) (Nat.div_mul_le_self _ _)
  dsimp only
  rw [htenants]
  refine ⟨hg ▸ Nat.min_le_left _ _, hle, fun y hy hyk => ?_, fun y hy => ?_⟩
  · obtain ⟨_, _, _, rfl⟩ := of_mem_mapTenant (f := fun _ => _) hy hyk
    exact level_grant
  · exact mem_mapTenant_other (f := fun _ => (x.settle s.ns).grant src no _ _) (fun _ _ => tenant_grant.trans (tenant_settle.trans hxk)) hy

/-! ### Links that change state (R298, Table 9.4) -/

section
variable {s : State} {n : Nat} {st : LinkState}

/-- A raised interrupt bit reads 1. -/
theorem fld_raiseInt_same {b : Nat} (h : swf regReset s.csr = true) (hb : b < 32) : (raiseInt s b).fld (intBit b) = 1 := by
  have hset : (s.setFld (intBit b) 1).fld (intBit b) = 1 := fld_setFld_same h hb
  rw [raiseInt]
  split
  · exact (fld_congr (word_intCause (s.setFld (intBit b) 1) b _)).trans hset
  · exact hset

/-- A link that enters another state forgets its exchange, and bit 12 of INT_STATUS is raised. -/
theorem setLink_enters (hs : s.sound) (h : (s.lnk n).state ≠ st) :
    (∃ g, (setLink s n st).links = updAt s.links n g ∧ ∀ l, (g l).state = st ∧ (g l).outPend = none ∧ (g l).beatsOk = 0) ∧
    (setLink s n st).fld (intBit 12) = 1 := by
  unfold setLink
  extract_lets old ev ev' s1 s2 s3 s4 s5
  have h2 : Sound s.pending s.sec.fuses s2.pending s2.sec.fuses s2.csr s2.mem s2.cyc := sound_of hs
  have h3 : Sound s.pending s.sec.fuses s3.pending s3.sec.fuses s3.csr s3.mem s3.cyc := sound_ite h2 (sound_setFld h2)
  have h4 : Sound s.pending s.sec.fuses s4.pending s4.sec.fuses s4.csr s4.mem s4.cyc := sound_ite (sound_setFld h3) h3
  have h5 : Sound s.pending s.sec.fuses s5.pending s5.sec.fuses s5.csr s5.mem s5.cyc := sound_ite (sound_dropLanes h4) h4
  have hl3 : s3.links = s2.links := links_ite rfl (setFld_links ..)
  have hl4 : s4.links = s2.links := links_ite ((setFld_links ..).trans hl3) hl3
  have hl5 : s5.links = s2.links := links_ite (links_dropLanes.trans hl4) hl4
  rw [if_neg h]
  exact ⟨⟨_, (links_raiseInt 12).trans hl5, fun _ => ⟨rfl, rfl, rfl⟩⟩, fld_raiseInt_same h5.1 (by decide)⟩

end

/-- Settles O35: `setLink` changes the one link and what `linkless` leaves out. -/
theorem linkStateChange : Obligations.LinkStateChange := by
  intro s n st hs hn h t
  obtain ⟨⟨g, hlinks, hg⟩, hbit⟩ := setLink_enters hs h
  have hframe : linkless t = linkless s := linkless_setLink st
  have hlnk : t.lnk n = g (s.lnk n) := (lnk_congr (s := s.updLnk n g) hlinks).trans (lnk_updLnk hn)
  obtain ⟨hst, hpend, hok⟩ := hg (s.lnk n)
  refine ⟨by rw [hlnk, hst], by rw [hlnk, hpend], by rw [hlnk, hok], hbit, fun k hk => ?_, ?_, ?_, ?_⟩
  · exact (lnk_congr (s := s.updLnk n g) hlinks).trans (getAt_updAt_other hk)
  · rw [eq_of_linkless hframe]
  · rw [eq_of_linkless hframe]
  · rw [eq_of_linkless hframe]

/-! ### Attention windows and gathers (R249 to R256, R265) -/

section
variable {s : State} {w e : Nat} {late : List (Nat × Nat)}

theorem attWindow_due (h : s.winDue w 0 = true) : ¬ (!s.winDue w 0) = true := by simp [h]

theorem attGather_due (h : s.winDue w 1 = true) : ¬ (!s.winDue w 1) = true := by simp [h]

theorem lateAccesses_nil : lateAccesses s e [] = s := rfl

/-- A live position of a gather copies its row of the embedding to its place in the exchange area. -/
theorem gatherPos_copies {z : State} {v : Nat} {u : List Byte} {p : Pos} (hu : u = s.attUnit (winUnit e)) (hp : z.posOf (winField e) v = some p)
    (hnull : p.null = false) (hfail : p.failed = false) (hserve : s.sideServes (winEngine e) (auSide u) = true)
    (htok : p.ctx.token < auEmbRows u) (hue : s.ueIn (auEmbBase u + p.ctx.token * (auEmbWidth u * 2)) (auEmbWidth u * 2) = false)
    (hlive : s.live (winField e) v = true) : gatherPos z s e v = s.write (auExch u + (v - winVecLo e) * outPitch u)
      (s.read (auEmbBase u + p.ctx.token * (auEmbWidth u * 2)) (auEmbWidth u * 2)) := by
  subst hu
  simp [gatherPos, hp, hnull, hfail, hserve, Nat.not_le.2 htok, hue, hlive]

end

/-- Settles O44: a window that is due; a gather of one vector serves that vector alone. -/
theorem attentionWindowsComplete : Obligations.AttentionWindowsComplete := by
  intro s w late e vs t
  refine ⟨fun h => if_neg (attWindow_due h), fun h => if_neg (attGather_due h), ?_⟩
  intro p h hcnt u a hp hnull hfail hserve htok hue
  refine ⟨_, if_neg (attGather_due h), ?_⟩
  have hgather := gatherPos_copies (s := t) rfl hp hnull hfail hserve htok hue (live_of_posOf hp hnull hfail)
  have hvs : (List.range (winVecCnt e)).map (fun i => winVecLo e + i) = [winVecLo e] := by rw [hcnt]; rfl
  show (((List.range (winVecCnt e)).map (fun i => winVecLo e + i)).foldl (fun a v => gatherPos t a e v) t).mem = _
  rw [hvs, List.foldl_cons, List.foldl_nil, hgather, Nat.sub_self, Nat.zero_mul, Nat.add_zero]
  rfl

/-! ### HBM events (R262, R266, R380 to R382) -/

section
variable {s : State} {side : Nat}

theorem patrolScrub_guard {addr : Nat} (hs : s.scrubs side = true) (hlo : side * stackEnd ≤ addr) (hhi : addr < (side + 1) * stackEnd) :
    ¬ (!s.scrubs side || decide (addr < side * stackEnd) || decide ((side + 1) * stackEnd ≤ addr)) = true := by
  simp [hs, hlo, hhi]

/-- What the scrub of a granule leads to: nothing, a correctable error that is counted, or an uncorrectable one that is recorded. -/
def scrubbed (s : State) (side g : Nat) : Nat → State
  | 0 => s
  | 1 => s.count (if side = 0 then Reg.eccHbm0_corr else Reg.eccHbm1_corr) 1
  | _ => readUe { s with ue := if s.ue.contains g then s.ue else s.ue ++ [g] } (32 * g) 32 4

/-- A scrub in its stack; the last granule ends the pass. -/
theorem patrolScrub_scrubs {addr result : Nat} (hs : s.scrubs side = true) (hlo : side * stackEnd ≤ addr) (hhi : addr < (side + 1) * stackEnd) :
    exec (.patrolScrub side addr result) s = .next (if 32 * (addr / 32) + 32 = (side + 1) * stackEnd then
      (scrubbed s side (addr / 32) result).setFld Reg.scrubStat_lastPass (scrubbed s side (addr / 32) result).aliveS
      else scrubbed s side (addr / 32) result) := by
  refine (if_neg (patrolScrub_guard hs hlo hhi)).trans ?_
  rcases result with _ | _ | r <;> rfl

theorem placementWindowClose_guard (hm : s.fld (Reg.hbmCfg_migEn side) ≠ 0) (he : s.fld (Reg.hbmCfg_en side) ≠ 0)
    (hp : s.hbmPresent side = true) :
    ¬ (s.fld (Reg.hbmCfg_migEn side) = 0 ∨ s.fld (Reg.hbmCfg_en side) = 0 ∨ s.hbmPresent side = false) := by
  simp [hm, he, hp]

/-- The state once a page is copied and its descriptors name the new frame. -/
def pageCopied (s : State) (m : Migr) : State :=
  (s.descsOf m.old).foldl (fun a d => a.write d (leBytes 4 (a.hbm d 4 - m.old + m.new)))
    (s.write (65536 * m.new) (s.read (65536 * m.old) 65536))

theorem migrationCopyDone_copied {old : Nat} {m : Migr}
    (hm : (s.side side).moves.find? (fun m => m.old == old && m.switch.isNone) = some m) (hc : s.coreAwake = true)
    (hp : s.hbmPresent side = true) (hue : s.ueIn (65536 * m.old) 65536 = false) (hd : s.descsOf m.old ≠ []) :
    exec (.migrationCopyDone side old) s =
      .next (updMove (pageCopied s m) side m.old (fun x => [{ x with switch := some ((pageCopied s m).beat + 1) }])) := by
  have hcore : (!s.coreAwake || !s.hbmPresent side) = false := by rw [hc, hp]; rfl
  have hgood : (s.ueIn (65536 * m.old) 65536 || (s.descsOf m.old).isEmpty) = false := by
    rw [hue, List.isEmpty_eq_false_iff.2 hd]
    rfl
  show execMigrationCopyDone side old s = _
  rw [execMigrationCopyDone, hm]
  exact (if_neg (ne_true_of_eq_false hcore)).trans (if_neg (ne_true_of_eq_false hgood))

theorem oldFrameReturn_returned {old b : Nat} {m : Migr} (hm : (s.side side).moves.find? (fun m => m.old == old) = some m)
    (hb : m.switch = some b) (hdue : b + 64 ≤ s.beat) : exec (.oldFrameReturn side old) s =
      .next (startMoves (returnFrame (updMove s side m.old (fun _ => [])) side m.old) side) := by
  obtain ⟨o, n, sw⟩ := m
  cases hb
  show execOldFrameReturn side old s = _
  rw [execOldFrameReturn, hm]
  exact if_pos hdue

end

/-- Settles O49: each event meets its guard; a scrub of the last granule also ends the pass. -/
theorem hbmEventsComplete : Obligations.HbmEventsComplete := by
  refine fun s side => ⟨?_, fun counts hot hm he hp => if_neg (placementWindowClose_guard hm he hp),
    fun _ _ => migrationCopyDone_copied, fun _ _ _ => oldFrameReturn_returned,
    fun he hp => if_pos ⟨he, hp⟩⟩
  intro addr result hs hlo hhi t
  have ht : scrubbed s side (addr / 32) result = t := by rcases result with _ | _ | r <;> rfl
  rw [patrolScrub_scrubs hs hlo hhi, ht]
  exact ⟨fun hl => congrArg Host.Outcome.next (if_neg hl), fun hl => congrArg Host.Outcome.next (if_pos hl)⟩

/-! ### Power alarms (R365, R370, R373, R378) -/

section
variable {s : State} {code low : Nat}

/-- A raise by the whole range asks for S = 40. -/
theorem sNext_raiseShed : (raiseShed s 40).pow.sNext = some 40 := by
  have hv : min 40 (s.sSoon + 40) = 40 := Nat.min_eq_left (Nat.le_add_left _ _)
  rw [raiseShed, hv]
  split <;> rfl

theorem sensorGuard_passes (hs : s.dieState ≠ .off) (hon : s.sensorOn = true) {flag limit : Bool} (hf : flag = false) (hl : limit = false) :
    ¬ (!s.awake || !s.sensorOn || flag || limit) = true := by
  rw [awake_iff.2 hs, hon, hf, hl]
  decide

theorem timingMonitorLow_guard {d : Nat} {x : Int} (hs : s.dieState ≠ .off) (hc : s.coreUp = true) (hp : s.fld Reg.blockEnMisc_power ≠ 0)
    (ha : s.avsEn = true) (hd : s.powered d = true) (hx : x < 5) (hr : railsOf d ≠ []) :
    ¬ (!s.awake || !s.coreUp || s.fld Reg.blockEnMisc_power == 0 || !s.avsEn || !s.powered d || decide (5 ≤ x) || (railsOf d).isEmpty) = true := by
  rw [awake_iff.2 hs, hc, ha, hd, beq_false_of_ne hp, decide_eq_false (Int.not_le.2 hx), List.isEmpty_eq_false_iff.2 hr]
  decide

end

/-- Settles O51: each alarm meets its guard. -/
theorem powerAlarmsComplete : Obligations.PowerAlarmsComplete := fun _ _ _ hs =>
  ⟨fun hon hf hl => ⟨if_neg (sensorGuard_passes hs hon (beq_false_of_ne hf) (decide_eq_false (Nat.not_le.2 hl))), sNext_raiseShed⟩,
    fun hon hf hl => if_neg (sensorGuard_passes hs hon (beq_false_of_ne hf) (decide_eq_false (Nat.not_lt.2 hl))),
    fun hon hf hl => if_neg (sensorGuard_passes hs hon (beq_false_of_ne hf) (decide_eq_false (Nat.not_le.2 hl))),
    fun _ _ hc hp ha hd hx hr => if_neg (timingMonitorLow_guard hs hc hp ha hd hx hr)⟩

end Sys2Proof.Machine
end

section
/-! Resets (R391, R402 to R405, R424, Tables 19.4, 20.3), the end of boot, core errors, lost routers and the test port (R383, R402, R403,
R419). -/

namespace Sys2Proof.Machine

/-! ### Resets -/

section
variable {s : State}

@[simp] theorem sec_writeEvent (kind : Nat) (detail : List Byte) : (writeEvent s kind detail).sec = s.sec := rfl

@[simp] theorem sec_writeHeader (g : EvHdr → EvHdr) : (writeHeader s g).sec = s.sec := rfl

/-- The records of a boot leave keys, roles and fuses. -/
theorem sec_bootLog : (bootLog s).sec = s.sec := by
  simp only [bootLog, sec_writeHeader, apply_ite State.sec, sec_writeEvent, ite_self]

theorem sec_releaseTrip : (releaseTrip s).sec = s.sec := by
  rw [releaseTrip, apply_ite State.sec]
  exact ite_self _

theorem qpos_releaseTrip : (releaseTrip s).qpos = s.qpos := by
  rw [releaseTrip, apply_ite State.qpos]
  exact ite_self _

theorem fuses_enterOff : (enterOff s).sec.fuses = s.sec.fuses := by
  show (releaseTrip (if s.booting then bootLog s else s)).sec.fuses = _
  rw [sec_releaseTrip, apply_ite State.sec, sec_bootLog, ite_self]

theorem fuses_enterBoot (c : Nat) : (enterBoot s c).sec.fuses = s.sec.fuses := by
  show (releaseTrip s).sec.fuses = _
  rw [sec_releaseTrip]

/-- Of the registers, RESET_CAUSE alone is not at its reset value. -/
theorem word_enterBoot_other {c r : Nat} (h : r ≠ Reg.resetCause_cause.reg) : (enterBoot s c).word r = State.reset.word r :=
  word_setFld_other h

theorem resetCause_enterBoot (c : Nat) : (enterBoot s c).fld Reg.resetCause_cause = c % 8 :=
  fld_setFld_same (s := keepState (releaseTrip s)) rfl (by decide)

theorem wholeDieReset_asked {c : Nat} (hs : s.dieState ≠ .off) (hc : s.dieReset = some c) :
    exec .wholeDieReset s = .next (enterBoot s c) := by
  show execWholeDieReset s = _
  rw [execWholeDieReset, hc]
  exact if_neg hs

theorem supplyLoss_eq : exec .supplyLoss s = .next { (if s.dieState = .off then s else enterOff s) with
    supply := false, firstBoot := true, aged := false, aliveS := 0, aliveRounds := 0 } := rfl

end

/-- Settles O53: each reset by the state it finds; `keepState` is the reset state with what a reset keeps. -/
theorem resetsStartAfresh : Obligations.ResetsStartAfresh := by
  refine ⟨fun s => ⟨fun hs => if_neg hs, fun hs => ?_, fun hs => ?_, fun q hs => if_pos hs, fun q hs hp => if_pos ⟨hs, hp⟩,
    fun c => wholeDieReset_asked⟩, fun s => ⟨⟨rfl, rfl, rfl, rfl, rfl, rfl, rfl, rfl, rfl, rfl, fuses_enterOff⟩,
    fun c => ⟨rfl, qpos_releaseTrip, resetCause_enterBoot c, fun r => word_enterBoot_other, rfl, rfl, rfl, rfl, rfl, rfl, rfl, rfl,
      fuses_enterBoot c⟩⟩⟩
  · rw [supplyLoss_eq, if_neg hs]
  · rw [supplyLoss_eq, if_pos hs]

/-! ### The end of ROM_BOOT (R402, R403) -/

section
variable {s : State}

theorem dieState_pendByAge (t : Nat) : (pendByAge s t).dieState = s.dieState := by
  rw [pendByAge, apply_ite State.dieState, setFld_dieState, ite_self]

theorem dieState_loadTile (keep : Bool) (t : Nat) : (loadTile keep s t).dieState = s.dieState := by
  unfold loadTile
  dsimp only
  split
  · rw [dieState_pendByAge, updTile_dieState, updTile_dieState]
  · rw [retireTile, updTile_dieState, updTile_dieState]

theorem dieState_bootPower : (bootPower s).dieState = s.dieState := by
  unfold bootPower
  split
  · exact foldl_keeps (g := State.dieState) (fun t f => foldl_keeps (g := State.dieState) (fun _ _ => dieState_loadTile _ _) _ t) _ _
  · rfl

theorem dieState_bootTrip : (bootTrip s).dieState = s.dieState := by
  rw [bootTrip, apply_ite State.dieState]
  exact ite_self _

theorem romBootDone_booted (hb : s.booting = true) (hc : s.coreUp = true) : exec .romBootDone s =
    if s.sec.fuses.checkBad then .next ((bootLog s).setFld Reg.secStatus_fuseFail 1)
    else .next (bootTrip (bootPower (enterState (setProt (bootPatch (drawKeys (bootLog s))) 0 (some (0, 2 ^ 33 - 1)))
      (bootEnd (setProt (bootPatch (drawKeys (bootLog s))) 0 (some (0, 2 ^ 33 - 1))))))) := by
  have hg : ¬ (!s.booting || !s.coreUp) = true := by simp [hb, hc]
  exact if_neg hg

/-! ### Fatal errors (R383) -/

theorem coreFatal_guard (hs : s.dieState ≠ .off) (hc : s.coreUp = true) : ¬ (s.dieState = .off ∨ s.coreUp = false) := by
  simp [hs, hc]

theorem routerLost_guard {f : Nat} (hs : s.dieState ≠ .off) (hf : f < 64) (hr : s.routerOk f = true) :
    ¬ (s.dieState = .off ∨ 64 ≤ f ∨ s.routerOk f = false) := by
  simp [hs, hr, hf]

/-- A record of the event log leaves the state as sound as it is. -/
theorem sound_coreFatalRecord {mem kind : Nat} {d : List Byte} (h : s.sound) :
    (writeEvent (if mem = 1 then s else s.count Reg.eccSram_uncorr 1) kind d).sound := by
  obtain ⟨hcsr, hmem, hcyc, -, -⟩ := sound_writeEvent (x1 := kind) (x2 := d) (sound_ite (c := mem = 1) (sound_of h) (sound_count (sound_of h)))
  exact ⟨hcsr, hmem, hcyc⟩

/-! ### The test port (R402, R419) -/

theorem testPortAccess_killed {op : TestOp} (h : s.sec.fuses.dbgKill = true) : exec (.testPortAccess op) s = .next s := by
  have hg : (s.sec.fuses.dbgKill || s.dieState == .off) = true := by rw [h]; rfl
  exact if_pos hg

theorem testPort_guard (hs : s.dieState ≠ .off) (h : s.sec.fuses.dbgKill = false) : ¬ (s.sec.fuses.dbgKill || s.dieState == .off) = true := by
  simp [h, hs]

end

/-- Settles O54: each event under its guard; a lost router is the second flit error within 1,000 ms, or a table-memory error. -/
theorem bootAndFatalEventsComplete : Obligations.BootAndFatalEventsComplete := by
  refine fun s => ⟨fun hb hc => ⟨fun hbad => ?_, fun hgood => ⟨?_, ?_⟩⟩, fun mem addr hs hc => ⟨?_, fun h => ?_⟩, fun f hs hf hr => ⟨?_, ?_⟩,
    fun hs hk => ⟨if_neg (testPort_guard hs hk), if_neg (testPort_guard hs hk), if_neg (testPort_guard hs hk),
      fun b => if_neg (testPort_guard hs hk)⟩, fun op => testPortAccess_killed⟩
  · rw [romBootDone_booted hb hc, if_pos hbad]
  · rw [romBootDone_booted hb hc, if_neg (ne_true_of_eq_false hgood)]
  · rw [dieState_bootTrip, dieState_bootPower, dieState_enterState]
  · exact if_neg (coreFatal_guard hs hc)
  · exact firing_stopFiring (sound_coreFatalRecord h)
  · intro why hw
    exact (if_neg (routerLost_guard hs hf hr)).trans (if_neg (by omega))
  · intro why hw hl
    exact (if_neg (routerLost_guard hs hf hr)).trans (if_pos ⟨hw, hl⟩)

end Sys2Proof.Machine
end
